-- ==== Sys2Proof/Word.lean ====
section
/-!
DEFINITION. The word types of the model and the two plain data shapes every part of the state is built from.
-/
namespace Sys2Proof

/-- An 8-bit byte; bit 0 is the least significant (R8). -/
abbrev Byte := BitVec 8
/-- A 32-bit word. -/
abbrev W32 := BitVec 32
/-- A 64-bit word. -/
abbrev W64 := BitVec 64
/-- One 64-byte line, byte 0 in bits [7:0] (R8, R189). -/
abbrev LineData := BitVec 512

/-- A sparse table: keys strictly rising, at most one entry a key. A key that is not listed reads as the
default its reader names. -/
abbrev KV (α : Type) := List (Nat × α)

/-- A byte memory: addresses strictly rising, no entry equal to what an unlisted address reads as. -/
abbrev Mem := List Host.Cell

end Sys2Proof
end

