-- ==== Sys2Proof/Syntax.lean ====
section
/-!
DEFINITION. The commands the block takes: one constructor for each row of spec/opcode_table.json, with its operands, and
the operand types. Chapter and rule of each command stand in its docstring.
-/
namespace Sys2Proof

/-- Which path a command packet came by (R340). -/
inductive Path where
  | ring | mailbox | board
  deriving DecidableEq, Repr, Inhabited

/-- One instruction fetch of a scalar core: the core that executes, and whether the fetch met a parity error of
the instruction memory (R86), which is the environment's. -/
structure Fetch where
  core : Fin 4000
  parity : Bool
  deriving DecidableEq, Repr, Inhabited

/-- What the environment makes of a line's storage: the wrong symbols its DRAM read finds, in the line or in the lower and
the upper half of a fine line, and whether its MAC or a tag differs (R236); or an error of its directory entry (R221). -/
inductive Media where
  | symbols (lower upper : Nat) (mac : Bool)
  | dirCorrected
  | dirUncorrectable
  deriving DecidableEq, Repr, Inhabited

/-- The errors met in one step, by line number (address / 64). -/
abbrev MediaList := List (Nat × Media)

/-- A cached line's state (R194). -/
inductive LSt where
  | I | S | E | O | M
  deriving DecidableEq, Repr, Inhabited

/-- The message set of R203, and an opcode byte outside it. -/
inductive MOp where
  | rdShared | rdUnique | upgrade | rdOnce | wrFull | wrPartial | wbDirty | evictClean | atomic
  | snpShared | snpUnique | snpInv | snpCurrent | snpRecall
  | snpRsp | grant | cmp | ack | data | snpData
  | reserved (code : BitVec 8)
  deriving DecidableEq, Repr, Inhabited

/-- One coherence message (R202) with the frame-header fields that travel with a request (R201, R398). -/
structure Msg where
  op : MOp
  /-- KIND: 0 COHERENT, 1 STREAM -/
  stream : Bool := false
  noE : Bool := false
  poison : Bool := false
  state : LSt := .I
  txn : BitVec 12 := 0
  src : BitVec 8
  dst : BitVec 8
  aux : BitVec 16 := 0
  addr : BitVec 48
  data : BitVec 512 := 0
  mask : BitVec 64 := 0
  operand : BitVec 64 := 0
  compare : BitVec 64 := 0
  /-- partition of the frame header -/
  part : Fin 8 := 0
  /-- context of the frame header -/
  ctx : BitVec 20 := 0
  /-- a hub agent acting for its partition, or for the hub, sent the request (R265) -/
  hubAgent : Bool := false
  /-- which engine or agent of the hub asked; 0 for a cluster cache or a partner die -/
  who : Nat := 0
  /-- inside the hub, in a reply: 1 the home's read found the line uncorrectable, 2 it met an integrity failure -/
  note : Nat := 0
  /-- inside the hub: the line that serves a request to the source of a move (R247) -/
  fwd : Option Nat := none
  deriving DecidableEq, Repr, Inhabited

/-- The header of a command packet (R341). `rsv` is the packet offset of the first reserved field that is not
zero, if any (R13, R342). -/
structure Pkt where
  path : Path
  seq : BitVec 32
  partition : BitVec 4
  notify : Bool
  serial : Bool
  txn : BitVec 32
  tag : BitVec 32
  paramLen : BitVec 16
  rsv : Option (BitVec 12)
  deriving DecidableEq, Repr, Inhabited

/-- The opcode of a command packet, and the objects that its parameters name (R341, R347, R357). -/
structure PktBody where
  opcode : BitVec 16
  objs : List (BitVec 64)
  deriving DecidableEq, Repr, Inhabited

/-- The AtomicOps the port completes and requests (R278, R289). -/
inductive HostAtomicOp where
  | fetchAdd | swap | cas
  deriving DecidableEq, Repr, Inhabited

/-- The clock crossings of R379. -/
inductive Crossing where
  | ucieRx | siteRing | ringHbm | ringLp | ringDdr
  deriving DecidableEq, Repr, Inhabited

/-- A leg of a request's way to its controller (R379): a ring or spine hop, a transfer between a spine stop and its rings, a
clock crossing, or cycles of a domain at a clock in MHz. -/
inductive Leg where
  | hop | spine
  | cross (c : Crossing)
  | wait (cycles mhz : Nat)
  deriving DecidableEq, Repr, Inhabited

/-- A request for a controller during one slot (R241, R373, R375 to R380). -/
structure CtlReq where
  part : Fin 8
  /-- master port it came by (R372); 17 for management and hub agents -/
  port : Fin 18
  /-- traffic class it asks for, 1 to 3; 0 where it asks for none -/
  asks : BitVec 2
  write : Bool
  /-- BUDGET as the die sent it, and the request's way since -/
  budget : BitVec 16
  path : List Leg
  eligible : Bool
  /-- queued for the whole slot -/
  whole : Bool
  deriving DecidableEq, Repr, Inhabited

/-- What the SECDED code of stall memory finds in the words an access reads (R84): nothing, corrected single-bit
errors by stall row (bank × 1,024 + row, R490) with their count, or a double-bit error. -/
inductive Ecc where
  | clean
  | corrected (found : List (BitVec 15 × BitVec 16))
  | double
  deriving DecidableEq, Repr, Inhabited

/-- One record of an instance blob (R391): KIND, the saved id, and the stored descriptor. -/
structure BlobRec where
  /-- 1 context, 2 segment, 3 frame entry, 4 queue, 5 fence -/
  kind : BitVec 8
  id : BitVec 32
  data : BitVec 512
  deriving DecidableEq, Repr, Inhabited

/-- What INSTANCE_RESTORE reads from host memory (R391, R392): whether the tag verifies, the PROFILE of the saving unit,
the records of the body, and the entries of FRAME_MAP. -/
structure BlobIn where
  tagOk : Bool
  profile : BitVec 8
  /-- header bytes [63:36], which are reserved -/
  rsv : BitVec 224
  recs : List BlobRec
  frames : List (BitVec 64 × BitVec 64)
  deriving DecidableEq, Repr, Inhabited

/-- A site record of the integrator configuration (R396). -/
structure SiteRec where
  enable : Bool
  vendor : BitVec 16
  device : BitVec 16
  vddA : BitVec 16
  budgetCap : BitVec 16
  protocols : BitVec 8
  maxRate : BitVec 8
  shedClass : BitVec 8
  deriving DecidableEq, Repr, Inhabited

/-- A message frame of a partner die (R403): its message, the CLASS, BUDGET and credits of its header, and whether it
breaks the frame's or the message's layout, as a reserved field that is not zero does. -/
structure DieFrame where
  msg : Msg
  cls : BitVec 2
  budget : BitVec 16
  crReq : BitVec 8
  crSnp : BitVec 8
  crRsp : BitVec 8
  crDat : BitVec 8
  malformed : Bool
  deriving DecidableEq, Repr, Inhabited

/-- The transaction of a Sloyth packet (R432): its header and payload, and whether some reserved field is not zero. -/
structure SlTxn where
  op : BitVec 8
  src : Fin 8
  win : BitVec 6
  atom : BitVec 8
  tag : BitVec 12
  len : BitVec 16
  off : BitVec 40
  status : BitVec 16
  payload : BitVec 4096
  rsv : Bool
  deriving DecidableEq, Repr, Inhabited

/-- A PACKET unit of a Sloyth port (R422): its EPOCH and SEQ, whether its tag verifies, and its transaction. -/
structure SlPacket where
  epoch : Bool
  seq : BitVec 64
  tagOk : Bool
  txn : SlTxn
  deriving DecidableEq, Repr, Inhabited

/-- The fragment header of R449. -/
structure Frag where
  offset : BitVec 32
  total : BitVec 32
  len : BitVec 32
  rsv : Bool
  deriving DecidableEq, Repr, Inhabited

/-- A signed object as its header and the checks of R448 show it: whether MAGIC, reserved fields and BODY_BYTES are right,
the hash of SIGNER_PK, whether SIGNATURE verifies under it, whether BODY_HASH is the body's, and bytes [127:0]. -/
structure SignedObj where
  formOk : Bool
  kind : BitVec 8
  signer : BitVec 8
  serial : BitVec 64
  svn : BitVec 16
  pkHash : BitVec 512
  sigOk : Bool
  bodyOk : Bool
  head : BitVec 1024
  deriving DecidableEq, Repr, Inhabited

/-- The body of an integrator configuration (R450): site records, the enable and the allowed peers of each Sloyth port,
DEBUG_PK_HASH, and whether MIG_CT is not zero. -/
structure ConfBody where
  sites : List SiteRec
  ports : List (Bool × List (BitVec 64))
  debugHash : BitVec 512
  mig : Bool
  deriving DecidableEq, Repr, Inhabited

/-- A repair that a self-test of cast-on asks for (R483, R490). -/
structure Found where
  kind : BitVec 4
  unit : BitVec 16
  slot : BitVec 8
  logical : BitVec 8
  index : BitVec 16
  deriving DecidableEq, Repr, Inhabited

/-- What a cast-on stage meets that the hub cannot know: the outcome of its physical checks. `failCode` is the code of
R478 of a check that fails, `failUnit` its stack, interface or channel, `warm` whether every item ran warm; `bankA` and
`bankB` tell whether the HMF bundle of each bank verifies, `recordOk` whether a flash copy of the repair records passes its
check, `confOk` whether the integrator configuration verifies; `lanes` the lanes repaired; `rates` the trained data rate in
MT/s of tier A (CO4), or of tiers B and C (CO5), 0 where none passes; `capacity` the capacity in 10^6 bytes of each
controller of those tiers, 0 where it fails; `found` the faults that need a repair; `image` the measured core firmware image;
`phy` the loop-back, PRBS and error results of the stacks. -/
structure StageObs where
  failCode : Option (BitVec 16)
  failUnit : BitVec 8
  warm : Bool
  bankA : Bool
  bankB : Bool
  recordOk : Bool
  confOk : Bool
  lanes : BitVec 16
  rates : List (BitVec 16)
  capacity : List (BitVec 32)
  found : List Found
  image : BitVec 512
  phy : List (BitVec 16 × Bool × Bool × BitVec 32)
  deriving DecidableEq, Repr, Inhabited

/-- One command of the block: a write or read of a register, an operation of a bus or protocol, an event, or a
step of one of the block's own engines. -/
inductive Instr where
  /-- POWER_ON_RESET (R33): POR_N goes low or VDD_AON leaves tolerance; everything volatile is reset and a cold cast-on follows from CO0. -/
  | powerOnReset
  /-- PERST (R33): PERST# goes low while POR_N is high; volatile state except the always-on counter is reset, key slots are zeroised and granules are marked needs-scrub. -/
  | perst
  /-- PERST_DEASSERT (R299): PERST# is released; cast-on starts from CO0 and PCIe link training starts within 20 ms. -/
  | perstDeassert
  /-- WARM_RESET (R36): A write of HUB_RESET_CTL with KEY 0xCA57 and WARM 1 triggers a warm reset, which is ignored while IN_PROGRESS and deferred at L4 or deeper. -/
  | warmReset (value : BitVec 32)
  /-- WARM_N (R33): WARM_N is held low for at least 1 µs and triggers a warm reset. -/
  | warmN
  /-- HMF_WATCHDOG_EXPIRY (R33): The HMF watchdog expires and triggers a warm reset. -/
  | hmfWatchdogExpiry
  /-- DEFERRED_WARM_RESET_START (R38): A warm reset deferred at shed level L4 or deeper starts once the level returns to L3 or shallower. -/
  | deferredWarmResetStart
  /-- WARM_RESET_RESUME (R38): A warm reset halted after step 5 at L5 resumes at step 6 when the level returns to L3 or shallower. -/
  | warmResetResume
  /-- DRAIN_TIMEOUT (R36): The 10 ms limit on in-flight counters expires in a warm or partition reset, and the reset proceeds. -/
  | drainTimeout (partition : Option (Fin 8))
  /-- RECALL_TIMEOUT (R35): A recalled modified or owned line is not returned within 1 ms and is marked poisoned at its home. -/
  | recallTimeout (site : Fin 4)
  /-- CAST_ON_STAGE_END (R473): A cast-on stage ends; HMF appends its stage report and starts the next stage, or stops on failure. -/
  | castOnStageEnd (obs : StageObs)
  /-- CAST_ON_RESUME (R475): A cast-on halted by shed level L4 or deeper resumes when the level returns to L3 or shallower. -/
  | castOnResume
  /-- TIME_SAMPLE (R30): The command captures the counters of the named clock domains on one strobe and replies with the counts. -/
  | timeSample (p : Pkt) (domains : List (BitVec 8))
  /-- ADD (R49): The scalar engine computes rd = ra + rb. -/
  | add (f : Fetch) (rd ra rb : BitVec 5) (rsv : BitVec 6)
  /-- SUB (R49): The scalar engine computes rd = ra − rb. -/
  | sub (f : Fetch) (rd ra rb : BitVec 5) (rsv : BitVec 6)
  /-- AND (R49): The scalar engine computes the bitwise AND of ra and rb. -/
  | and (f : Fetch) (rd ra rb : BitVec 5) (rsv : BitVec 6)
  /-- OR (R49): The scalar engine computes the bitwise OR of ra and rb. -/
  | or (f : Fetch) (rd ra rb : BitVec 5) (rsv : BitVec 6)
  /-- XOR (R49): The scalar engine computes the bitwise XOR of ra and rb. -/
  | xor (f : Fetch) (rd ra rb : BitVec 5) (rsv : BitVec 6)
  /-- SLL (R49): The scalar engine shifts ra left by rb[5:0]. -/
  | sll (f : Fetch) (rd ra rb : BitVec 5) (rsv : BitVec 6)
  /-- SRL (R49): The scalar engine shifts ra right logically by rb[5:0]. -/
  | srl (f : Fetch) (rd ra rb : BitVec 5) (rsv : BitVec 6)
  /-- SRA (R49): The scalar engine shifts ra right arithmetically by rb[5:0]. -/
  | sra (f : Fetch) (rd ra rb : BitVec 5) (rsv : BitVec 6)
  /-- SLT (R49): The scalar engine sets rd to 1 if ra < rb signed, else 0. -/
  | slt (f : Fetch) (rd ra rb : BitVec 5) (rsv : BitVec 6)
  /-- SLTU (R49): The scalar engine sets rd to 1 if ra < rb unsigned, else 0. -/
  | sltu (f : Fetch) (rd ra rb : BitVec 5) (rsv : BitVec 6)
  /-- MIN (R49): The scalar engine writes the signed minimum of ra and rb. -/
  | min (f : Fetch) (rd ra rb : BitVec 5) (rsv : BitVec 6)
  /-- MAX (R49): The scalar engine writes the signed maximum of ra and rb. -/
  | max (f : Fetch) (rd ra rb : BitVec 5) (rsv : BitVec 6)
  /-- MINU (R49): The scalar engine writes the unsigned minimum of ra and rb. -/
  | minu (f : Fetch) (rd ra rb : BitVec 5) (rsv : BitVec 6)
  /-- MAXU (R49): The scalar engine writes the unsigned maximum of ra and rb. -/
  | maxu (f : Fetch) (rd ra rb : BitVec 5) (rsv : BitVec 6)
  /-- MUL (R49): The scalar engine writes the low 64 bits of ra × rb. -/
  | mul (f : Fetch) (rd ra rb : BitVec 5) (rsv : BitVec 6)
  /-- MULHS (R49): The scalar engine writes the high 64 bits of the signed product. -/
  | mulhs (f : Fetch) (rd ra rb : BitVec 5) (rsv : BitVec 6)
  /-- MULHU (R49): The scalar engine writes the high 64 bits of the unsigned product. -/
  | mulhu (f : Fetch) (rd ra rb : BitVec 5) (rsv : BitVec 6)
  /-- DIVS (R50): The scalar engine divides signed, rounding toward zero, without ever faulting. -/
  | divs (f : Fetch) (rd ra rb : BitVec 5) (rsv : BitVec 6)
  /-- DIVU (R50): The scalar engine divides unsigned, without ever faulting. -/
  | divu (f : Fetch) (rd ra rb : BitVec 5) (rsv : BitVec 6)
  /-- REMS (R50): The scalar engine writes the signed remainder, which takes the sign of the dividend. -/
  | rems (f : Fetch) (rd ra rb : BitVec 5) (rsv : BitVec 6)
  /-- REMU (R50): The scalar engine writes the unsigned remainder. -/
  | remu (f : Fetch) (rd ra rb : BitVec 5) (rsv : BitVec 6)
  /-- ADDI (R51): The scalar engine adds the sign-extended immediate to ra. -/
  | addi (f : Fetch) (rd ra : BitVec 5) (imm : BitVec 14)
  /-- ANDI (R51): The scalar engine ANDs ra with the sign-extended immediate. -/
  | andi (f : Fetch) (rd ra : BitVec 5) (imm : BitVec 14)
  /-- ORI (R51): The scalar engine ORs ra with the sign-extended immediate. -/
  | ori (f : Fetch) (rd ra : BitVec 5) (imm : BitVec 14)
  /-- XORI (R51): The scalar engine XORs ra with the sign-extended immediate. -/
  | xori (f : Fetch) (rd ra : BitVec 5) (imm : BitVec 14)
  /-- SLLI (R51): The scalar engine shifts ra left by IMM[5:0]. -/
  | slli (f : Fetch) (rd ra : BitVec 5) (imm : BitVec 14)
  /-- SRLI (R51): The scalar engine shifts ra right logically by IMM[5:0]. -/
  | srli (f : Fetch) (rd ra : BitVec 5) (imm : BitVec 14)
  /-- SRAI (R51): The scalar engine shifts ra right arithmetically by IMM[5:0]. -/
  | srai (f : Fetch) (rd ra : BitVec 5) (imm : BitVec 14)
  /-- SLTI (R51): The scalar engine compares ra with the sign-extended immediate, signed. -/
  | slti (f : Fetch) (rd ra : BitVec 5) (imm : BitVec 14)
  /-- SLTUI (R51): The scalar engine compares ra with the sign-extended immediate, unsigned. -/
  | sltui (f : Fetch) (rd ra : BitVec 5) (imm : BitVec 14)
  /-- SETI (R52): The scalar engine writes IMM16 << 16H to rd, with all other bits 0. -/
  | seti (f : Fetch) (rd : BitVec 5) (h : BitVec 2) (rsv : BitVec 4) (imm : BitVec 16)
  /-- INSI (R52): The scalar engine replaces bits [16H+15:16H] of rd with IMM16. -/
  | insi (f : Fetch) (rd : BitVec 5) (h : BitVec 2) (rsv : BitVec 4) (imm : BitVec 16)
  /-- LOAD (R53): The scalar engine loads 1 to 8 bytes from stall memory or, through the L1 data cache, from a context address. -/
  | load (f : Fetch) (rd ra : BitVec 5) (sp sx : Bool) (sz : BitVec 2) (off : BitVec 14) (ecc : Ecc) (l1Parity : Bool) (media : MediaList)
  /-- STORE (R53): The scalar engine stores 1 to 8 bytes to stall memory or, writing through, to a context address. -/
  | store (f : Fetch) (rs ra : BitVec 5) (sp rsv : Bool) (sz : BitVec 2) (off : BitVec 14) (media : MediaList)
  /-- BRANCH_EQ (R54): The branch is taken when ra equals rb. -/
  | branchEq (f : Fetch) (rsv : Bool) (ra rb : BitVec 5) (off : BitVec 13)
  /-- BRANCH_NE (R54): The branch is taken when ra differs from rb. -/
  | branchNe (f : Fetch) (rsv : Bool) (ra rb : BitVec 5) (off : BitVec 13)
  /-- BRANCH_LT (R54): The branch is taken when ra < rb signed. -/
  | branchLt (f : Fetch) (rsv : Bool) (ra rb : BitVec 5) (off : BitVec 13)
  /-- BRANCH_GE (R54): The branch is taken when ra ≥ rb signed. -/
  | branchGe (f : Fetch) (rsv : Bool) (ra rb : BitVec 5) (off : BitVec 13)
  /-- BRANCH_LTU (R54): The branch is taken when ra < rb unsigned. -/
  | branchLtu (f : Fetch) (rsv : Bool) (ra rb : BitVec 5) (off : BitVec 13)
  /-- BRANCH_GEU (R54): The branch is taken when ra ≥ rb unsigned. -/
  | branchGeu (f : Fetch) (rsv : Bool) (ra rb : BitVec 5) (off : BitVec 13)
  /-- JUMP (R54): The scalar engine writes PC + 4 to rd and jumps PC-relative or register-relative. -/
  | jump (f : Fetch) (rd ra : BitVec 5) (off : BitVec 18)
  /-- ENQ (R55): The scalar engine copies four registers as a 32-byte command into the vector, matrix or DMA FIFO, stalling while that FIFO is full. -/
  | enq (f : Fetch) (eng : BitVec 2) (rsv1 : BitVec 3) (ra : BitVec 5) (rsv2 : BitVec 18)
  /-- SWAIT (R56): The scalar engine waits on a core semaphore for COUNT and then subtracts it. -/
  | swait (f : Fetch) (sem : BitVec 4) (rd : BitVec 5) (rsv : Bool) (count : BitVec 16)
  /-- SSIG (R56): The scalar engine adds COUNT to a core semaphore once its earlier stores are performed at CORE scope. -/
  | ssig (f : Fetch) (sem : BitVec 4) (rd : BitVec 5) (rsv : Bool) (count : BitVec 16)
  /-- SREAD (R56): The scalar engine reads a core semaphore's count into rd. -/
  | sread (f : Fetch) (sem : BitVec 4) (rd : BitVec 5) (rsv : Bool) (count : BitVec 16)
  /-- SEMAPHORE_GRANT (R45): In a core cycle, signals are applied and waiting engines are granted in the order scalar, vector, matrix, DMA. -/
  | semaphoreGrant (core : Fin 4000)
  /-- NOP (R57): The scalar engine does nothing; as a command packet, HMF replies at once. -/
  | nop (f : Fetch) (rd ra : BitVec 5) (imm : BitVec 12)
  /-- HALT (R57): The core ends its part of a launch once its FIFOs are empty, its engines are idle and its stores are performed. -/
  | halt (f : Fetch) (rd ra : BitVec 5) (imm : BitVec 12)
  /-- FENCE (R170): The scalar engine orders its own accesses with acquire, release or both at a scope. -/
  | fence (f : Fetch) (rd ra : BitVec 5) (imm : BitVec 12)
  /-- L1INV (R57): The scalar engine invalidates every line of its L1 data cache. -/
  | l1inv (f : Fetch) (rd ra : BitVec 5) (imm : BitVec 12)
  /-- CSRR (R60): The scalar engine reads a core status register into rd. -/
  | csrr (f : Fetch) (rd ra : BitVec 5) (imm : BitVec 12)
  /-- CSRW (R60): The scalar engine writes a core status register from ra. -/
  | csrw (f : Fetch) (rd ra : BitVec 5) (imm : BitVec 12)
  /-- TRAP (R57): The scalar engine faults with cause USER_TRAP and the code in IMM. -/
  | trap (f : Fetch) (rd ra : BitVec 5) (imm : BitVec 12)
  /-- WAITE (R57): The scalar engine waits until an engine's FIFO is empty and the engine is idle. -/
  | waite (f : Fetch) (rd ra : BitVec 5) (imm : BitVec 12)
  /-- ATOMIC_SWAP (R58): The scalar engine swaps a 4- or 8-byte context location and returns the old value. -/
  | atomicSwap (f : Fetch) (rd ra rb : BitVec 5) (sc : BitVec 3) (sz : Bool) (rsv : BitVec 5) (media : MediaList)
  /-- ATOMIC_ADD (R58): The scalar engine adds to a context location atomically and returns the old value. -/
  | atomicAdd (f : Fetch) (rd ra rb : BitVec 5) (sc : BitVec 3) (sz : Bool) (rsv : BitVec 5) (media : MediaList)
  /-- ATOMIC_AND (R58): The scalar engine ANDs a context location atomically. -/
  | atomicAnd (f : Fetch) (rd ra rb : BitVec 5) (sc : BitVec 3) (sz : Bool) (rsv : BitVec 5) (media : MediaList)
  /-- ATOMIC_OR (R58): The scalar engine ORs a context location atomically. -/
  | atomicOr (f : Fetch) (rd ra rb : BitVec 5) (sc : BitVec 3) (sz : Bool) (rsv : BitVec 5) (media : MediaList)
  /-- ATOMIC_XOR (R58): The scalar engine XORs a context location atomically. -/
  | atomicXor (f : Fetch) (rd ra rb : BitVec 5) (sc : BitVec 3) (sz : Bool) (rsv : BitVec 5) (media : MediaList)
  /-- MINS (R58): The scalar engine takes the signed minimum at a context location atomically. -/
  | mins (f : Fetch) (rd ra rb : BitVec 5) (sc : BitVec 3) (sz : Bool) (rsv : BitVec 5) (media : MediaList)
  /-- MAXS (R58): The scalar engine takes the signed maximum at a context location atomically. -/
  | maxs (f : Fetch) (rd ra rb : BitVec 5) (sc : BitVec 3) (sz : Bool) (rsv : BitVec 5) (media : MediaList)
  /-- ATOMIC_MINU (R58): The scalar engine takes the unsigned minimum at a context location atomically. -/
  | atomicMinu (f : Fetch) (rd ra rb : BitVec 5) (sc : BitVec 3) (sz : Bool) (rsv : BitVec 5) (media : MediaList)
  /-- ATOMIC_MAXU (R58): The scalar engine takes the unsigned maximum at a context location atomically. -/
  | atomicMaxu (f : Fetch) (rd ra rb : BitVec 5) (sc : BitVec 3) (sz : Bool) (rsv : BitVec 5) (media : MediaList)
  /-- CAS (R58): The scalar engine stores rb at a context location if the memory equals rd. -/
  | cas (f : Fetch) (rd ra rb : BitVec 5) (sc : BitVec 3) (sz : Bool) (rsv : BitVec 5) (media : MediaList)
  /-- VFADD (R67): The vector engine adds FP32 elements. -/
  | vfadd (core : Fin 4000) (ecc : Ecc)
  /-- VFSUB (R67): The vector engine subtracts FP32 elements. -/
  | vfsub (core : Fin 4000) (ecc : Ecc)
  /-- VFMUL (R67): The vector engine multiplies FP32 elements. -/
  | vfmul (core : Fin 4000) (ecc : Ecc)
  /-- VFMA (R67): The vector engine computes A × B + C in FP32 with one rounding. -/
  | vfma (core : Fin 4000) (ecc : Ecc)
  /-- VFMIN (R67): The vector engine takes the IEEE minimumNumber of the elements. -/
  | vfmin (core : Fin 4000) (ecc : Ecc)
  /-- VFMAX (R67): The vector engine takes the IEEE maximumNumber of the elements. -/
  | vfmax (core : Fin 4000) (ecc : Ecc)
  /-- VMOV (R67): The vector engine copies A bit for bit. -/
  | vmov (core : Fin 4000) (ecc : Ecc)
  /-- VIADD (R67): The vector engine adds INT32 elements, saturating when SAT is set. -/
  | viadd (core : Fin 4000) (ecc : Ecc)
  /-- VISUB (R67): The vector engine subtracts INT32 elements, saturating when SAT is set. -/
  | visub (core : Fin 4000) (ecc : Ecc)
  /-- VIMUL (R67): The vector engine multiplies INT32 elements, keeping the low 32 bits or saturating. -/
  | vimul (core : Fin 4000) (ecc : Ecc)
  /-- VIMIN (R67): The vector engine takes the signed INT32 minimum. -/
  | vimin (core : Fin 4000) (ecc : Ecc)
  /-- VIMAX (R67): The vector engine takes the signed INT32 maximum. -/
  | vimax (core : Fin 4000) (ecc : Ecc)
  /-- VAND (R67): The vector engine ANDs the elements bitwise. -/
  | vand (core : Fin 4000) (ecc : Ecc)
  /-- VOR (R67): The vector engine ORs the elements bitwise. -/
  | vor (core : Fin 4000) (ecc : Ecc)
  /-- VXOR (R67): The vector engine XORs the elements bitwise. -/
  | vxor (core : Fin 4000) (ecc : Ecc)
  /-- VSHL (R67): The vector engine shifts A left by B[4:0]. -/
  | vshl (core : Fin 4000) (ecc : Ecc)
  /-- VSHR (R67): The vector engine shifts A right logically by B[4:0]. -/
  | vshr (core : Fin 4000) (ecc : Ecc)
  /-- VSRA (R67): The vector engine shifts A right arithmetically by B[4:0]. -/
  | vsra (core : Fin 4000) (ecc : Ecc)
  /-- VSEL (R67): The vector engine selects A where C is non-zero, else B. -/
  | vsel (core : Fin 4000) (ecc : Ecc)
  /-- VCVT (R70): The vector engine converts elements between the type codes in IMM, rounding and saturating. -/
  | vcvt (core : Fin 4000) (ecc : Ecc)
  /-- RECIP (R71): VSF computes the reciprocal. -/
  | recip (core : Fin 4000) (ecc : Ecc)
  /-- RSQRT (R71): VSF computes the reciprocal square root. -/
  | rsqrt (core : Fin 4000) (ecc : Ecc)
  /-- SQRT (R71): VSF computes the square root, correctly rounded. -/
  | sqrt (core : Fin 4000) (ecc : Ecc)
  /-- EXP2 (R71): VSF computes 2 to the power x. -/
  | exp2 (core : Fin 4000) (ecc : Ecc)
  /-- LOG2 (R71): VSF computes the base-2 logarithm. -/
  | log2 (core : Fin 4000) (ecc : Ecc)
  /-- EXP (R71): VSF computes e to the power x. -/
  | exp (core : Fin 4000) (ecc : Ecc)
  /-- LN (R71): VSF computes the natural logarithm. -/
  | ln (core : Fin 4000) (ecc : Ecc)
  /-- TANH (R71): VSF computes the hyperbolic tangent. -/
  | tanh (core : Fin 4000) (ecc : Ecc)
  /-- SIGMOID (R71): VSF computes the logistic sigmoid. -/
  | sigmoid (core : Fin 4000) (ecc : Ecc)
  /-- GELU (R71): VSF computes GELU in its tanh form. -/
  | gelu (core : Fin 4000) (ecc : Ecc)
  /-- SIN (R71): VSF computes the sine, or NaN with INVALID beyond 4,096. -/
  | sin (core : Fin 4000) (ecc : Ecc)
  /-- COS (R71): VSF computes the cosine, or NaN with INVALID beyond 4,096. -/
  | cos (core : Fin 4000) (ecc : Ecc)
  /-- VRSUM (R67): The vector engine accumulates A into VD lane by lane, group 0 first. -/
  | vrsum (core : Fin 4000) (ecc : Ecc)
  /-- VRMAX (R67): The vector engine takes the running VFMAX of VD and A lane by lane. -/
  | vrmax (core : Fin 4000) (ecc : Ecc)
  /-- VHSUM (R68): The vector engine sums the 64 lanes of each group in a fixed tree into lane 0. -/
  | vhsum (core : Fin 4000) (ecc : Ecc)
  /-- VQUANT (R136): The vector engine quantizes FP32 tiles into tagged tiles, escalating by census and writing one census record per tile. -/
  | vquant (core : Fin 4000) (ecc : Ecc)
  /-- VDEQ (R149): The vector engine dequantizes tagged tiles into FP32 rows, faulting on an invalid header. -/
  | vdeq (core : Fin 4000) (ecc : Ecc)
  /-- MLOADW (R113): The matrix engine loads a stationary tile from stall memory into the shadow tile and arms it. -/
  | mloadw (core : Fin 4000) (ecc : Ecc)
  /-- MMAC (R104): The matrix engine swaps in an armed shadow tile and streams N vectors past the active tile into the accumulators. -/
  | mmac (core : Fin 4000) (ecc : Ecc)
  /-- COPY (R78): The DMA engine copies ROWS rows of ROW_BYTES bytes between stall memory and context addresses. -/
  | copy (core : Fin 4000) (ecc : Ecc) (media : MediaList)
  /-- COPY_FILL (R78): The DMA engine writes the 32-bit fill pattern into every row from the row's first byte. -/
  | copyFill (core : Fin 4000) (ecc : Ecc) (media : MediaList)
  /-- ENGINE_COMMAND_COMPLETE (R44): An engine command completes, its writes become visible to the core's engines and it adds SIG_CNT to its semaphore. -/
  | engineCommandComplete (core : Fin 4000) (eng : BitVec 2)
  /-- WRITE_REFUSAL (R519): A home refuses a write the cluster cache had already accepted, and the issuing context faults. -/
  | writeRefusal (core : Fin 4000) (dma : Bool) (addr : BitVec 48) (stream : Bool)
  /-- SWATCH_CHECK (R152): The vector engine recomputes a sampled product in FP32 and compares it with the array's sum. -/
  | swatchCheck (core : Fin 4000) (sum : Option (BitVec 32))
  /-- STRIKE_WINDOW_EXPIRY (R155): A strike leaves HUB_SWATCH_WINDOW and the physical core is no longer suspect. -/
  | strikeWindowExpiry (core : Fin 4000)
  /-- RD_SHARED (R211): A home accepts a read-to-cache request, snoops the owner and grants S or E. -/
  | rdShared (m : Msg) (dirErr : Bool) (media : MediaList)
  /-- RD_UNIQUE (R211): A home accepts a write-to-cache request, snoops the owner and sharers and grants E or M. -/
  | rdUnique (m : Msg) (dirErr : Bool) (media : MediaList)
  /-- UPGRADE (R211): A home accepts a request to write a held S or O line and grants M. -/
  | upgrade (m : Msg) (dirErr : Bool) (media : MediaList)
  /-- RD_ONCE (R212): A home serves a read without caching with DATA in state I. -/
  | rdOnce (m : Msg) (media : MediaList)
  /-- WR_FULL (R212): A home performs a full-line write without caching and answers CMP. -/
  | wrFull (m : Msg) (media : MediaList)
  /-- WR_PARTIAL (R212): A home merges a masked partial write and answers CMP. -/
  | wrPartial (m : Msg) (media : MediaList)
  /-- WB_DIRTY (R212): A home accepts a dirty write-back, or discards it when the sender is no longer the owner. -/
  | wbDirty (m : Msg) (media : MediaList)
  /-- EVICT_CLEAN (R212): A home removes the sender's sharer pointer and answers CMP. -/
  | evictClean (m : Msg) (media : MediaList)
  /-- ATOMIC (R217): A home or memory performs an atomic as one step and returns the old value in DATA. -/
  | atomic (m : Msg) (media : MediaList)
  /-- SNP_SHARED (R207): An agent answers a shared snoop from its line state. -/
  | snpShared (m : Msg)
  /-- SNP_UNIQUE (R207): An agent answers a unique snoop and leaves its copy in I. -/
  | snpUnique (m : Msg)
  /-- SNP_INV (R207): An agent invalidates its copy and returns any dirty data. -/
  | snpInv (m : Msg)
  /-- SNP_CURRENT (R207): An agent returns current dirty data and keeps its state. -/
  | snpCurrent (m : Msg)
  /-- SNP_RECALL (R207): An agent gives up its copy and returns any dirty data. -/
  | snpRecall (m : Msg)
  /-- SNP_RSP (R212): A home takes a snoop response without data and, once all are in, replies to the requester. -/
  | snpRsp (m : Msg) (media : MediaList)
  /-- SNP_DATA (R213): A home takes snooped data, writing it at home or forwarding it to the requester. -/
  | snpData (m : Msg) (media : MediaList)
  /-- GRANT (R206): A requester takes a grant without data, moves to M and sends ACK. -/
  | grant (m : Msg)
  /-- CMP (R206): A requester takes a completion, possibly a refusal, and its line is I. -/
  | cmp (m : Msg)
  /-- ACK (R196): A home takes the requester's acknowledgement and the line is no longer busy. -/
  | ack (m : Msg) (media : MediaList)
  /-- DATA (R206): A requester takes a data grant in the granted state and sends ACK when the state is not I. -/
  | data (m : Msg)
  /-- HOLD_TIME_END (R209): An agent's hold time after a grant ends and it answers the held snoop. -/
  | holdTimeEnd (cluster : Fin 200) (line : BitVec 42)
  /-- SNOOP_TIMEOUT (R219): A partner die leaves a snoop unanswered for 100 µs; the home completes as poisoned and HMF resets the site. -/
  | snoopTimeout (site : Fin 4) (line : BitVec 42)
  /-- PATROL (R237): A controller or base die reads each populated line once per 24 hours and writes corrected data back. -/
  | patrol (line : BitVec 42) (found : Option Media)
  /-- CONTROLLER_SLOT (R241): A controller moves to its next time-division slot and issues that slot's partition first. -/
  | controllerSlot (ctl : BitVec 6) (queued : List CtlReq) (room : BitVec 8) (refresh capped : Bool)
  /-- STACK_TEMPERATURE_REPORT (R243): A base die reports its stack temperature and the hub enters a higher throttle step if due. -/
  | stackTemperatureReport (stack : Fin 16) (temp : BitVec 8) (critical : Bool)
  /-- THROTTLE_STEP_DOWN (R244): After 10 ms at least 2 °C below the step entry, a stack moves down one throttle step. -/
  | throttleStepDown (stack : Fin 16)
  /-- STACK_CRITICAL (R244): A stack stays in step 5 for 100 ms and HMF raises the critical thermal event. -/
  | stackCritical (stack : Fin 16)
  /-- MIGRATE (R247): The migration agent copies a frame, mirrors writes, recalls lines, switches mappings and shoots down the old ones. -/
  | migrate (queue : BitVec 14) (index : BitVec 32) (media : MediaList)
  /-- HEAT_INTERVAL_END (R251): At each heat interval end, heat counts are halved and auto-tiering promotes and demotes pages. -/
  | heatIntervalEnd
  /-- CTX_CREATE (R255): HMF creates a context with the lowest free id and allocates its descriptor and segment table. -/
  | ctxCreate (p : Pkt) (pasid : BitVec 20) (pasidEn priv : Bool)
  /-- CTX_DESTROY (R335): The context's creation reference is released and it enters BIND_OFF. -/
  | ctxDestroy (p : Pkt) (ctx : BitVec 20)
  /-- CTX_QUERY (R336): HMF replies with a context's state, counts and traffic. -/
  | ctxQuery (p : Pkt) (ctx : BitVec 20)
  /-- CONTEXT_ABANDON (R337): HMF takes a context apart: stops cores, flushes queues, force-signals fences, unmaps and releases references. -/
  | contextAbandon (p : Pkt) (ctx : BitVec 20)
  /-- SEG_SET (R259): HMF validates and writes a segment descriptor, allocating a frame list for TARGET 0. -/
  | segSet (p : Pkt) (ctx : BitVec 20) (seg : BitVec 6) (desc : BitVec 256)
  /-- SEG_CLEAR (R260): HMF clears a segment and frees its frame list, shooting down TARGET 1 to 3 segments. -/
  | segClear (p : Pkt) (ctx : BitVec 20) (seg : BitVec 6)
  /-- MAP (R262): HMF fills frame entries of a segment after checking every frame, or maps nothing. -/
  | map (p : Pkt) (ctx : BitVec 20) (seg : BitVec 6) (first : BitVec 32) (frames : List (BitVec 64))
  /-- UNMAP (R271): HMF clears frame entries, raises GEN and shoots down cached translations before releasing the frames. -/
  | unmap (p : Pkt) (ctx : BitVec 20) (seg : BitVec 6) (first count : BitVec 32)
  /-- SHOOTDOWN_ACKNOWLEDGE (R271): A cluster acknowledges a shootdown once its requests under the old GEN have completed. -/
  | shootdownAcknowledge (cluster : Fin 200) (ctx : BitVec 20) (seg : BitVec 6)
  /-- GRANULE_BIND (R266): HMF binds granules to a partition, scrubbing any needs-scrub granule under the new key first. -/
  | granuleBind (p : Pkt) (addr : BitVec 48) (struct : Bool) (count : BitVec 32)
  /-- GRANULE_UNBIND (R267): HMF drops every cached copy of granules, clears OWNED and sets NEEDS_SCRUB. -/
  | granuleUnbind (p : Pkt) (addr : BitVec 48) (count : BitVec 32)
  /-- ATS_INVALIDATION_REQUEST (R275): The host port drops matching ATS entries, waits for their requests and sends the Invalidation Completion. -/
  | atsInvalidationRequest (tag : BitVec 16) (pasid : BitVec 22) (page : BitVec 52) (pages : BitVec 32)
  /-- TRANSLATION_COMPLETION (R274): The host port takes an ATS Translation Completion and issues the waiting access or faults the engine. -/
  | translationCompletion (pasid : BitVec 22) (page : BitVec 52) (pages : BitVec 16) (read write : Bool) (success : Bool) (tpage : BitVec 52)
  /-- BAR4_READ (R283): A host read through the BAR4 aperture is served as RD_ONCE for the window's partition. -/
  | bar4Read (offset : BitVec 36) (len : BitVec 13) (media : MediaList)
  /-- BAR4_WRITE (R283): A host write through BAR4 is served as WR_FULL or WR_PARTIAL, line by line. -/
  | bar4Write (offset : BitVec 36) (mask : BitVec 512) (data : BitVec 4096) (media : MediaList)
  /-- INBOUND_ATOMICOP (R283): A host AtomicOp through BAR4 runs at home or memory as a DEV-scope atomic. -/
  | inboundAtomicop (offset : BitVec 36) (wide : Bool) (op : HostAtomicOp) (operand compare : BitVec 64) (media : MediaList)
  /-- PCI_DB_TAIL (R306): A host doorbell write gives a queue its new producer index, or is discarded. -/
  | pciDbTail (queue : BitVec 14) (tail : BitVec 32)
  /-- HOST_READ_COMPLETION (R290): A completion to a hub read or AtomicOp arrives; an unsuccessful status faults the engine. -/
  | hostReadCompletion (who : BitVec 24) (iova : BitVec 47) (success : Bool) (data : BitVec 512)
  /-- COMPLETION_TIMEOUT (R290): A hub non-posted request gets no completion in time, an uncorrectable error that freezes the port. -/
  | completionTimeout (who : BitVec 24) (iova : BitVec 47)
  /-- INTERRUPT_DISABLE (R291): A configuration write changes Interrupt Disable and the interrupt condition is evaluated again. -/
  | interruptDisable (value : Bool)
  /-- PCI_INTX_STAT (R293): A host read of PCI_INTX_STAT completes only after every Deassert_INTA caused by earlier host writes. -/
  | pciIntxStat
  /-- UNCORRECTABLE_ERROR (R294): An AER uncorrectable error other than a poisoned TLP freezes the port. -/
  | uncorrectableError (status : BitVec 5)
  /-- POISONED_TLP (R294): A write, AtomicOp or completion with EP set is discarded and freezes the port. -/
  | poisonedTlp (completion : Option (BitVec 24 × BitVec 47))
  /-- SURPRISE_DOWN (R294): DL_Active is lost without a hot reset or link disable and the port freezes. -/
  | surpriseDown
  /-- PORT_RESET (R294): A PCIe hot reset, link disable or link down resets the host port link and freezes it. -/
  | portReset
  /-- HOT_REMOVAL (R294): PCIe REFCLK is lost while the link is down and the port freezes. -/
  | hotRemoval
  /-- D3HOT (R294): The function enters D3hot and the port freezes. -/
  | d3hot
  /-- FREEZE_RELEASE (R296): A PCI_FREEZE_REL write with the key checks the release conditions, writes held reports and unfreezes the port. -/
  | freezeRelease (key : BitVec 16) (release : Bool)
  /-- DL_ACTIVE (R299): The PCIe link reaches DL_Active and configuration space answers. -/
  | dlActive (rate : BitVec 3) (width : BitVec 5) (flit : Bool)
  /-- QUEUE_CREATE (R305): HMF fills a queue descriptor with the lowest free queue id, DISABLED. -/
  | queueCreate (p : Pkt) (ownerClass site : BitVec 2) (priv : Bool) (log2 cls : BitVec 8) (ctx : BitVec 20) (ring headAddr : BitVec 64)
  /-- QUEUE_ENABLE (R305): A DISABLED or ERROR queue becomes ENABLED and fetch and dispatch resume. -/
  | queueEnable (p : Pkt) (queue : BitVec 14)
  /-- QUEUE_DISABLE (R305): Fetch and dispatch stop; the queue is stopping until its dispatched descriptors complete. -/
  | queueDisable (p : Pkt) (queue : BitVec 14)
  /-- QUEUE_DISABLED (R305): The last dispatched descriptor of a stopping queue completes; it becomes DISABLED and QUEUE_DISABLE replies. -/
  | queueDisabled (queue : BitVec 14)
  /-- QUEUE_DESTROY (R335): The queue's creation reference is released and it enters BIND_OFF. -/
  | queueDestroy (p : Pkt) (queue : BitVec 14)
  /-- QUEUE_FETCH (R308): The hub fetches and copies up to 16 entries ahead of dispatch and advances HEAD. -/
  | queueFetch (queue : BitVec 14) (media : MediaList)
  /-- LAUNCH (R314): A LAUNCH is dispatched once its cores are free, checks its image and starts every core. -/
  | launch (queue : BitVec 14) (index : BitVec 32) (media : MediaList)
  /-- LAUNCH_RESERVE (R371): A LAUNCH that has waited 1 ms for cores reserves them. -/
  | launchReserve (queue : BitVec 14) (index : BitVec 32)
  /-- WORK_COPY (R317): The queue DMA agent copies rows between context addresses. -/
  | workCopy (queue : BitVec 14) (index : BitVec 32) (media : MediaList)
  /-- FILL (R317): The queue DMA agent fills rows with a repeated 32-bit pattern. -/
  | fill (queue : BitVec 14) (index : BitVec 32) (media : MediaList)
  /-- SIGNAL (R318): After every earlier descriptor completes, the hub applies the signal and reset entries to their fences. -/
  | signal (queue : BitVec 14) (index : BitVec 32)
  /-- WAIT (R318): A WAIT holds its queue until every fence entry is satisfied. -/
  | wait (queue : BitVec 14) (index : BitVec 32)
  /-- BARRIER (R319): A BARRIER completes when every earlier descriptor of its queue has completed. -/
  | barrier (queue : BitVec 14) (index : BitVec 32)
  /-- CENSUS_READ (R321): The queue agent copies census records selected by FILTER and writes the counts. -/
  | censusRead (queue : BitVec 14) (index : BitVec 32) (media : MediaList)
  /-- DESCRIPTOR_COMPLETE (R310): A work descriptor completes, DONE advances and the completion word and events are written. -/
  | descriptorComplete (queue : BitVec 14) (index : BitVec 32)
  /-- FENCE_CREATE (R322): HMF creates a fence at EPOCH 0 unsignalled and writes its mirror. -/
  | fenceCreate (p : Pkt) (owner : BitVec 20) (mirror : BitVec 64)
  /-- FENCE_DESTROY (R326): The fence is force-signalled and its driver reference released. -/
  | fenceDestroy (p : Pkt) (fence : BitVec 22)
  /-- FENCE_SIGNAL (R323): The driver signals a fence at an epoch, applied or dropped under the window rule. -/
  | fenceSignal (p : Pkt) (fence : BitVec 22) (epoch : BitVec 32)
  /-- FENCE_RESET (R323): The driver resets a fence: SIGNALLED cleared and EPOCH advanced by one. -/
  | fenceReset (p : Pkt) (fence : BitVec 22)
  /-- OBJ_RETAIN (R334): The host adds references to a context, queue or fence. -/
  | objRetain (p : Pkt) (kind : BitVec 8) (id count : BitVec 32)
  /-- OBJ_RELEASE (R334): The host releases references; an object at count 0 is destroyed. -/
  | objRelease (p : Pkt) (kind : BitVec 8) (id count : BitVec 32)
  /-- HUB_EVT_CTL (R329): A write enables an event ring, setting PROD and ACK to 0, or disables it and discards its held records. -/
  | hubEvtCtl (ring : Fin 16) (enable : Bool) (log2 : BitVec 5)
  /-- HUB_EVT_ACK (R329): The host acknowledges event records; held records are then written. -/
  | hubEvtAck (ring : Fin 16) (ack : BitVec 32)
  /-- PT_FAULT_CTL (R333): A write enables a partition's fault ring and sets its indices to 0. -/
  | ptFaultCtl (part : Fin 8) (enable : Bool)
  /-- PT_FAULT_ACK (R333): The host acknowledges fault records; siding records are then written first. -/
  | ptFaultAck (part : Fin 8) (ack : BitVec 32)
  /-- HUB_CMD_TAIL (R346): The host gives the command ring a new producer index, accepted or ignored. -/
  | hubCmdTail (tail : BitVec 32)
  /-- HUB_CMD_CTL (R349): A write enables the command ring with its size, or stops fetch. -/
  | hubCmdCtl (enable : Bool) (log2 : BitVec 4)
  /-- PACKET_FETCH (R347): HMF fetches and accepts a command packet from the ring while fewer than 64 lack a reply. -/
  | packetFetch (p : Pkt) (body : PktBody)
  /-- CLAIM (R350): A path claims the mailbox when OWNER is 0. -/
  | claim (path : Path)
  /-- RELEASE (R350): The owner frees the mailbox. -/
  | release (path : Path)
  /-- GO (R350): The owner submits the mailbox packet and HMF sets BUSY and accepts it. -/
  | go (path : Path) (objs : List (BitVec 64))
  /-- MAILBOX_RELEASE_TIMEOUT (R350): HMF releases a mailbox whose owner has written nothing for 10 s since its last reply. -/
  | mailboxReleaseTimeout
  /-- REG_STAGE (R354): HMF checks and stages values of RWT register fields in a transaction. -/
  | regStage (p : Pkt) (entries : List (BitVec 32 × Bool × BitVec 64))
  /-- TXN_BEGIN (R355): HMF opens a configuration transaction and returns its id. -/
  | txnBegin (p : Pkt) (idleMs : BitVec 32)
  /-- TXN_COMMIT (R358): HMF holds, checks, journals and applies the staged operations as one step. -/
  | txnCommit (p : Pkt)
  /-- TXN_ROLLBACK (R361): HMF discards a transaction's staged operations and frees its reserved ids. -/
  | txnRollback (p : Pkt)
  /-- TXN_QUERY (R355): HMF replies with a transaction's state and staged counts. -/
  | txnQuery (p : Pkt)
  /-- TXN_JOURNAL (R363): HMF replies with the last committed and cut-off commit ids of the previous power-on period. -/
  | txnJournal (p : Pkt)
  /-- TXN_IDLE_TIMEOUT (R355): A transaction reaches IDLE_MS since its last packet and HMF rolls it back. -/
  | txnIdleTimeout (txn : BitVec 32)
  /-- OFFLINE_CLEAR (R352): HMF removes an entry from the offline list. -/
  | offlineClear (p : Pkt) (index : BitVec 16) (addr : BitVec 64)
  /-- AUTOTIER_POOL_GRANT (R352): HMF adds owned, unmapped frames to the partition's auto-tier pool of a tier. -/
  | autotierPoolGrant (p : Pkt) (tier : BitVec 8) (frames : List (BitVec 64))
  /-- AUTOTIER_POOL_WITHDRAW (R352): HMF withdraws frames from the partition's auto-tier pool. -/
  | autotierPoolWithdraw (p : Pkt) (tier : BitVec 8) (frames : List (BitVec 64))
  /-- PARTITION_RESET (R384): HMF stops and resets a partition's cores, contexts, queues and caches while keeping its memory and tables. -/
  | partitionReset (p : Pkt)
  /-- PARTITION_LAYOUT (R368): HMF sets a partition's clusters and tier quotas. -/
  | partitionLayout (p : Pkt) (clusters : BitVec 200) (quotaA quotaB quotaC : BitVec 32)
  /-- INSTANCE_CREATE (R386): HMF makes a virtual instance from up to 64 contexts. -/
  | instanceCreate (p : Pkt) (tag : BitVec 64) (ctxs : List (BitVec 20))
  /-- INSTANCE_DESTROY (R389): HMF frees a frozen instance's record. -/
  | instanceDestroy (p : Pkt) (inst : BitVec 16)
  /-- INSTANCE_FREEZE (R388): Dispatch stops in the instance's queues; it becomes FREEZING, then FROZEN. -/
  | instanceFreeze (p : Pkt) (inst : BitVec 16) (timeout : BitVec 32)
  /-- INSTANCE_THAW (R388): A FROZEN or RESTORED instance becomes ACTIVE and dispatch resumes. -/
  | instanceThaw (p : Pkt) (inst : BitVec 16) (timeout : BitVec 32)
  /-- INSTANCE_FROZEN (R388): The last in-flight descriptor of a FREEZING instance completes; it becomes FROZEN and the freeze replies. -/
  | instanceFrozen (inst : BitVec 10)
  /-- INSTANCE_FREEZE_TIMEOUT (R388): TIMEOUT_MS passes before FROZEN; the freeze completes with ST_TIMEOUT. -/
  | instanceFreezeTimeout (inst : BitVec 10) (waiter : BitVec 8)
  /-- INSTANCE_SAVE (R390): HMF writes a frozen instance's state as an encrypted, authenticated blob. -/
  | instanceSave (p : Pkt) (inst : BitVec 16) (buf : BitVec 64) (bufBytes : BitVec 32)
  /-- INSTANCE_RESTORE (R392): HMF verifies a blob and rebuilds the instance with new ids and remapped frames. -/
  | instanceRestore (p : Pkt) (blob : BitVec 64) (blobBytes : BitVec 32) (frameMap : BitVec 64) (count : BitVec 32) (remap : BitVec 64) (host : BlobIn)
  /-- MISS_WINDOW_END (R377): A 100-cycle always-on window ends and a MISS event is raised when short slots exceed SLACK. -/
  | missWindowEnd
  /-- SITE_RESET (R413): A site is recalled, held in reset with zero credits and, unless barred, admitted again. -/
  | siteReset (p : Pkt) (site : BitVec 8)
  /-- SITE_ADMISSION_TIMEOUT (R397): Admission steps 2 to 8 pass 250 ms and the site fails with TIME. -/
  | siteAdmissionTimeout (site : Fin 4)
  /-- DECLARE (R402): The hub takes the die's four declaration messages and checks them. -/
  | declare (site : Fin 4) (decl : BitVec 256) (accepts : Option (BitVec 1))
  /-- SHED_ACK (R412): The hub takes a die's acknowledgement of a shed action. -/
  | shedAck (site : Fin 4) (level action : BitVec 8)
  /-- QUIESCE_TIMEOUT (R412): A die has not acknowledged QUIESCE within 10 ms and a SITE event is raised. -/
  | quiesceTimeout (site : Fin 4)
  /-- NOP_FRAME (R404): The hub takes a frame that carries only credits. -/
  | nopFrame (site : Fin 4) (crReq crSnp crRsp crDat : BitVec 8) (malformed : Bool)
  /-- MSG (R405): The site stop takes a message frame, checks credits and fields and forwards it. -/
  | msg (site : Fin 4) (f : DieFrame) (media : MediaList)
  /-- DOORBELL (R406): A partner die's doorbell applies TAIL to its own queue, or is discarded. -/
  | doorbell (site : Fin 4) (queue : BitVec 14) (tail : BitVec 32) (part : Fin 8) (crReq crSnp crRsp crDat : BitVec 8) (malformed : Bool)
  /-- APERTURE_TIMEOUT (R407): A die does not answer an aperture request in 100 µs; it completes ST_TIMEOUT and the site is reset. -/
  | apertureTimeout (site : Fin 4) (txn : BitVec 12)
  /-- SITE_LINK_LOSS (R413): The UCIe link of a site is lost and the site is reset. -/
  | siteLinkLoss (site : Fin 4)
  /-- LANE_REPAIR (R414): A module's redundant lanes are exhausted and the link retrains with fewer modules. -/
  | laneRepair (site : Fin 4) (modules : BitVec 3) (repaired : BitVec 32) (retrained : Bool)
  /-- RDCURR (R409): The stop maps a CXL RdCurr to RD_ONCE. -/
  | rdcurr (site : Fin 4) (tag : BitVec 12) (addr : BitVec 48) (media : MediaList)
  /-- RDSHARED (R409): The stop maps a CXL RdShared to RD_SHARED with NO_E. -/
  | rdshared (site : Fin 4) (tag : BitVec 12) (addr : BitVec 48) (media : MediaList)
  /-- RDANY (R409): The stop maps a CXL RdAny to RD_SHARED. -/
  | rdany (site : Fin 4) (tag : BitVec 12) (addr : BitVec 48) (media : MediaList)
  /-- RDOWN (R409): The stop maps a CXL RdOwn to RD_UNIQUE. -/
  | rdown (site : Fin 4) (tag : BitVec 12) (addr : BitVec 48) (media : MediaList)
  /-- RDOWNNODATA (R409): The stop maps a CXL RdOwnNoData to UPGRADE. -/
  | rdownnodata (site : Fin 4) (tag : BitVec 12) (addr : BitVec 48) (media : MediaList)
  /-- DIRTYEVICT (R409): The stop maps a CXL DirtyEvict to WB_DIRTY. -/
  | dirtyevict (site : Fin 4) (tag : BitVec 12) (addr : BitVec 48) (data : BitVec 512) (media : MediaList)
  /-- CLEANEVICT (R409): The stop maps a CXL CleanEvict to EVICT_CLEAN. -/
  | cleanevict (site : Fin 4) (tag : BitVec 12) (addr : BitVec 48) (data : BitVec 512)
  /-- CLEANEVICTNODATA (R409): The stop maps a CXL CleanEvictNoData to EVICT_CLEAN. -/
  | cleanevictnodata (site : Fin 4) (tag : BitVec 12) (addr : BitVec 48)
  /-- ITOMWR (R409): The stop maps a CXL ItoMWr to WR_FULL. -/
  | itomwr (site : Fin 4) (tag : BitVec 12) (addr : BitVec 48) (data : BitVec 512) (media : MediaList)
  /-- WRCUR (R409): The stop maps a CXL WrCur to WR_FULL. -/
  | wrcur (site : Fin 4) (tag : BitVec 12) (addr : BitVec 48) (data : BitVec 512) (media : MediaList)
  /-- WOWRINVF (R409): The stop maps a CXL WOWrInvF to WR_FULL. -/
  | wowrinvf (site : Fin 4) (tag : BitVec 12) (addr : BitVec 48) (data : BitVec 512) (media : MediaList)
  /-- WOWRINV (R409): The stop maps a CXL WOWrInv to WR_PARTIAL. -/
  | wowrinv (site : Fin 4) (tag : BitVec 12) (addr : BitVec 48) (data : BitVec 512) (mask : BitVec 64) (media : MediaList)
  /-- CXL_IO_MEMORY_REQUEST (R408): A CXL.io memory read or write from the die to a tier address is served as RD_ONCE, WR_FULL or WR_PARTIAL. -/
  | cxlIoMemoryRequest (site : Fin 4) (write : Bool) (line : BitVec 42) (parts : List (BitVec 64 × BitVec 512)) (media : MediaList)
  /-- SITE_GRANT_REQUEST (R410): The partition is added to the site's REQ_MASK. -/
  | siteGrantRequest (p : Pkt) (site : BitVec 8) (cxlCtx : BitVec 20)
  /-- SITE_GRANT_APERTURE (R410): The partition is added to REQ_MASK and made aperture owner. -/
  | siteGrantAperture (p : Pkt) (site : BitVec 8) (cxlCtx : BitVec 20)
  /-- SITE_GRANT_WITHDRAW (R410): The partition is removed from REQ_MASK and the aperture after the die's coherent lines are recalled. -/
  | siteGrantWithdraw (p : Pkt) (site : BitVec 8) (cxlCtx : BitVec 20)
  /-- SITE_POWER_SAMPLE (R411): HMF measures a site's power and sends POWER_LIMIT after 100 ms over or back within budget. -/
  | sitePowerSample (site : Fin 4) (watts : BitVec 10)
  /-- SITE_POWER_RESET (R411): A site stays over budget 1 s after POWER_LIMIT and is reset with reason POWER. -/
  | sitePowerReset (site : Fin 4)
  /-- SITE_TEST (R416): A write loops hub UCIe modules back in TEST state, or returns the site to OFF. -/
  | siteTest (site : Fin 4) (loopback : BitVec 4) (prbs : Bool)
  /-- SL_PORT_RESET (R441): A Sloyth port fails its flows, zeroises keys and buffers and restarts training. -/
  | slPortReset (p : Pkt) (port : BitVec 8)
  /-- SL_WINDOW_SET (R438): HMF writes an outbound or inbound window entry for the partition. -/
  | slWindowSet (p : Pkt) (desc : BitVec 256)
  /-- SL_WINDOW_CLEAR (R439): HMF clears a window entry; an inbound clear drains accepted requests and sends WIN_STATE closed. -/
  | slWindowClear (p : Pkt) (dir win : BitVec 8)
  /-- SL_REKEY (R430): HMF starts a rekey of a Sloyth port. -/
  | slRekey (p : Pkt) (port : BitVec 8)
  /-- REKEY_START (R430): Transmit SEQ reaches 2^47 or 24 hours pass and the hub starts a rekey. -/
  | rekeyStart (port : Fin 4) (day : Bool)
  /-- HOLD (R425): A HOLD block arrives; in service it is taken as link down and resets the port. -/
  | hold (port : Fin 4)
  /-- READY (R425): A READY block arrives and the port enters IN_SERVICE. -/
  | ready (port : Fin 4)
  /-- ACK_BLOCK (R423): An ACK block frees acknowledged packets from the replay buffer. -/
  | ackBlock (port : Fin 4) (seq : BitVec 64)
  /-- NAK (R423): A NAK block makes the sender resend from the named SEQ. -/
  | nak (port : Fin 4) (seq : BitVec 64)
  /-- CREDIT (R424): A CREDIT block returns REQ and RSP units. -/
  | credit (port : Fin 4) (req rsp : BitVec 16)
  /-- LPI (R440): An LPI block arrives from the peer. -/
  | lpi (port : Fin 4)
  /-- WAKE (R440): A WAKE block brings the port out of LPI. -/
  | wake (port : Fin 4)
  /-- LPI_ENTRY (R440): At L3 or L4 a port empty for 10 µs sends LPI and idles its lanes. -/
  | lpiEntry (port : Fin 4)
  /-- ACK_INTERVAL (R421): A 1 µs interval ends with unacknowledged peer packets held and the hub sends ACK or NAK. -/
  | ackInterval (port : Fin 4)
  /-- PACKET (R423): The receiver accepts an in-order packet whose tag verifies, or discards it and sends NAK. -/
  | packet (port : Fin 4) (k : SlPacket)
  /-- WRITE (R434): The receiving hub checks the window and performs a remote write line by line. -/
  | write (port : Fin 4) (src : Fin 8) (media : MediaList)
  /-- READ (R434): The receiving hub serves a remote read as RD_ONCE and sends READ_DATA. -/
  | read (port : Fin 4) (src : Fin 8) (media : MediaList)
  /-- REMOTE_ATOMIC (R434): The receiving hub runs a remote atomic at DEV scope and sends ATOMIC_DATA. -/
  | remoteAtomic (port : Fin 4) (src : Fin 8) (media : MediaList)
  /-- REMOTE_FENCE (R435): The receiving hub sends FENCE_ACK once every earlier request of the flow is performed. -/
  | remoteFence (port : Fin 4) (src : Fin 8)
  /-- WIN_STATE (R433): A window state message sets REMOTE_OPEN of the matching outbound windows. -/
  | winState (port : Fin 4)
  /-- REKEY_KEM (R430): The responder takes the rekey encapsulation key and answers with REKEY_ENCAP. -/
  | rekeyKem (port : Fin 4)
  /-- REKEY_ENCAP (R430): The initiator takes the rekey ciphertext and both derive the next epoch's keys. -/
  | rekeyEncap (port : Fin 4)
  /-- ERROR (R437): A refused remote request's ERROR faults the issuing context. -/
  | error (port : Fin 4)
  /-- READ_DATA (R437): The sending hub takes a remote read's data and completes the request. -/
  | readData (port : Fin 4)
  /-- ATOMIC_DATA (R437): The sending hub takes a remote atomic's old value and completes the request. -/
  | atomicData (port : Fin 4)
  /-- FENCE_ACK (R437): The sending hub takes a FENCE_ACK and completes the SYS releases waiting on the flow. -/
  | fenceAck (port : Fin 4)
  /-- REMOTE_TIMEOUT (R437): A READ, ATOMIC or FENCE has no answer in 10 ms and completes with ST_TIMEOUT. -/
  | remoteTimeout (port : Fin 4) (tag : BitVec 12)
  /-- PHY_LOCK (R425): A port's PHY locks on all 8 lanes, or retries after 200 ms. -/
  | phyLock (port : Fin 4) (locked : Bool)
  /-- QUALIFICATION_COMPLETE (R425): 10^12 PRBS31 bits are received and the port passes or restarts. -/
  | qualificationComplete (port : Fin 4) (errors : BitVec 64)
  /-- HELLO (R428): The hub takes the peer's serial, certificate chain, nonce, profile and variant. -/
  | hello (port : Fin 4) (serial : BitVec 64) (chainOk : Bool)
  /-- KEM (R428): The responder takes the ML-KEM-1024 encapsulation key. -/
  | kem (port : Fin 4)
  /-- ENCAP (R428): The initiator takes the ciphertext and responder signature and verifies them. -/
  | encap (port : Fin 4) (sigOk : Bool)
  /-- FINISH (R428): The responder verifies the initiator's signature and both derive the link keys. -/
  | finish (port : Fin 4) (sigOk : Bool)
  /-- BER_MEASUREMENT (R426): Each 10^12 bits received in service, a BER event is raised when the ratio exceeds 10^-5. -/
  | berMeasurement (port : Fin 4) (corrected uncorrectable : BitVec 40)
  /-- SLOYTH_LINK_LOSS (R441): A Sloyth link is lost and the port is reset. -/
  | sloythLinkLoss (port : Fin 4)
  /-- KEY_SLOT_BIND (R457): HMF fills a key slot with fresh bytes and binds it ACTIVE to the partition. -/
  | keySlotBind (p : Pkt) (slot : BitVec 8)
  /-- KEY_SLOT_DRAIN (R459): HMF refuses new requests, drains and drops transfers, drops cached lines and zeroises the partition's key. -/
  | keySlotDrain (p : Pkt)
  /-- KEY_DRAIN_TIMEOUT (R459): 10 ms pass with in-flight transfers and the drain drops them. -/
  | keyDrainTimeout (partition : Fin 8)
  /-- ATTEST_REPORT (R453): HMF builds and signs an attestation report over the measurements and the nonce. -/
  | attestReport (p : Pkt) (frag : Frag) (nonce : BitVec 256)
  /-- ATTEST_READ (R453): HMF returns up to 4,032 bytes of the last report or identity block. -/
  | attestRead (p : Pkt) (frag : Frag) (offset : BitVec 32)
  /-- ATTEST_IDENTITY (R453): HMF prepares the identity block. -/
  | attestIdentity (p : Pkt) (frag : Frag)
  /-- DEBUG_CHALLENGE (R469): HMF issues a 64-byte challenge for a debug level. -/
  | debugChallenge (p : Pkt) (level : BitVec 8)
  /-- DEBUG_RESPONSE (R469): HMF verifies a signed response and unlocks the debug level. -/
  | debugResponse (p : Pkt) (frag : Frag) (auth : BitVec 512) (sigOk : Bool)
  /-- CHALLENGE_LAPSE (R469): A debug challenge lapses after 60 s. -/
  | challengeLapse
  /-- DEBUG_LOCKOUT_END (R469): The 10-minute lockout after 8 failed responses ends. -/
  | debugLockoutEnd
  /-- LC_TRANSITION (R462): HMF verifies a life-cycle authority and blows the fuses of the transition. -/
  | lcTransition (p : Pkt) (frag : Frag) (obj : SignedObj) (fromSt target : BitVec 8) (root : BitVec 512) (rsv : Bool) (cut : Option (BitVec 16))
  /-- PROFILE_SET (R463): HMF fuses the behaviour profile. -/
  | profileSet (p : Pkt) (frag : Frag) (obj : SignedObj) (profile : BitVec 8)
  /-- FW_UPDATE (R451): HMF writes a verified HMF bundle or integrator configuration for the next cold cast-on. -/
  | fwUpdate (p : Pkt) (frag : Frag) (obj : SignedObj) (conf : ConfBody)
  /-- REPAIR_QUIESCE_RUN (R488): HMF stops dispatch to clusters with pending repairs, waits and makes the repairs. -/
  | repairQuiesceRun (p : Pkt) (timeout : BitVec 32)
  /-- REPAIR_QUIESCE_QUERY (R488): HMF replies with repair counts. -/
  | repairQuiesceQuery (p : Pkt) (timeout : BitVec 32)
  /-- SERVICE_QUERY_SUMMARY (R492): HMF replies with the repair summary. -/
  | serviceQuerySummary (p : Pkt) (first : BitVec 32)
  /-- SERVICE_QUERY_RECORDS (R492): HMF replies with repair record entries from FIRST. -/
  | serviceQueryRecords (p : Pkt) (first : BitVec 32)
  /-- SERVICE_QUERY_REPORTS (R492): HMF replies with the stage reports of the last four cast-ons. -/
  | serviceQueryReports (p : Pkt) (first : BitVec 32)
  /-- SERVICE_QUERY_PRESENTATION (R492): HMF replies with the presentation record. -/
  | serviceQueryPresentation (p : Pkt) (first : BitVec 32)
  /-- MARGIN_SAMPLE (R486): Every 10 s HMF samples each core's margin and retires or warns below threshold. -/
  | marginSample (core : Fin 4000) (margin : BitVec 10)
  /-- REPAIR (R487): A pending repair is made at its scope's quiesce point and recorded. -/
  | repair (kind : BitVec 4) (source : BitVec 3) (unit : BitVec 16) (slot logical : BitVec 8) (index : BitVec 16)
  /-- REPAIR_PENDING (R487): No quiesce point comes within 1 hour and a SERVICE event is raised. -/
  | repairPending (index : BitVec 8)
  /-- POWER_QUERY (R514): HMF replies with power, shed, clock-cap and coolant figures. -/
  | powerQuery (p : Pkt)
  /-- POWER_CONTROL_TICK (R500): Every 1 ms HMF compares power averages and the coolant limit with their limits and adjusts caps. -/
  | powerControlTick (pkg hub hbm : BitVec 12)
  /-- REGULATOR_ALERT (R500): A regulator current alert caps every cluster at ratio 32 within 10 µs. -/
  | regulatorAlert
  /-- DIE_TEMPERATURE_SAMPLE (R501): Every 1 ms each cluster's temperature adjusts its clock cap and may raise THERMAL events. -/
  | dieTemperatureSample (cluster : Fin 200) (temp : BitVec 16)
  /-- THERMTRIP (R501): A sensor reaches 115 °C; hardware asserts THERMTRIP_N and stops every PLL. -/
  | thermtrip
  /-- SENSOR_READ (R504): Every 10 ms the hub reads the coolant and store sensors and enters fail-safe on repeated failure. -/
  | sensorRead (sensor : Fin 4) (value : Option (BitVec 16))
  /-- FLOW_FAULT (R504): A tachometer reads 0 for 1 s at duty 20 % or more and the loop enters fail-safe. -/
  | flowFault (pump : Fin 2)
  /-- FAILSAFE_END (R504): Fail-safe ends 10 s after every fault has cleared. -/
  | failsafeEnd
  /-- LOOP_SETPOINT_UPDATE (R505): Every 100 ms the hub predicts power from queued work and sets the flow setpoint. -/
  | loopSetpointUpdate
  /-- PUMP_DUTY_UPDATE (R505): Every 10 ms the hub steps pump duty toward the setpoint and sets the valve. -/
  | pumpDutyUpdate (tach0 tach1 : BitVec 16)
  /-- RAIL_SAMPLE (R508): Every 1 µs the hub measures VDD_CORE and raises the shed level when a trigger holds. -/
  | railSample (drop : BitVec 8)
  /-- PWR_FAIL_N (R508): PWR_FAIL_N goes low and the shed level rises to at least L4. -/
  | pwrFailN (low : Bool)
  /-- SHED_LEVEL_FALL (R510): After 100 ms without a trigger of the current level, the level falls one step and its actions are undone. -/
  | shedLevelFall
  /-- SET_OFFSET (R513): The board controller sets the SMB BAR0 offset. -/
  | setOffset (offset : BitVec 32) (pec : Bool)
  /-- READ32 (R513): The board controller reads 4 bytes at the offset, which then advances. -/
  | read32
  /-- WRITE32 (R513): The board controller writes 4 bytes at the offset, which then advances. -/
  | write32 (value : BitVec 32) (pec : Bool)
  /-- REGISTER_WRITE (R10): A host write to a register without a row of its own acts by the field types. -/
  | registerWrite (config : Bool) (offset : BitVec 24) (bytes : BitVec 4) (value : BitVec 64)
  /-- POR_N_DEASSERT (R33): The board releases POR_N once groups 1 to 4 have been within tolerance for 1 ms, and the cold cast-on starts at CO0. -/
  | porNDeassert
  /-- SITE_LINK_UP (R397): The UCIe sideband and mainband of a site finish training at the negotiated rate and module count, and admission moves on to the declaration. -/
  | siteLinkUp (site : Fin 4) (rate modules : BitVec 3) (repaired : BitVec 32)
  /-- ADMISSION_STEP_TIMEOUT (R397): A per-step limit of admission expires (10 ms power-good, 100 ms link up, 50 ms declaration) and the site fails with POWER, TRAIN or DECLARE. -/
  | admissionStepTimeout (site : Fin 4) (powerGood : Bool)
  /-- TRANSMIT_EQUALISATION_COMPLETE (R425): Transmit equalisation with the peer finishes under CEI-112G and the port moves to PRBS qualification. -/
  | transmitEqualisationComplete (port : Fin 4)
  /-- REGULATOR_ALERT_CLEAR (R500): A regulator's PMB ALERT_N for its current limit clears, and the ratio-32 cap is removed 1 ms later. -/
  | regulatorAlertClear
  deriving DecidableEq, Repr, Inhabited

end Sys2Proof
end

