-- ==== Sys2Proof/Decode.lean ====
section
/-!
DEFINITION. The command a word of the opcode table spells. The table gives no row bits, so no word spells one.
-/
namespace Sys2Proof

/-- None: spec/opcode_table.json lists its rows without bits. -/
def decodeTableWord (_nbits _w : Nat) : Option Instr := none

end Sys2Proof
end

