-- ==== Sys2Proof/Config.lean ====
section
/-!
DEFINITION. The free values of the model: opaque constants without a body. Nothing can evaluate them and no
proof can prove a value of them; each is applied to the state's free-value counter (State.free) or to operands.
-/
namespace Sys2Proof.Config

/-- A 64-bit value the spec leaves open, one for each number of the free-value counter. -/
opaque free64 : Nat → BitVec 64
/-- A 32-bit value the spec leaves open, one for each number of the free-value counter. -/
opaque free32 : Nat → BitVec 32
/-- A line of bytes the spec leaves open. -/
opaque freeLine : Nat → BitVec 512
/-- A choice between two outcomes the spec allows. -/
opaque freeBool : Nat → Bool
/-- Hardware entropy: one byte of fresh random data for each number of the free-value counter. -/
opaque entropyByte : Nat → BitVec 8
/-- SHAKE256 over a byte string given as a number with its length in bytes, output of 32 bytes (ch. 15):
uninterpreted. -/
opaque shake256 : Nat → Nat → BitVec 256
/-- SHAKE256 with an output of 64 bytes: uninterpreted. -/
opaque shake512 : Nat → Nat → BitVec 512
/-- An SLH-DSA-SHAKE-256s signature of the unit's identity key, 29,792 bytes, over a message (R453): uninterpreted. -/
opaque identitySign : Nat → Nat
/-- The identity public key, the storage encapsulation key and the certificate chain of a unit, from its device unique
secret (R446, R453, R455): uninterpreted. -/
opaque identityKeys : Nat → Nat
/-- Key derivation, a tag or a signature over a message (ch. 14, ch. 15): uninterpreted bytes. -/
opaque cryptoBytes : Nat → Nat → BitVec 512
/-- AES-256-GCM under the instance migration key: ciphertext and tag of a body, from header, body and its length in
bytes: uninterpreted. -/
opaque gcmSeal : Nat → Nat → Nat → Nat
/-- Outside deterministic mode a special function may return any value inside the bound of R71: the candidate
the hardware proposes for an opcode and an operand. -/
opaque vsfCandidate : Nat → BitVec 32 → Nat → BitVec 32
/-- The flags a special function sets outside deterministic mode, beside INVALID and DIVZERO. -/
opaque vsfFlags : Nat → BitVec 32 → Nat → BitVec 6
/-- SIGMOID and GELU at an infinity: the spec states no value. -/
opaque vsfOpen : Nat → BitVec 32 → BitVec 32
/-- Whether 0 × ∞ plus a quiet NaN is invalid, which IEEE 754-2019 leaves to the implementation. -/
opaque fmaNanInvalid : Bool
/-- Whether an inexact conversion to an integer type sets INEXACT: the spec does not say. -/
opaque cvtIntInexact : Bool
/-- AES-256-XTS encryption under two keys, given as one number, of a unit at an address with its length in bytes, and
AES-256-CMAC under a key of a message with its length in bytes (R456): uninterpreted. -/
opaque xtsEncrypt : Nat → Nat → Nat → Nat → BitVec 512
opaque cmac : Nat → Nat → Nat → BitVec 128
/-- Check symbols of a code: their number, the bytes they cover, and those bytes (R234, R235): uninterpreted. -/
opaque checkSymbols : Nat → Nat → Nat → BitVec 128
/-- The set of a cache a line lies in: cache kind and line number. -/
opaque setHash : Nat → Nat → BitVec 64

end Sys2Proof.Config
end

