-- ==== Sys2Proof/Machine/Data.lean ====
section
/-!
DEFINITION. The named operations over the plain data of the state: sparse tables, byte memories, bit fields and
saturating counts.
-/
namespace Sys2Proof.Machine

/-! ### Bit fields (R8) -/

/-- name[hi:lo] of a little-endian word (R8). -/
def bits (v hi lo : Nat) : Nat := (v >>> lo) % 2 ^ (hi + 1 - lo)

/-- One bit of a word. -/
def bit (v i : Nat) : Bool := (v >>> i) % 2 = 1

/-- `v` placed at bit `lo` of a record, cut to `w` bits (R8). -/
def put (lo w v : Nat) : Nat := (v % 2 ^ w) <<< lo

/-- A Boolean as a one-bit field. -/
def b2n (b : Bool) : Nat := if b then 1 else 0

/-- `a` raised by `d`, saturating at the largest `w`-bit value. -/
def satAdd (w a d : Nat) : Nat := if a + d < 2 ^ w then a + d else 2 ^ w - 1

/-- Bytes `n` of a byte string held little-endian, from byte `i`. -/
def bytesAt (v i n : Nat) : Nat := (v >>> (8 * i)) % 2 ^ (8 * n)

/-- `n` low bits of `v` read as a two's-complement number, as a 64-bit word. -/
def sext (n v : Nat) : BitVec 64 := (BitVec.ofNat n v).signExtend 64

/-- The number of ones of the low `n` bits. -/
def popCount : Nat → Nat → Nat
  | 0, _ => 0
  | n + 1, v => v % 2 + popCount n (v / 2)

/-! ### Sparse tables -/

/-- The entry of key `k`. -/
def kget {α : Type} (k : Nat) : KV α → Option α
  | [] => none
  | (j, v) :: t => if j = k then some v else kget k t

/-- Sets the entry of key `k`, keeping the keys strictly rising. -/
def kset {α : Type} (k : Nat) (v : α) : KV α → KV α
  | [] => [(k, v)]
  | (j, w) :: t => if j = k then (k, v) :: t else if k < j then (k, v) :: (j, w) :: t else (j, w) :: kset k v t

/-- Removes the entry of key `k`. -/
def kdel {α : Type} (k : Nat) : KV α → KV α
  | [] => []
  | (j, w) :: t => if j = k then kdel k t else (j, w) :: kdel k t

/-- The keys strictly rise. -/
def kwf {α : Type} : KV α → Bool
  | [] => true
  | [_] => true
  | (a, _) :: (b, w) :: t => decide (a < b) && kwf ((b, w) :: t)

/-- Applies a function to every entry. -/
def kmap {α : Type} (f : Nat → α → α) (m : KV α) : KV α := m.map fun p => (p.1, f p.1 p.2)

/-- Keeps the entries that meet a test. -/
def kfilter {α : Type} (f : Nat → α → Bool) (m : KV α) : KV α := m.filter fun p => f p.1 p.2

/-- The number of entries that meet a test. -/
def kcount {α : Type} (f : Nat → α → Bool) (m : KV α) : Nat := (kfilter f m).length

/-- The lowest number from `i` that is no key, searching `fuel` numbers. -/
def kfree {α : Type} (m : KV α) : Nat → Nat → Option Nat
  | 0, _ => none
  | fuel + 1, i => if (kget i m).isNone then some i else kfree m fuel (i + 1)

/-! ### Byte memories -/

/-- What a byte that no entry lists reads as. DESIGN CHOICE (log 1): 0. -/
def memDefault : Byte := 0

/-- One byte. -/
def mget (m : Mem) (a : Nat) : Byte := (kget a m).getD memDefault

/-- Writes one byte, keeping the canonical form. -/
def mset (m : Mem) (a : Nat) (b : Byte) : Mem := if b = memDefault then kdel a m else kset a b m

/-- The canonical form: addresses strictly rising, no entry equal to the default. -/
def Memory.wf (m : Mem) : Bool := kwf m && m.all fun c => c.2 != memDefault

/-- `n` bytes from `a`, little-endian (R8). -/
def mread (m : Mem) (a : Nat) : Nat → Nat
  | 0 => 0
  | n + 1 => (mget m a).toNat + 256 * mread m (a + 1) n

/-- Writes the low `n` bytes of `v` from `a`, little-endian (R8). -/
def mwrite (m : Mem) (a : Nat) : Nat → Nat → Mem
  | 0, _ => m
  | n + 1, v => mwrite (mset m a (BitVec.ofNat 8 v)) (a + 1) n (v / 256)

/-- Writes byte i of `v` for every mask bit i of the `n` low ones (R203, WR_PARTIAL). -/
def mwriteMask (m : Mem) (a : Nat) : Nat → Nat → Nat → Mem
  | 0, _, _ => m
  | n + 1, mask, v =>
    mwriteMask (if mask % 2 = 1 then mset m a (BitVec.ofNat 8 v) else m) (a + 1) n (mask / 2) (v / 256)

/-- Drops every byte of [a, a + n). -/
def mdrop (m : Mem) (a n : Nat) : Mem := m.filter fun c => c.1 < a || a + n ≤ c.1

/-- The bytes `new` where `mask` is set, else `old`, over `n` bytes. -/
def mergeBytes : Nat → Nat → Nat → Nat → Nat
  | 0, _, _, _ => 0
  | n + 1, mask, new, old =>
    (if mask % 2 = 1 then new % 256 else old % 256) + 256 * mergeBytes n (mask / 2) (new / 256) (old / 256)

/-- A mask of `n` ones from bit `i`. -/
def maskFrom (i n : Nat) : Nat := (2 ^ n - 1) <<< i

end Sys2Proof.Machine
end

