-- ==== Sys2Proof/Machine/CoreState.lean ====
section
/-!
DEFINITION. The state of one compute core (R40 to R93, R95, R148) and of one cluster's cache (R173, R189, R269).
-/
namespace Sys2Proof.Machine

/-- The four engines of a core, with their codes in fault records (R331). -/
inductive Eng where
  | scalar | vector | matrix | dma
  deriving DecidableEq, Repr, Inhabited

/-- One command engine: its FIFO of 32-byte commands, the command that runs, and the commands whose effect is
made and whose completion is still to come (R40 to R44). -/
structure EngSt where
  /-- waiting commands, head first; at most 32 -/
  fifo : List (BitVec 256) := []
  /-- the command at the head has passed validation and waits for its semaphore -/
  checked : Bool := false
  /-- the granted command, whose effect is still to be made -/
  granted : Option (BitVec 256) := none
  /-- commands whose effect is made, oldest first, which have not completed -/
  done : List (BitVec 256) := []
  /-- line pieces a waiting COPY has already moved -/
  pos : Nat := 0
  /-- bytes of an aligned 8-byte source unit that a COPY has read and not yet written: how many, and their value (R165) -/
  carry : Nat × Nat := (0, 0)
  /-- commands whose effect is made, and commands completed, since the launch -/
  issued : Nat := 0
  finished : Nat := 0
  deriving DecidableEq, Repr, Inhabited

/-- What the scalar engine is blocked on (R40, R47, R56, R57). -/
inductive Block where
  | enq (eng : Nat)
  | swait (sem cnt : Nat)
  | waite (eng : Nat)
  | halt
  deriving DecidableEq, Repr, Inhabited

/-- A stationary tile register (R95): element codes by 32k + m, scale codes by m, and the format. -/
structure Tile where
  w : KV Nat := []
  s : KV Nat := []
  k : Nat := 0
  m : Nat := 0
  fmt : Nat := 0
  deriving DecidableEq, Repr, Inhabited

/-- A swatch check in hand (R151, R152): the operands captured for one pair (n, m). -/
structure Swatch where
  n : Nat
  m : Nat
  /-- dequantized streamed values and stationary values -/
  a : List Rat
  w : List Rat
  /-- the array's exact sum -/
  d : Rat
  /-- every value, product and sum is finite -/
  finite : Bool
  deriving DecidableEq, Repr, Inhabited

/-- One core. -/
structure Core where
  /-- a kernel runs on the core -/
  run : Bool := false
  /-- program counter, a byte offset into instruction memory -/
  pc : Nat := 0
  codeSize : Nat := 0
  /-- instruction memory, bytes (R86) -/
  imem : Mem := []
  /-- g1 to g31; an unlisted register reads 0 (R48, R90) -/
  g : KV W64 := []
  /-- core semaphores S0 to S15 (R43) -/
  sems : KV Nat := []
  vflags : BitVec 6 := 0
  accSat : Bool := false
  /-- vector registers of 256 bytes -/
  vregs : KV (BitVec 2048) := []
  vec : EngSt := {}
  mtx : EngSt := {}
  dma : EngSt := {}
  blk : Option Block := none
  /-- stall memory, bytes (R81) -/
  stall : Mem := []
  /-- stall words that carry a saturation mark (R148) -/
  marks : KV Bool := []
  /-- vector registers that carry a saturation mark (R148) -/
  vmarks : KV Bool := []
  /-- L1 data cache: device line address to clean data (R85) -/
  l1 : KV LineData := []
  active : Tile := {}
  shadow : Tile := {}
  armed : Bool := false
  /-- FMT_W of the last MLOADW that reached the head since launch (R101) -/
  lastFmt : Option Nat := none
  eccStall : Nat := 0
  eccL1 : Nat := 0
  ctx : Nat := 0
  part : Fin 8 := 0
  det : Bool := false
  /-- launch the core runs for: 2^32 × queue + index -/
  link : Nat := 0
  /-- index of the core in its launch, g2 of R90 -/
  index : Nat := 0
  cores : Nat := 0
  startCount : Nat := 0
  /-- SEQ of the next VQUANT tile (R146) -/
  seq : Nat := 0
  /-- context of the previous kernel on the core, for KEEP_STALL (R90) -/
  prevCtx : Option Nat := none
  /-- a fault stopped the previous kernel, so stall memory must be zeroed (R92) -/
  dirty : Bool := false
  /-- core translation cache, most recently used first (R269) -/
  tlb : List Nat := []
  /-- the array runs the launch in chain mode (R118) -/
  chain : Bool := false
  /-- checks selected and not yet evaluated, oldest first (R151) -/
  swatch : List Swatch := []
  /-- swatch checks done and abandoned since cast-on (R156) -/
  swDone : Nat := 0
  swAband : Nat := 0
  deriving DecidableEq, Repr, Inhabited

/-- One sector of a cluster cache (R163, R189, R194, R218). -/
structure CLine where
  st : Nat            -- 0 I, 1 S, 2 E, 3 O, 4 M
  stream : Bool
  data : LineData
  poison : Bool := false
  /-- bytes written since poisoned data arrived (R218) -/
  written : BitVec 64 := 0
  /-- fill epoch of a STREAM line (R173) -/
  epoch : BitVec 16 := 0
  /-- the hold time of R209 runs -/
  hold : Bool := false
  /-- the access the grant was asked for that is still to be made: 0 none, 1 any, 2 a write (R209) -/
  due : Nat := 0
  /-- the read that filled the line found it uncorrectable, and no engine has consumed it yet (R238) -/
  found : Bool := false
  deriving DecidableEq, Repr, Inhabited

/-- One cluster: its cache, its epoch and its translation-cache counts. -/
structure Cluster where
  lines : KV CLine := []
  epoch : BitVec 16 := 0
  advances : Nat := 0
  /-- next line slot of the sweep (R173) -/
  slot : Nat := 0
  /-- requests of the cluster in flight: line to request code (R205) -/
  reqs : KV Nat := []
  /-- the cluster translation cache, most recently used first (R269) -/
  tlb : List Nat := []
  misses : Nat := 0
  shoots : Nat := 0
  deriving DecidableEq, Repr, Inhabited

end Sys2Proof.Machine
end

