-- ==== Sys2Proof/Machine/ObjState.lean ====
section
/-!
DEFINITION. The state of homes and tiers (ch. 6, 7), contexts and segments (ch. 8), queues, fences and rings
(ch. 10), command paths and transactions (ch. 11).
-/
namespace Sys2Proof.Machine

/-! ### Homes (R196 to R200, R218) -/

/-- A directory entry (R198, R199). No owner: SH. An owner with `ow` false: EX; true: OW. -/
structure Dir where
  owner : Option Nat := none
  ow : Bool := false
  sharers : List Nat := []
  bcast : Bool := false
  /-- stamp of the last use, for R200 -/
  use : Nat := 0
  deriving DecidableEq, Repr, Inhabited

/-- Why a home runs a transaction on a line: a request, the eviction of its entry, the reset of a site, a recall from every
holder, or a request whose requester is gone. -/
inductive Recall where
  | request | evict (forLine : Nat) | site (n : Nat) | hub | gone
  deriving DecidableEq, Repr, Inhabited

/-- What the requests of a line that is not busy wait for: a free directory entry, with the line being evicted for it if one
has been chosen (R200); the end of a page's recalls (R247); the end of a stack's self-refresh (R243); or that of a change
that holds the granule (R359). -/
inductive Hold where
  | entry (victim : Option Nat) | page | asleep | held
  deriving DecidableEq, Repr, Inhabited

/-- The transaction that keeps a line busy (R196). -/
structure HomeTx where
  req : Msg
  why : Recall := .request
  /-- agents whose snoop answer is awaited -/
  waiting : List Nat := []
  /-- TXN of the snoops -/
  snpTxn : BitVec 12 := 0
  /-- data an answer returned, and whether it is poisoned -/
  got : Option (LineData × Bool) := none
  /-- states the answers leave: agent to state code -/
  left : KV Nat := []
  /-- the UPGRADE keeps its copy (R211) -/
  keep : Bool := false
  /-- the reply is sent and its ACK awaited; the state granted -/
  ackOf : Option LSt := none
  /-- the holders are unknown, so that any of them may return data (R221) -/
  unknown : Bool := false
  deriving DecidableEq, Repr, Inhabited

/-- One line at its home. -/
structure Line where
  dir : Option Dir := none
  tx : Option HomeTx := none
  queue : List Msg := []
  hold : Option Hold := none
  poison : Bool := false
  deriving DecidableEq, Repr, Inhabited

/-- A 128-byte frame of a memory-side cache (R230): its way, and its two sectors, each dirty or clean where it is valid. -/
structure MscFrame where
  way : Nat
  lo : Option Bool := none
  hi : Option Bool := none
  /-- stamp of the last use -/
  use : Nat := 0
  deriving DecidableEq, Repr, Inhabited

/-- An answer that waits for the agent that asked: status, data, poison. -/
structure Ans where
  /-- ST_ code, or 0x100 for an integrity failure -/
  status : Nat
  data : LineData
  poison : Bool
  /-- the poison was found by the read that this answers (R238) -/
  found : Bool := false
  deriving DecidableEq, Repr, Inhabited

/-- A key slot (R457): 0 EMPTY, 1 ACTIVE, 2 DRAINING. -/
structure KeySlot where
  state : Nat := 0
  part : Nat := 0
  bindCount : Nat := 0
  /-- the 96 bytes of the key, in the tack room only -/
  key : Nat := 0
  deriving DecidableEq, Repr, Inhabited

/-- A page ownership entry (R264). -/
structure Gran where
  owner : Fin 8 := 0
  owned : Bool := false
  needsScrub : Bool := true
  inMotion : Bool := false
  struct : Bool := false
  hub : Bool := false
  keySlot : Fin 8 := 0
  mapcount : Nat := 0
  /-- the key its lines were last all sealed under, by its number (R456, R460) -/
  sealNo : Nat := 0
  deriving DecidableEq, Repr, Inhabited

/-- One entry of the offline list (R240). -/
structure Offline where
  granule : Nat
  reason : Nat
  seconds : Nat
  deriving DecidableEq, Repr, Inhabited

/-! ### Contexts and segments (R256 to R261) -/

structure Segment where
  r : Bool
  w : Bool
  x : Bool
  stream : Bool
  fine : Bool
  auto : Bool
  frame1g : Bool
  target : Nat
  floor : Nat
  gen : BitVec 16
  refc : Nat
  base : Nat
  len : Nat
  tgt : Nat
  list : Nat
  /-- valid frame entries: page to frame address (R261) -/
  frames : KV Nat
  deriving DecidableEq, Repr, Inhabited

structure Ctx where
  part : Fin 8
  /-- 0 ACTIVE, 1 LOST, 2 BIND_OFF (R257) -/
  state : Nat := 0
  cause : Nat := 0
  refc : Nat := 1
  /-- references of OBJ_RETAIN (R334) -/
  held : Nat := 0
  /-- the creation reference is still held -/
  created : Bool := true
  lostFaults : Nat := 0
  pasid : Nat := 0
  pasidEn : Bool := false
  priv : Bool := false
  /-- addresses of the descriptor and of the segment table (R255) -/
  desc : Nat := 0
  segTable : Nat := 0
  segs : KV Segment := []
  launches : Nat := 0
  coreCycles : Nat := 0
  bytesRead : Nat := 0
  bytesWritten : Nat := 0
  /-- a CONTEXT_ABANDON runs: its step (R337); 0 none, 9 ended -/
  abandon : Nat := 0
  /-- the packet it replies to -/
  abandonFor : Option Pkt := none
  /-- virtual instance that owns the context (R386) -/
  inst : Option Nat := none
  deriving DecidableEq, Repr, Inhabited

/-! ### Queues (R304 to R309) -/

/-- A fetched descriptor: its index and its 64 bytes (R308). -/
structure Desc where
  index : BitVec 32
  word : BitVec 512
  deriving DecidableEq, Repr, Inhabited

/-- A dispatched, incomplete descriptor (R309). -/
structure Flight where
  index : BitVec 32
  word : BitVec 512
  /-- its own effects are performed, with this status -/
  done : Option Nat := none
  /-- statuses of the wait entries met so far: entry number to status (R318) -/
  met : KV Nat := []
  /-- progress of a transfer, in line pieces -/
  pos : Nat := 0
  /-- segments of the owner that the descriptor addresses (R334) -/
  segs : List Nat := []
  /-- its status, once the report writes it still waits for are answered (R310, R522) -/
  ending : Option Nat := none
  deriving DecidableEq, Repr, Inhabited

structure Queue where
  part : Fin 8
  /-- 0 DISABLED, 1 ENABLED, 2 ERROR, 3 BIND_OFF -/
  state : Nat := 0
  ownerClass : Nat := 0
  site : Nat := 0
  privileged : Bool := false
  log2 : Nat := 6
  cls : Nat := 2
  ctx : Nat := 0
  ring : Nat := 0
  headAddr : Nat := 0
  head : BitVec 32 := 0
  done : BitVec 32 := 0
  tail : BitVec 32 := 0
  refc : Nat := 1
  held : Nat := 0
  created : Bool := true
  errIndex : BitVec 32 := 0
  errStatus : Nat := 0
  staleDb : Nat := 0
  completed : Nat := 0
  /-- address of the descriptor (R255) -/
  desc : Nat := 0
  /-- fetched, not dispatched (at most 16) -/
  fetched : List Desc := []
  /-- dispatched, incomplete (at most 64) -/
  flight : List Flight := []
  /-- completed out of order: indices at or above DONE -/
  finished : KV Bool := []
  /-- QUEUE_DISABLE runs (R305): the packet that waits for it -/
  stopping : Option Pkt := none
  /-- always-on count since which its next descriptor waits for cores (R371) -/
  since : Option Nat := none
  deriving DecidableEq, Repr, Inhabited

/-! ### Fences (R322) -/

structure Fence where
  part : Fin 8
  signalled : Bool := false
  abandoned : Bool := false
  bindOff : Bool := false
  owner : Nat := 0
  epoch : BitVec 32 := 0
  refc : Nat := 1
  held : Nat := 0
  created : Bool := true
  dropped : Nat := 0
  waiters : Nat := 0
  mirror : Nat := 0
  deriving DecidableEq, Repr, Inhabited

/-! ### Event and fault rings (R327 to R333) -/

/-- An event record before its SEQ and PHASE are known (R327). -/
structure EvRec where
  kind : Nat
  part : Nat
  hub : Bool
  domain : Nat
  count : Nat
  /-- bytes [31:16] -/
  payload : Nat
  deriving DecidableEq, Repr, Inhabited

structure EvRing where
  base : Nat := 0
  enable : Bool := false
  log2 : Nat := 0
  prod : BitVec 32 := 0
  ack : BitVec 32 := 0
  overflow : Bool := false
  lost : Nat := 0
  /-- records held on die while the ring is full (at most 256) -/
  held : List EvRec := []
  /-- records discarded since the last OVERFLOW record -/
  gone : Nat := 0
  deriving DecidableEq, Repr, Inhabited

/-- A fault record before PHASE and FROM_SIDING are known (R331). -/
structure FaultRec where
  cause : Nat
  engine : Nat
  first : Bool
  vaValid : Bool := false
  paValid : Bool := false
  ctx : Nat
  part : Nat
  core : Nat := 0xFFFF
  segment : Nat := 0
  pc : Nat := 0
  domain : Nat := 1
  count : Nat := 0
  va : Nat := 0
  pa : Nat := 0
  /-- bytes [63:48] -/
  detail : Nat := 0
  deriving DecidableEq, Repr, Inhabited

structure FaultRing where
  base : Nat := 0
  enable : Bool := false
  prod : BitVec 32 := 0
  ack : BitVec 32 := 0
  siding : List FaultRec := []
  overflow : Bool := false
  droppedFirst : Nat := 0
  deriving DecidableEq, Repr, Inhabited

/-- A report write that a frozen port holds (R295). -/
inductive Held where
  | event (ring : Nat) (r : EvRec)
  | fault (part : Nat) (r : FaultRec) (fromSiding : Bool)
  | write (addr len val : Nat)
  /-- a report write to a context address in host space, by its requester code, and its length -/
  | posted (k len : Nat)
  deriving DecidableEq, Repr, Inhabited

/-! ### Launches (R314 to R316) -/

structure Launch where
  queue : Nat
  index : BitVec 32
  part : Fin 8
  ctx : Nat
  first : Nat
  count : Nat
  report : Nat
  census : Nat
  censusBytes : Nat
  written : Nat := 0
  dropped : Nat := 0
  /-- a census or report write of the launch faulted (R522) -/
  badWrite : Bool := false
  start : Nat := 0
  finish : Nat := 0
  coreCycles : Nat := 0
  swatch : Nat := 0
  faulted : Bool := false
  /-- cores still running -/
  left : Nat := 0
  deriving DecidableEq, Repr, Inhabited

/-! ### Command paths and transactions (R340 to R363) -/

/-- A packet accepted and not yet replied to. -/
structure Accepted where
  pkt : Pkt
  opcode : Nat
  /-- the objects of R357 that it names -/
  objs : List Nat := []
  deriving DecidableEq, Repr, Inhabited

structure CmdRing where
  base : Nat := 0
  enable : Bool := false
  /-- ENABLE was written 0 and fetched packets lack a reply (R349) -/
  closing : Bool := false
  log2 : Nat := 0
  head : BitVec 32 := 0
  done : BitVec 32 := 0
  tail : BitVec 32 := 0
  overrun : Bool := false
  staleTail : Nat := 0
  doneAddr : Nat := 0
  /-- replies written at indices at or above DONE -/
  replied : KV Bool := []
  deriving DecidableEq, Repr, Inhabited

structure Mailbox where
  /-- 0 free, 1 host, 2 board controller -/
  owner : Nat := 0
  busy : Bool := false
  done : Bool := false
  /-- the 4 KiB buffer, bytes -/
  buf : Mem := []
  deriving DecidableEq, Repr, Inhabited

/-- A command that a transaction can stage (R351): the packet and its parameters. -/
inductive StageOp where
  | ctxCreate (p : Pkt) (pasid : BitVec 20) (pasidEn priv : Bool)
  | ctxDestroy (p : Pkt) (ctx : BitVec 20)
  | segSet (p : Pkt) (ctx : BitVec 20) (seg : BitVec 6) (desc : BitVec 256)
  | segClear (p : Pkt) (ctx : BitVec 20) (seg : BitVec 6)
  | map (p : Pkt) (ctx : BitVec 20) (seg : BitVec 6) (first : BitVec 32) (frames : List (BitVec 64))
  | unmap (p : Pkt) (ctx : BitVec 20) (seg : BitVec 6) (first count : BitVec 32)
  | granuleBind (p : Pkt) (addr : BitVec 48) (struct : Bool) (count : BitVec 32)
  | granuleUnbind (p : Pkt) (addr : BitVec 48) (count : BitVec 32)
  | queueCreate (p : Pkt) (ownerClass site : BitVec 2) (priv : Bool) (log2 cls : BitVec 8) (ctx : BitVec 20) (ring headAddr : BitVec 64)
  | queueEnable (p : Pkt) (queue : BitVec 14)
  | queueDisable (p : Pkt) (queue : BitVec 14)
  | queueDestroy (p : Pkt) (queue : BitVec 14)
  | fenceCreate (p : Pkt) (owner : BitVec 20) (mirror : BitVec 64)
  | fenceDestroy (p : Pkt) (fence : BitVec 22)
  | autotierPoolGrant (p : Pkt) (tier : BitVec 8) (frames : List (BitVec 64))
  | autotierPoolWithdraw (p : Pkt) (tier : BitVec 8) (frames : List (BitVec 64))
  | partitionLayout (p : Pkt) (clusters : BitVec 200) (quotaA quotaB quotaC : BitVec 32)
  | instanceCreate (p : Pkt) (tag : BitVec 64) (ctxs : List (BitVec 20))
  | instanceDestroy (p : Pkt) (inst : BitVec 16)
  | siteGrantRequest (p : Pkt) (site : BitVec 8) (cxlCtx : BitVec 20)
  | siteGrantAperture (p : Pkt) (site : BitVec 8) (cxlCtx : BitVec 20)
  | siteGrantWithdraw (p : Pkt) (site : BitVec 8) (cxlCtx : BitVec 20)
  | slWindowSet (p : Pkt) (desc : BitVec 256)
  | slWindowClear (p : Pkt) (dir win : BitVec 8)
  | keySlotBind (p : Pkt) (slot : BitVec 8)
  | regStage (p : Pkt) (entries : List (BitVec 32 × Bool × BitVec 64))
  deriving DecidableEq, Repr, Inhabited

/-- One staged operation: the command and the ids it reserved (R353). -/
structure Staged where
  op : StageOp
  /-- reserved id of a creation, kind code × 2^32 + id -/
  reserved : Option Nat := none
  bytes : Nat := 0
  deriving DecidableEq, Repr, Inhabited

structure Txn where
  /-- partition, or 15 for none -/
  scope : Nat
  path : Path
  idleMs : Nat
  beginGen : Nat
  ops : List Staged := []
  committing : Bool := false
  deriving DecidableEq, Repr

end Sys2Proof.Machine
end

