-- ==== Sys2Proof/Machine/SlState.lean ====
section
/-!
DEFINITION. The state of the Sloyth ports and windows (ch. 14).
-/
namespace Sys2Proof.Machine

/-- A packet that waits to be sent or is kept for replay (R423, R432): its SEQ once sent, its contents, and how often
it was replayed since the last ACK. -/
structure SlSent where
  seq : Nat := 0
  op : Nat
  src : Nat := 0
  win : Nat := 0
  atom : Nat := 0
  tag : Nat := 0
  off : Nat := 0
  len : Nat := 0
  status : Nat := 0
  payload : Nat := 0
  replays : Nat := 0
  deriving DecidableEq, Repr, Inhabited

/-- An outstanding request of a port, by TAG (R432, R437). -/
structure SlReq where
  op : Nat
  /-- requester code of the engine or agent -/
  who : Nat
  part : Nat
  peer : Nat
  ctx : Nat
  pa : Nat
  len : Nat
  /-- a WRITE that a sent FENCE covers -/
  covered : Bool := false
  deriving DecidableEq, Repr, Inhabited

/-- A transaction that was accepted and is not yet performed (R434, R435, R439, R441). -/
structure SlIn where
  txn : SlTxn
  /-- serial of the peer that sent it -/
  peer : Nat
  /-- it arrived after the clear of its window began -/
  late : Bool := false
  /-- a port reset has begun: it is performed, and no answer is sent -/
  mute : Bool := false
  /-- bytes already performed, and what they read -/
  pos : Nat := 0
  acc : Nat := 0
  deriving DecidableEq, Repr, Inhabited

/-- A port reset between its steps 1 and 4 (R441). -/
structure SlReset where
  reason : Nat
  peer : Nat
  pkt : Option Pkt := none
  deriving DecidableEq, Repr, Inhabited

/-- One Sloyth port (R420 to R442). -/
structure SlPort where
  /-- 0 DOWN, 1 HOLD, 2 QUALIFYING, 3 HANDSHAKE, 4 IN_SERVICE, 5 LPI, 6 FAILED -/
  state : Nat := 0
  /-- step of R425 in hand: 1 PHY, 2 equalisation, 3 qualification, 4 handshake, 5 READY is sent; 0 none -/
  step : Nat := 0
  /-- consecutive failures of training -/
  fails : Nat := 0
  /-- messages of the handshake seen: 0 none, 1 HELLO, 2 KEM -/
  hs : Nat := 0
  initiator : Bool := false
  /-- serial of the peer in the handshake, and the verified one; 0 for none -/
  cand : Nat := 0
  peer : Nat := 0
  peerReady : Bool := false
  resets : Nat := 0
  resetting : Option SlReset := none
  /-- transmit: next SEQ, epoch, key and salt, packets that wait, packets sent and not acknowledged -/
  txSeq : Nat := 0
  txEpoch : Bool := false
  txKey : Nat := 0
  txq : List SlSent := []
  replay : List SlSent := []
  /-- receive: next SEQ expected, epoch, key and salt, transactions not yet performed -/
  rxSeq : Nat := 0
  rxEpoch : Bool := false
  rxKey : Nat := 0
  rxq : List SlIn := []
  /-- NAK of the expected SEQ is sent -/
  nakSent : Bool := false
  /-- packets are received that no ACK covers -/
  unacked : Bool := false
  /-- rekey (R430): 0 none, 1 REKEY_KEM is sent, 2 the next keys are there -/
  rekeying : Nat := 0
  txSwitched : Bool := false
  rxSwitched : Bool := false
  txNext : Nat := 0
  rxNext : Nat := 0
  /-- operating time of the last keys -/
  keyed : Nat := 0
  /-- credits of 16-byte units held towards the peer (R424) -/
  reqCredits : Nat := 0
  rspCredits : Nat := 0
  reqs : KV SlReq := []
  /-- tag and handshake failures, and the always-on count of the last tag failure -/
  authFail : Nat := 0
  lastTag : Option Nat := none
  /-- SL_PORT_FEC -/
  fecCorrected : Nat := 0
  fecUncorrectable : Nat := 0
  replays : Nat := 0
  deriving DecidableEq, Repr, Inhabited

/-- An outbound window (R438). -/
structure WinOut where
  part : Nat
  remote : Nat
  isOpen : Bool := false
  peer : Nat
  deriving DecidableEq, Repr, Inhabited

/-- An inbound window (R438). -/
structure WinIn where
  part : Nat
  srcPart : Nat
  r : Bool
  w : Bool
  a : Bool := false
  base : Nat
  len : Nat
  peer : Nat
  /-- an inbound clear runs: the packet that waits for it (R439) -/
  closing : Option Pkt := none
  deriving DecidableEq, Repr, Inhabited

/-- What the integrator configuration in effect says of a Sloyth port (R427, R450). -/
structure SlConf where
  enable : Bool := false
  /-- allowed peer serials; empty allows every serial -/
  peers : List Nat := []
  deriving DecidableEq, Repr, Inhabited

end Sys2Proof.Machine
end

