-- ==== Sys2Proof/Machine/UnitState.lean ====
section
/-!
DEFINITION. The state of the unit as hardware: its repair records and spare map (ch. 16), its boot flash, its secrets and
life cycle (ch. 15), its supply, heat and coolant loop (ch. 17).
-/
namespace Sys2Proof.Machine

/-- A repair record entry (R490). KIND: 1 core retired, 2 array segment, 3 stall row, 4 cache way, 5 memory-side way,
6 ring lane, 7 HBM lane, 8 strike, 9 map. -/
structure Rec where
  kind : Nat
  source : Nat
  unit : Nat
  slot : Nat := 0xFF
  logical : Nat := 0xFF
  index : Nat := 0
  seconds : Nat := 0
  deriving DecidableEq, Repr, Inhabited

/-- A repair that waits for a quiesce point (R487). -/
structure Due where
  what : Rec
  since : Nat
  /-- REPAIR_PENDING is raised -/
  told : Bool := false
  deriving DecidableEq, Repr, Inhabited

/-- The repair records, the map of logical cores to slots, and the repairs that are due (R485 to R491). -/
structure Repair where
  records : List Rec := []
  due : List Due := []
  /-- field fuse entries free -/
  fuseFree : Nat := 64
  /-- repairs made since shipment -/
  fieldRepairs : Nat := 0
  /-- slot of a logical core; an unlisted core c has slot c mod 20 -/
  slots : KV Nat := []
  /-- a REPAIR_QUIESCE RUN in progress: its packet, its limit on the always-on counter, repairs made so far -/
  running : Option (Pkt × Nat × Nat) := none
  /-- margin of a logical core at its last sample, in 0.1 % -/
  margins : KV Nat := []
  /-- logical cores for which MARGIN_LOW was raised -/
  marginLow : KV Bool := []
  /-- neither flash copy of the records passed its check at CO2 -/
  recordLost : Bool := false
  /-- logical cores whose repair was due with no spare left: they stay mapped with RATE 64 (R155, R489) -/
  worn : KV Bool := []
  /-- corrected errors of a stall-memory row, by logical core × 32,768 + row: times and counts (R84, R486) -/
  rowErrs : KV (List (Nat × Nat)) := []
  deriving DecidableEq, Repr, Inhabited

/-! ### Boot flash (R449 to R451, R477) -/

/-- An HMF bank: the SVN of its bundle and bytes [127:0] of its header. -/
structure Bank where
  svn : Nat := 0
  head : Nat := 0
  deriving DecidableEq, Repr, Inhabited

structure Flash where
  /-- the active HMF bank, and the banks -/
  active : Nat := 0
  banks : KV Bank := [(0, {}), (1, {})]
  /-- the other bank becomes active at the next cold cast-on -/
  swap : Bool := false
  /-- the integrator configuration in the user region, with bytes [127:0] of its header -/
  conf : Option (ConfBody × Nat) := none
  /-- stage reports of the last four cast-ons, oldest first -/
  reports : List (List Nat) := []
  deriving DecidableEq, Repr, Inhabited

/-! ### Keys and life cycle (ch. 15) -/

/-- An assembly of fragments (R449): opcode, TOTAL, bytes so far. -/
structure Asm where
  opcode : Nat
  total : Nat
  got : Nat
  deriving DecidableEq, Repr, Inhabited

/-- A KEY_SLOT_DRAIN in hand (R459): its packet, its slot, its step (2 or 4), transfers dropped, halted at L5. -/
structure Drain where
  pkt : Pkt
  slot : Nat
  step : Nat := 2
  dropped : Nat := 0
  halted : Bool := false
  deriving DecidableEq, Repr, Inhabited

structure Sec where
  /-- LC_STATE: 0 MAKER, 1 INTEGRATOR, 2 FIELDED, 3 RETURNED, 4 SCRAPPED, 7 LOCKED -/
  lc : Nat := 0
  invalid : Bool := false
  resumed : Bool := false
  /-- debug level unlocked -/
  level : Nat := 0
  /-- the outstanding challenge: its level and its 64 bytes -/
  challenge : Option (Nat × Nat) := none
  fails : Nat := 0
  /-- operating time until which DEBUG_CHALLENGE is refused -/
  lockUntil : Nat := 0
  /-- measurement registers M0 to M5; an unlisted one is 0 (R452) -/
  m : KV (BitVec 512) := []
  /-- hub memory key, 96 bytes (R445) -/
  hubKey : Nat := 0
  /-- hash of the debug authority; 0 for the MAKER root (R450) -/
  debugHash : BitVec 512 := 0
  /-- the migration key is there (R446) -/
  migKey : Bool := false
  /-- assemblies by path -/
  asm : KV Asm := []
  /-- what ATTEST built last on each path: length in bytes, bytes -/
  built : KV (Nat × Nat) := []
  drains : KV Drain := []
  deriving DecidableEq, Repr, Inhabited

/-! ### Power, heat and the coolant loop (ch. 17) -/

/-- What the sensor of a cluster has shown (R501). -/
structure DieSensor where
  /-- last reading in 0.1 °C -/
  temp : Int := 0
  /-- the cap of the cluster for its temperature -/
  cap : Nat := 64
  /-- samples in a row that were 3 °C below the threshold -/
  cool : Nat := 0
  /-- always-on count of the last THROTTLE event -/
  told : Option Nat := none
  deriving DecidableEq, Repr, Inhabited

structure Power where
  /-- shed level (R508), and the highest since the last warm reset -/
  shed : Nat := 0
  peak : Nat := 0
  /-- triggers that hold, by level: core rail, store -/
  railTrig : KV Bool := []
  storeTrig : KV Bool := []
  fast : Bool := false
  pwrFail : Bool := false
  /-- lowest core rail below nominal, in 0.1 % -/
  railDrop : Nat := 0
  storePct : Nat := 0
  /-- always-on count of the last reading of the store -/
  storeAt : Option Nat := none
  entries : Nat := 0
  /-- SHED events by direction (0 up, 1 down): always-on count of the last, and the level before the changes that wait
  for the next, with their highest level (R511) -/
  shedLast : KV Nat := []
  shedWait : KV (Nat × Nat) := []
  /-- package power samples of the last second, newest first -/
  samples : List Nat := []
  hubW : Nat := 0
  hbmW : Nat := 0
  /-- control ticks in a row below 95 % of every limit -/
  under : Nat := 0
  /-- caps of R500 by cluster: clock cap, activity cap -/
  cap : KV Nat := []
  act : KV Bool := []
  /-- control ticks in a row in which the coolant limit holds a cap, and the last COOLANT_LIMIT event -/
  coolRun : Nat := 0
  coolTold : Option Nat := none
  die : KV DieSensor := []
  /-- regulator current alert, and the always-on count until which its cap is held -/
  regAlert : Bool := false
  regUntil : Nat := 0
  /-- THERMTRIP_N is low -/
  tripped : Bool := false
  /-- sensors of R504: 0.01 L/min, 0.01 °C, mV -/
  flow : Nat := 0
  inlet : Int := 0
  outlet : Int := 0
  bankMv : Nat := 0
  /-- failed reads in a row by sensor; sensors and pumps at fault -/
  badReads : KV Nat := []
  sensorFault : KV Bool := []
  pumpFault : KV Bool := []
  failsafe : Bool := false
  setpoint : Nat := 0
  duty : Nat := 100
  valve : Nat := 100
  tach0 : Nat := 0
  tach1 : Nat := 0
  /-- always-on count at which a stack was last seen throttled -/
  stackAt : Option Nat := none
  /-- TH_SMB_ALERT: 0 FREEZE, 1 THERMAL, 2 SHED -/
  smb : Nat := 0
  /-- BAR0 offset of the SMB commands (R513) -/
  smbOffset : Nat := 0
  deriving DecidableEq, Repr, Inhabited

end Sys2Proof.Machine
end

