-- ==== Sys2Proof/Machine/State.lean ====
section
/-!
DEFINITION. The state of the block as plain data, the reasons a step can stop, and the state right after reset.
-/
namespace Sys2Proof.Machine

/-- The reasons a command can fault the model. No command raises one: every effect the spec gives, the block's own
faults of contexts and cores included, is a next state. -/
inductive Fault where
  /-- Raised by nobody; safe. It stands here so that the type has a name to list. -/
  | none
  deriving DecidableEq, Repr, Inhabited

/-- The reasons a command can be refused by the model. -/
inductive Refusal where
  /-- Raised by the dispatcher for a command that has no meaning yet; safe: the model says nothing about it. -/
  | notModelled (mnemonic : String)
  deriving DecidableEq, Repr, Inhabited

/-- One clock-domain counter (R24, R29, R516). -/
structure Clock where
  count : Nat := 0
  started : Bool := false
  running : Bool := false
  deriving DecidableEq, Repr, Inhabited

/-- What is sent outside the hub. -/
inductive Out where
  /-- a write to host memory at a host bus address: address, bytes, value -/
  | hostWrite (addr len val : Nat)
  /-- a write to host space through ATS: context, translated address, bytes, value -/
  | iovaWrite (ctx addr len val : Nat)
  /-- a read request to host space: requester code, IOVA, translated address, bytes -/
  | hostRead (who iova addr len : Nat)
  /-- an AtomicOp to host space: requester, IOVA, translated address, size, operation, operand, compare -/
  | hostAtomic (who iova addr size op operand compare : Nat)
  /-- an ATS Translation Request: PASID word, IOVA page, write -/
  | atsRequest (pasid page : Nat) (write : Bool)
  /-- an ATS Invalidation Completion for an invalidation tag -/
  | atsInvalDone (tag : Nat)
  /-- Assert_INTA (true) or Deassert_INTA -/
  | intx (assert : Bool)
  /-- a completion to a host read or AtomicOp: value, EP -/
  | completion (val : Nat) (ep : Bool)
  /-- a reply in a mailbox or ring slot: path, SEQ, opcode, status, error offset, tag, TXN, stage index, data length, data -/
  | reply (path : Path) (seq opcode status errOffset tag txn stage len data : Nat)
  /-- a coherence or aperture message to the partner die of a site -/
  | die (site : Nat) (m : Msg)
  /-- credits returned to a die in NOP frames, in total, by channel: REQ, RSP, DAT -/
  | credit (site req rsp dat : Nat)
  /-- what a CXL die gets of a message (R408, R409): 0 SnpInv, 1 SnpCur, 2 GO, 3 GO_ERR, 4 GO_ERR_WritePull, 5 MemRd,
  6 MemWr, 7 MemWrPtl, 8 CXL.io completion -/
  | cxl (site kind : Nat) (m : Msg)
  /-- a sideband message to a partner die: code, payload -/
  | sideband (site code payload : Nat)
  /-- a pin or a wire of a site or of the package: name code, index, level -/
  | pin (name index level : Nat)
  /-- a Sloyth control block: port, byte [0], bytes [11:1] (R421) -/
  | slControl (port kind payload : Nat)
  /-- a Sloyth HANDSHAKE message: port, 1 HELLO, 2 KEM, 3 ENCAP, 4 FINISH (R428) -/
  | slHandshake (port kind : Nat)
  /-- a Sloyth packet: port, EPOCH, and the packet (R422, R432) -/
  | slPacket (port : Nat) (epoch : Bool) (k : SlSent)
  /-- an answer over SMB: bytes, value -/
  | smb (len val : Nat)
  /-- a controller issues requests in a slot, by their number in its queues -/
  | issue (ctl slot : Nat) (order : List Nat)
  deriving DecidableEq, Repr, Inhabited

/-- Warm reset, partition resets and the reset pins (R33 to R38, R384). -/
structure Rst where
  /-- 1 power-on reset, 2 PERST#, 3 warm reset -/
  lastKind : Nat := 1
  warmSource : Nat := 0
  inProgress : Bool := false
  /-- a deferred warm reset: its source (R38) -/
  deferred : Option Nat := none
  warmCount : Nat := 0
  /-- step of R36 in hand: 2 a started commit, 3 drain, 4 recall, 5 self-refresh, 6 and 7 past; 0 none -/
  step : Nat := 0
  /-- halted after step 5 at shed level L5 or deeper (R38) -/
  halted : Bool := false
  /-- the drain of step 3 has ended by its limit -/
  drained : Bool := false
  /-- the recall of step 4 has ended by its limit -/
  recalled : Bool := false
  porN : Bool := false
  perstN : Bool := false
  deriving DecidableEq, Repr, Inhabited

/-- A write that was accepted and whose answer is still to come, by its requester code: a write of a DMA engine that its
cluster cache accepted (R79, R519), or a report write of the hub to a context address (R522). -/
structure Posted where
  cluster : Option Nat := none
  ctx : Nat
  part : Fin 8
  va : Nat
  pa : Nat
  seg : Nat
  gen : BitVec 16 := 0
  stream : Bool
  target : Nat
  len : Nat
  val : Nat
  /-- engine code of its faults (R331), and their DETAIL -/
  eng : Nat
  detail : Nat := 0
  /-- the core, its launch, and the number of the command in its engine -/
  core : Nat := 0
  link : Option Nat := none
  num : Nat := 0
  /-- the port or the die has it; a window's write waits for its acknowledgement (R437) -/
  sent : Bool := false
  deriving DecidableEq, Repr, Inhabited

/-- An ATS invalidation in hand (R275): its tag, first page and count of pages. -/
structure Inval where
  tag : Nat
  /-- its PASID word -/
  pasid : Nat
  page : Nat
  pages : Nat
  deriving DecidableEq, Repr, Inhabited

/-- The host port (ch. 9). -/
structure Port where
  linkRate : Nat := 0
  linkWidth : Nat := 0
  flit : Bool := false
  dlActive : Bool := false
  retrains : Nat := 0
  /-- the link has trained since the last PERST# -/
  trained : Bool := false
  /-- configuration space, bytes, where it is written (R279) -/
  cfg : KV Nat := []
  d3hot : Bool := false
  aer : BitVec 32 := 0
  frozen : Bool := false
  cause : Nat := 0
  multiple : Bool := false
  reportLost : Bool := false
  relErr : Nat := 0
  freezeCount : Nat := 0
  /-- report writes held while frozen, oldest first (R295) -/
  held : List Held := []
  /-- ATS invalidations that wait for outstanding requests or for the port's release -/
  inval : List Inval := []
  asserted : Bool := false
  asserts : Nat := 0
  refused : Nat := 0
  poisoned : Nat := 0
  errOffset : Nat := 0
  errReason : Nat := 0
  errValid : Bool := false
  dbLast : Nat := 0
  dbDrop : Nat := 0
  /-- address translation cache: PASID word × 2^52 + page to translated page × 4 + permission bits (R274) -/
  atc : KV Nat := []
  /-- Translation Requests that are out: the same key to the requester -/
  atsAsked : KV Nat := []
  /-- requesters whose Translation Request came back with a bad status, to its key (R290) -/
  atsBad : KV Nat := []
  atcRequests : Nat := 0
  atcInvals : Nat := 0
  atcRefused : Nat := 0
  /-- report writes that the port has not sent, oldest first: one that waits for its translation holds those behind it
  (R274, R288) -/
  parked : List Held := []
  /-- BAR4 writes that arrived and are not performed, oldest first: offset, bytes of the line, line data (R182, R287) -/
  writes : List (Nat × Nat × Nat) := []
  /-- step 4 of R296 has passed, and step 5 is still to come -/
  releasing : Bool := false
  deriving DecidableEq, Repr, Inhabited

/-- The fuses (R4, R445, R450, R464). -/
structure Fuse where
  /-- 1 A, 2 B, 3 C -/
  variant : Nat := 1
  /-- 0 not provisioned, 1 BP1, 2 BP2 -/
  profile : Nat := 0
  stepping : Nat := 0
  serial : Nat := 0
  /-- the life-cycle fuse field of R464 -/
  lc : BitVec 112 := 0
  /-- blown SVN fuses, 0 to 64 (R450) -/
  svn : Nat := 0
  /-- device unique secret, MAKER root and OWNER_ROOT fuses (R445) -/
  dus : BitVec 256 := 0
  makerRoot : BitVec 512 := 0
  ownerRoot : BitVec 512 := 0
  /-- fused stack thresholds H in °C by stack (R243); an unlisted stack has 95 -/
  thresh : KV Nat := []
  deriving DecidableEq, Repr, Inhabited

/-- Cast-on (R299, R300, R473 to R477). -/
structure CastOn where
  stage : Nat := 0
  running : Bool := false
  ready : Bool := false
  failed : Bool := false
  warm : Bool := false
  failCode : Nat := 0
  /-- halted at a shed level after its stage (R475) -/
  halted : Bool := false
  /-- always-on count at the start of the stage -/
  start : Nat := 0
  /-- the report log, its next index, and whether it has wrapped (R477) -/
  log : KV Nat := []
  next : Nat := 0
  wrapped : Bool := false
  /-- cast-ons since the last PERST# or power-on reset -/
  castOns : Nat := 0
  /-- clusters whose last spare CO6 took: SPARES_LOW is due at CO10 -/
  spent : List Nat := []
  deriving DecidableEq, Repr, Inhabited

/-- One hardware partition (R366 to R368, R384). -/
structure Part where
  laidOut : Bool := false
  /-- a partition reset waits in step 2 for its in-flight counters: the packet, if a command asked for it -/
  resetting : Option (Option Pkt) := none
  /-- it waits in step 1 for a started commit -/
  commitWait : Bool := false
  /-- partition resets since the last PERST# -/
  resets : Nat := 0
  /-- bit g: cluster g belongs to the partition -/
  clusters : Nat := 0
  /-- granules it may own in tiers A, B and C (R366, R369) -/
  quota : KV Nat := []
  deriving DecidableEq, Repr, Inhabited

/-- A virtual instance (R386 to R388): 0 ACTIVE, 1 FREEZING, 2 FROZEN, 3 RESTORED. -/
structure Inst where
  part : Fin 8
  state : Nat := 0
  ctxs : List Nat := []
  tag : Nat := 0
  /-- freezes that wait for dispatched descriptors: their packets -/
  freezing : List Pkt := []
  deriving DecidableEq, Repr, Inhabited

/-- A move of a frame in hand (R246, R247): its MIGRATE descriptor, or an auto-tier move of the hub. -/
structure Move where
  part : Nat
  src : Nat
  dst : Nat
  g1 : Bool
  /-- mappings: context, segment, page -/
  maps : List (Nat × Nat × Nat)
  /-- queue and index of the descriptor; none for an auto-tier move -/
  from_ : Option (Nat × BitVec 32)
  /-- the recalls of step 4 are out -/
  recalling : Bool := false
  /-- the mappings are written, and the source forwards (R247 steps 5 to 7) -/
  forwards : Bool := false
  /-- clusters that have not acknowledged the shootdown of step 6 -/
  waiting : List Nat := []
  deriving DecidableEq, Repr, Inhabited

/-- The auto-tier moves of a partition that an interval end has started and not finished (R251). -/
structure Auto where
  /-- moves left of MAX_MOVES -/
  left : Nat
  /-- pages not yet considered, and the heats of the interval's end by granule -/
  pages : List Nat
  heat : KV Nat
  promoteMin : Nat
  demoteMax : Nat
  /-- a page whose promotion waits for the demotion of another -/
  waits : Option (Nat × Nat) := none
  deriving DecidableEq, Repr, Inhabited

/-- One tier controller (R241 to R245): its slot, the slot table in effect, and its stack's temperature. -/
structure Ctl where
  present : Bool := false
  rate : Nat := 0
  dataMb : Nat := 0
  slot : Nat := 63
  /-- the table of the round in hand: MEM_TDM0 to MEM_TDM3 -/
  table : List Nat := []
  temp : Nat := 0
  step : Nat := 0
  critical : Bool := false
  /-- short slots of the window in hand: partition to count and causes -/
  short : KV (Nat × Nat) := []
  deriving DecidableEq, Repr, Inhabited

/-- Coalesced MISS windows of a partition (R377). -/
structure Miss where
  /-- always-on count of the last MISS record -/
  last : Option Nat := none
  /-- the record being collected: window start, controller, causes, controllers, short slots, windows -/
  open_ : Option (Nat × Nat × Nat × Nat × Nat × Nat) := none
  deriving DecidableEq, Repr, Inhabited

/-- A hub request to an aperture that the die has not answered, by TXN (R407). -/
structure ApReq where
  /-- requester code of the engine or agent; 0 when another die asked -/
  who : Nat
  pa : Nat
  /-- the answer is DATA: a read or an atomic -/
  data : Bool
  /-- site and TXN of the partner die that asked (R405) -/
  orig : Option (Nat × BitVec 12) := none
  /-- SRC of the request, DST of its answer -/
  src : BitVec 8 := 0xFF
  deriving DecidableEq, Repr, Inhabited

/-- One partner site (ch. 13). -/
structure Site where
  /-- 0 EMPTY, 1 OFF, 2 TRAINING, 3 HELD, 4 ADMITTED, 5 QUIESCED, 6 FAILED, 7 TEST -/
  state : Nat := 1
  cxl : Bool := false
  modules : Nat := 0
  /-- 0 down, 1 8 GT/s, 2 16 GT/s, 3 32 GT/s -/
  rate : Nat := 0
  shedClass : Nat := 0
  failCode : Nat := 0
  admissions : Nat := 0
  /-- the declaration (R402), as SITE_DECL holds it -/
  decl : Nat := 0
  /-- the die declared that it caches COHERENT lines -/
  caches : Bool := false
  /-- admission step in hand: 2 up to the link, 5 the declaration; 0 none -/
  step : Nat := 0
  /-- the site rails are on (SITE_PWR_ENn high) -/
  powered : Bool := false
  /-- admission waits for shed level L3 or shallower (R414) -/
  waits : Bool := false
  /-- partitions granted requests -/
  reqMask : Nat := 0
  apValid : Bool := false
  apOwner : Nat := 0
  cxlCtx : Nat := 0
  /-- lanes repaired, eight bits a module -/
  repaired : Nat := 0
  retrains : Nat := 0
  errProtocol : Nat := 0
  errDb : Nat := 0
  errEarly : Nat := 0
  errTimeout : Nat := 0
  measured : Nat := 0
  /-- SITE_POWER.OVER -/
  overNow : Bool := false
  /-- POWER_LIMIT with OVER 1 stands -/
  limited : Bool := false
  /-- consecutive 10 ms samples above, and at or below, the budget -/
  overRun : Nat := 0
  underRun : Nat := 0
  loopback : Nat := 0
  prbs : Bool := false
  prbsErrors : Nat := 0
  /-- credits the hub holds towards the die, by channel, and messages that wait for them -/
  tx : KV Nat := []
  txq : List Msg := []
  /-- credits the die holds towards the hub, by channel -/
  rx : KV Nat := []
  /-- outstanding requests of the die: TXN to line × 64 + opcode (R205) -/
  reqs : KV Nat := []
  /-- lines of which a snoop took the die's ownership, so that a WB_DIRTY may still come (R208, R220) -/
  took : KV Bool := []
  /-- outstanding aperture requests, by TXN -/
  apq : KV ApReq := []
  /-- a site reset is in steps 1 to 3: its reason -/
  resetting : Option Nat := none
  /-- operating times of the resets that count (R413) -/
  resets : List Nat := []
  /-- SITE_RESET packets that wait for the end of step 4 -/
  waiters : List Pkt := []
  /-- SITE_GRANT WITHDRAW packets that wait for the recall (R410) -/
  withdraws : List Pkt := []
  /-- lines still to be recalled from the die -/
  toRecall : List Nat := []
  /-- level of a QUIESCE that is not acknowledged -/
  quiesce : Option Nat := none
  deriving DecidableEq, Repr, Inhabited

/-- An UNMAP or SEG_CLEAR up to step 4 of R271. -/
structure Shoot where
  /-- the packet that waits for it: of the command itself, or of its commit -/
  pkt : Pkt
  ctx : Nat
  seg : Nat
  /-- pages that an UNMAP names -/
  first : Nat := 0
  count : Nat := 0
  /-- step 1 is made: no MIGRATE of a named page is in hand -/
  started : Bool := false
  /-- the old generation -/
  gen : BitVec 16 := 0
  /-- pages withdrawn, with the frames they led to; or the segment that a SEG_CLEAR took -/
  pages : KV Nat := []
  frame1g : Bool := false
  saved : Option Segment := none
  /-- clusters that have not acknowledged -/
  waiting : List Nat := []
  deriving DecidableEq, Repr, Inhabited

/-- A change of configuration that has started and waits: for drain work, or for a hold (R358 to R360). -/
structure Change where
  pkt : Pkt
  opcode : Nat
  /-- the transaction; 0 for a direct packet -/
  txn : Nat := 0
  /-- the objects it holds -/
  objs : List Nat
  /-- operations of the commit still to be applied -/
  rest : List Staged := []
  /-- the reply data -/
  len : Nat := 0
  data : Nat := 0
  deriving DecidableEq, Repr

/-- The whole hub. -/
structure State where
  /-- register fields that software writes (RW, RWS, RWT), by BAR0 offset; an unlisted offset holds the reset value -/
  regs : KV Nat
  fuse : Fuse
  flash : Flash
  sec : Sec
  clocks : KV Clock
  rst : Rst
  co : CastOn
  power : Power
  parts : KV Part
  sites : KV Site
  /-- site records of the integrator configuration in effect (R396) -/
  siteRecs : KV SiteRec
  slPorts : KV SlPort
  /-- Sloyth ports in the integrator configuration in effect (R427) -/
  slConf : KV SlConf
  winOut : KV WinOut
  winIn : KV WinIn
  port : Port
  cores : KV Core
  /-- segments of a core's array that are fused out (CL_MTX_FUSE), from the repair records -/
  fuseSeg : KV Nat
  /-- repair records, spare map and due repairs -/
  rep : Repair
  clusters : KV Cluster
  lines : KV Line
  net : List Msg
  /-- answers that wait for a hub agent or an engine: requester code × 2^48 + line -/
  ans : KV Ans
  /-- requests of hub agents and engines that are outside or at a home: the same key, to the context, segment and generation
  of the request (R270) -/
  asked : KV Nat
  /-- TXN values of outstanding requests of clusters and hub agents: agent × 4096 + TXN to line (R205) -/
  reqTxn : KV Nat
  /-- writes accepted and not yet answered, by requester code -/
  posted : KV Posted
  /-- memory-side caches: frame number to frame (R230) -/
  msc : KV MscFrame
  /-- lines sealed under another key than the rest of their granule: line to key number (R456) -/
  sealed : KV Nat
  /-- resets that an error has made due: partition p at p, the warm reset at 8 (R221, R238) -/
  resetDue : KV Bool
  /-- granules found bad while the offline list was full (R240) -/
  offMore : KV Bool
  /-- snoops held by a cluster during a hold time (R208): cluster × 2^48 + line -/
  heldSnp : KV Msg
  /-- what DRAM reads find in the step in hand; empty between steps -/
  media : MediaList
  /-- corrected symbol errors of a granule: times and counts (R237) -/
  corr : KV (List (Nat × Nat))
  /-- heat counts of a granule, by granule × 8 + home (R250) -/
  heat : KV Nat
  /-- heat of a granule at the last interval end (MEM_HEAT_VAL) -/
  heatVal : KV Nat
  /-- tier controllers by block index (ch. 7) -/
  ctls : KV Ctl
  miss : KV Miss
  moves : List Move
  /-- auto-tier rounds in hand by partition (R251) -/
  autos : KV Auto
  keys : KV KeySlot
  /-- uncommon failures of integrity under an ACTIVE slot (LC_SEC_STAT) -/
  secIntegrity : Nat
  secAuth : Nat
  /-- always-on count of the slot's last INTEGRITY event (R458) -/
  secLast : KV Nat
  /-- bytes read and written at homes by a context since its counters were last updated (R336) -/
  traffic : KV (Nat × Nat)
  snpTxn : BitVec 12
  useStamp : Nat
  mem : Mem
  pot : KV Gran
  /-- free frames of the auto-tier pools: granule to partition (R251, R352) -/
  pool : KV Nat
  /-- frames of the pools that hold a moved page: granule to partition -/
  moved : KV Nat
  /-- populated granules of tiers A, B and C; 0 is absent (R225 to R228) -/
  granA : Nat
  granB : Nat
  granC : Nat
  offline : List Offline
  offOverflow : Bool
  /-- operating time in seconds, kept in flash (R154) -/
  opSeconds : Nat
  ctxs : KV Ctx
  /-- structure allocations: address to size (R255) -/
  allocs : KV Nat
  shoots : List Shoot
  /-- changes of configuration in hand (R358 to R360) -/
  changes : List Change
  /-- L5 has halted them, until L3 or shallower (R273, R362) -/
  halted : Bool
  /-- granules that an unbind takes from the caches of partner dies (R267): its packet, the first granule, their count -/
  drops : List (Pkt × Nat × Nat)
  queues : KV Queue
  fences : KV Fence
  /-- fence blocks: partition and address (R303) -/
  fenceBlocks : KV (Nat × Nat)
  launches : KV Launch
  /-- the launch of each partition that reserves its cores: 2^32 × queue + index (R371) -/
  resv : KV Nat
  /-- queue served last of each partition and class: key 4 × partition + class (R371) -/
  served : KV Nat
  insts : KV Inst
  evt : KV EvRing
  frings : KV FaultRing
  cmd : CmdRing
  accepted : List Accepted
  mbx : Mailbox
  txns : KV Txn
  nextTxn : Nat
  cfgGen : Nat
  /-- generation of the last change of each object, by object code (R357) -/
  gens : KV Nat
  /-- last commit that reached step 6, and the journal kept in flash: last commit, cut-off commit, count (R363) -/
  lastCommit : Nat
  flashJournal : Option (Nat × Nat × Nat)
  /-- the journal of the previous power-on period -/
  journal : Nat × Nat × Nat
  txnConflicts : Nat
  txnAborts : Nat
  out : List Out
  free : Nat
  pending : List Instr
  deriving DecidableEq, Repr, Inhabited

/-- The hub right after power-on reset (R33): every counter 0, every table empty, cast-on at CO0. -/
def State.reset : State where
  regs := []
  fuse := {}
  flash := {}
  sec := {}
  clocks := []
  rst := {}
  co := {}
  power := {}
  parts := []
  sites := []
  siteRecs := []
  slPorts := []
  slConf := []
  winOut := []
  winIn := []
  port := {}
  cores := []
  fuseSeg := []
  rep := {}
  clusters := []
  lines := []
  net := []
  ans := []
  asked := []
  reqTxn := []
  posted := []
  msc := []
  sealed := []
  resetDue := []
  offMore := []
  heldSnp := []
  media := []
  corr := []
  heat := []
  heatVal := []
  ctls := []
  miss := []
  moves := []
  autos := []
  keys := []
  secIntegrity := 0
  secAuth := 0
  secLast := []
  traffic := []
  snpTxn := 0
  useStamp := 0
  mem := []
  pot := []
  pool := []
  moved := []
  granA := 0
  granB := 0
  granC := 0
  offline := []
  offOverflow := false
  opSeconds := 0
  ctxs := []
  allocs := []
  shoots := []
  changes := []
  halted := false
  drops := []
  queues := []
  fences := []
  fenceBlocks := []
  launches := []
  resv := []
  served := []
  insts := []
  evt := []
  frings := []
  cmd := {}
  accepted := []
  mbx := {}
  txns := []
  nextTxn := 1
  cfgGen := 0
  gens := []
  lastCommit := 0
  flashJournal := none
  journal := (0, 0, 0)
  txnConflicts := 0
  txnAborts := 0
  out := []
  free := 0
  pending := []

end Sys2Proof.Machine
end

