-- ==== Sys2Proof/Machine/Ops.lean ====
section
/-!
DEFINITION. The named operations over the state that every family shares: units, counters, free values, and what is
sent outside.
-/
namespace Sys2Proof.Machine

/-! ### Status codes (R345) -/

def stOk : Nat := 0x0
def stBadOpcode : Nat := 0x1
def stBadParam : Nat := 0x2
def stNoResource : Nat := 0x3
def stNotPermitted : Nat := 0x4
def stContextLost : Nat := 0x5
def stTxnConflict : Nat := 0x6
def stTxnAborted : Nat := 0x7
def stTxnFull : Nat := 0x8
def stBusy : Nat := 0x9
def stStale : Nat := 0xA
def stShed : Nat := 0xB
def stFrozen : Nat := 0xC
def stNotReady : Nat := 0xD
def stTimeout : Nat := 0xE
def stLinkDown : Nat := 0xF
def stAuthFailed : Nat := 0x10
def stLcState : Nat := 0x11
def stPoisoned : Nat := 0x12
def stInternal : Nat := 0x13

/-! ### Fault causes (R93, R157, R239, R276, R302, R332, R418, R443, R471) -/

def fcIllegal : Nat := 0x0101
def fcImemBounds : Nat := 0x0102
def fcStallBounds : Nat := 0x0103
def fcMisaligned : Nat := 0x0104
def fcCommandInvalid : Nat := 0x0105
def fcSemOverflow : Nat := 0x0106
def fcDeadlock : Nat := 0x0107
def fcUserTrap : Nat := 0x0108
def fcStallUncorrectable : Nat := 0x0109
def fcImemParity : Nat := 0x010A
def fcSwatch : Nat := 0x0201
def fcTileHeader : Nat := 0x0202
def fcMemUncorrectable : Nat := 0x0301
def fcMemPoison : Nat := 0x0302
def fcMemIntegrity : Nat := 0x0303
def fcNotMapped : Nat := 0x0401
def fcNoFrame : Nat := 0x0402
def fcPermission : Nat := 0x0403
def fcOwnership : Nat := 0x0404
def fcHostTranslation : Nat := 0x0405
def fcHostFrozen : Nat := 0x0501
def fcHostAtomic : Nat := 0x0502
def fcHostCompletion : Nat := 0x0503
def fcQueueOverrun : Nat := 0x0601
def fcAbandoned : Nat := 0x0602
def fcReset : Nat := 0x0603
def fcSiteUnavailable : Nat := 0x0701
def fcSloythUnavailable : Nat := 0x0801
def fcKeyDrained : Nat := 0x0901

/-! ### Units -/

/-- Quadrant of a logical core (8 × 25 × 20). -/
def coreQuad (c : Nat) : Nat := c / 500
/-- Global cluster of a logical core. -/
def coreCluster (c : Nat) : Nat := c / 20

def State.core (s : State) (c : Nat) : Core := (kget c s.cores).getD {}
def State.setCore (s : State) (c : Nat) (x : Core) : State := { s with cores := kset c x s.cores }
def State.cluster (s : State) (g : Nat) : Cluster := (kget g s.clusters).getD {}
def State.setCluster (s : State) (g : Nat) (x : Cluster) : State := { s with clusters := kset g x s.clusters }
def State.line (s : State) (n : Nat) : Line := (kget n s.lines).getD {}
def State.setLine (s : State) (n : Nat) (x : Line) : State := { s with lines := kset n x s.lines }
def State.gran (s : State) (g : Nat) : Gran := (kget g s.pot).getD {}
def State.setGran (s : State) (g : Nat) (x : Gran) : State := { s with pot := kset g x s.pot }
def State.site (s : State) (n : Nat) : Site := (kget n s.sites).getD {}
def State.setSite (s : State) (n : Nat) (x : Site) : State := { s with sites := kset n x s.sites }
def State.part (s : State) (p : Nat) : Part := (kget p s.parts).getD {}
def State.setPart (s : State) (p : Nat) (x : Part) : State := { s with parts := kset p x s.parts }
def State.ctx (s : State) (c : Nat) : Option Ctx := kget c s.ctxs
def State.setCtx (s : State) (c : Nat) (x : Ctx) : State := { s with ctxs := kset c x s.ctxs }
def State.queue (s : State) (q : Nat) : Option Queue := kget q s.queues
def State.setQueue (s : State) (q : Nat) (x : Queue) : State := { s with queues := kset q x s.queues }
def State.fence (s : State) (f : Nat) : Option Fence := kget f s.fences
def State.setFence (s : State) (f : Nat) (x : Fence) : State := { s with fences := kset f x s.fences }
def State.ring (s : State) (r : Nat) : EvRing := (kget r s.evt).getD {}
def State.setRing (s : State) (r : Nat) (x : EvRing) : State := { s with evt := kset r x s.evt }
def State.fring (s : State) (p : Nat) : FaultRing := (kget p s.frings).getD {}
def State.setFring (s : State) (p : Nat) (x : FaultRing) : State := { s with frings := kset p x s.frings }

def State.ctl (s : State) (x : Nat) : Ctl := (kget x s.ctls).getD {}
def State.setCtl (s : State) (x : Nat) (c : Ctl) : State := { s with ctls := kset x c s.ctls }

/-- The partition that owns a cluster (R366, R368). -/
def State.clusterPart (s : State) (g : Nat) : Option Nat :=
  (s.parts.find? fun p => p.2.laidOut && bit p.2.clusters g).map (·.1)

/-- Launches that include logical core c are held: its retirement is due, or a REPAIR_QUIESCE runs and its cluster has
a repair due (R155, R487, R488). -/
def State.coreHeld (s : State) (c : Nat) : Bool :=
  s.rep.due.any fun d => d.what.kind ≤ 4 && d.what.unit == coreCluster c &&
    (s.rep.running.isSome || (d.what.kind == 1 && d.what.logical == c % 20))

/-- Physical slot of logical core c (R485). -/
def slotOf (s : State) (c : Nat) : Nat := (kget c s.rep.slots).getD (c % 20)

/-- A repair becomes due, once (R487). -/
def addDue (r : Rec) (s : State) : State :=
  if s.rep.due.any fun d => d.what == r then s
  else { s with rep := { s.rep with due := s.rep.due ++ [{ what := r, since := s.opSeconds }] } }

/-- Entries of the last 24 hours of operating time. -/
def lastDay (s : State) (l : List (Nat × Nat)) : List (Nat × Nat) := l.filter fun e => decide (s.opSeconds < e.1 + 86400)

/-- The sum of the counts of a list of times and counts. -/
def countSum (l : List (Nat × Nat)) : Nat := l.foldl (fun (a : Nat) (e : Nat × Nat) => a + e.2) 0

/-! ### Register fields that software writes -/

/-- The stored value of a register field group at a BAR0 offset, with its reset value. -/
def State.reg (s : State) (off reset : Nat) : Nat := (kget off s.regs).getD reset
def State.setReg (s : State) (off v : Nat) : State := { s with regs := kset off v s.regs }

/-- BAR0 base of quadrant q's block (ch. 1). -/
def qdBase (q : Nat) : Nat := 0x400000 + q * 0x10000
/-- BAR0 base of cluster g's block (ch. 1). -/
def clBase (g : Nat) : Nat := 0x800000 + g * 0x1000
/-- BAR0 base of partition p's block (ch. 12). -/
def ptBase (p : Nat) : Nat := 0x100000 + p * 0x1000
/-- BAR0 base of memory controller x's block (ch. 7). -/
def ctlBase (x : Nat) : Nat := 0xC00000 + x * 0x1000

/-- READY of PCI_READY (R300). -/
def State.ready (s : State) : Bool := s.co.ready

/-! ### Clock domains (R24, R29) -/

def State.clock (s : State) (d : Nat) : Clock := (kget d s.clocks).getD {}
/-- The count of a domain (R29). -/
def State.count (s : State) (d : Nat) : Nat := (s.clock d).count
/-- The always-on count. -/
def State.aon (s : State) : Nat := s.count 0

/-- The identifiers of R24. -/
def domainOk (d : Nat) : Bool :=
  d ≤ 3 || (0x10 ≤ d && d < 0x18) || (0x20 ≤ d && d < 0x30) || (0x30 ≤ d && d < 0x40) ||
  (0x40 ≤ d && d < 0x48) || (0x50 ≤ d && d < 0x54) || (0x60 ≤ d && d < 0x64)

/-- Core clock of the variant in units of 100 MHz (R1). -/
def State.coreRate (s : State) : Nat :=
  if s.fuse.variant = 2 then 21 else if s.fuse.variant = 3 then 18 else 24

/-! ### Sending and free values -/

/-- Appends to what the hub sends outside. -/
def emit (o : Out) (s : State) : State := { s with out := s.out ++ [o] }

/-- Takes the next number of the free-value counter. -/
def State.bump (s : State) : State := { s with free := s.free + 1 }

/-- `n` bytes of hardware entropy from counter value `k`. -/
def entropy (k : Nat) : Nat → Nat
  | 0 => 0
  | n + 1 => (Config.entropyByte (k + n)).toNat + 256 * entropy k n

/-- Sets a bit of TH_SMB_ALERT (R513). -/
def smbSet (i : Nat) (s : State) : State := { s with power := { s.power with smb := s.power.smb ||| 2 ^ i } }

/-- Extends measurement register i with `n` bytes of data (R452). -/
def State.extend (s : State) (i data n : Nat) : State :=
  let m := (kget i s.sec.m).getD 0
  { s with sec := { s.sec with
      m := kset i (Config.shake512 (m.toNat + 2 ^ 512 * (Config.shake512 data n).toNat) 128) s.sec.m } }

/-- Folds a step over a list of numbers. -/
def foldS (l : List α) (f : α → State → State) (s : State) : State := l.foldl (fun t x => f x t) s

end Sys2Proof.Machine
end

