-- ==== Sys2Proof/Machine/Report.lean ====
section
/-!
DEFINITION. Report writes, event records, interrupts, fault records and the loss of a context (R291, R292, R295,
R327 to R333).
-/
namespace Sys2Proof.Machine

/-! ### Interrupts (R291, R292) -/

/-- The interrupt condition: some enabled ring has PROD ≠ ACK. -/
def intxCond (s : State) : Bool := s.evt.any fun r => r.2.enable && r.2.prod != r.2.ack

/-- Command register of configuration space (R279): bit 1 MSE, 2 BME, 6 PER, 8 SERR, 10 INTDIS. -/
def State.pciCommand (s : State) : Nat := (kget 0x04 s.port.cfg).getD 0

/-- The hub may send on the host link: ready (R300) and not frozen (R295). -/
def hostOpen (s : State) : Bool := s.co.ready && !s.port.frozen

/-- A report write leaves the port, behind those that still wait in it (R288). -/
def portSend (h : Held) (s : State) : State :=
  if !s.port.parked.isEmpty then { s with port := { s.port with parked := s.port.parked ++ [h] } }
  else match h with
    | .write a n v => emit (.hostWrite a n v) s
    | .posted _ _ => { s with port := { s.port with parked := [h] } }
    | _ => s

/-- INTERRUPT_EVALUATION (R292): sends Assert_INTA or Deassert_INTA as R291 states. -/
def intxEval (s : State) : State :=
  let want := intxCond s && !bit s.pciCommand 10
  if !hostOpen s || s.port.releasing || want == s.port.asserted || !s.port.parked.isEmpty then s
  else if want then
    emit (.intx true) { s with port := { s.port with asserted := true, asserts := satAdd 16 s.port.asserts 1 } }
  else emit (.intx false) { s with port := { s.port with asserted := false } }

/-! ### Event records (R327 to R329) -/

/-- The 32 bytes of an event record at index `seq` (R327). -/
def evWord (r : EvRec) (seq log2 : Nat) : Nat :=
  put 0 8 r.kind + put 8 1 (1 - (seq >>> log2) % 2) + put 16 3 r.part + put 19 1 (b2n r.hub) +
  put 24 8 r.domain + put 32 32 seq + put 64 64 r.count + put 128 128 r.payload

/-- The ring holds SIZE unacknowledged records (R329). -/
def EvRing.full (g : EvRing) : Bool := (g.prod - g.ack).toNat = 2 ^ g.log2

/-- Writes a record at PROD and advances PROD (R329). -/
def evWrite (r : Nat) (x : EvRec) (s : State) : State :=
  let g := s.ring r
  let s := portSend (.write (g.base + 32 * (g.prod.toNat % 2 ^ g.log2)) 32 (evWord x g.prod.toNat g.log2)) s
  intxEval (s.setRing r { g with prod := g.prod + 1 })

/-- Puts a record into ring r: discarded when disabled, held or discarded when full, else written (R329). -/
def evPut (r : Nat) (x : EvRec) (s : State) : State :=
  let g := s.ring r
  if !g.enable then s.setRing r { g with lost := satAdd 16 g.lost 1 }
  else if g.full || !g.held.isEmpty then
    if g.held.length < 256 then s.setRing r { g with held := g.held ++ [x] }
    else s.setRing r { g with overflow := true, lost := satAdd 16 g.lost 1, gone := g.gone + 1 }
  else evWrite r x s

/-- When space returns, the held records are written in order, then one OVERFLOW record (R329). -/
def evDrain (r : Nat) : Nat → State → State
  | 0, s => s
  | n + 1, s =>
    let g := s.ring r
    if !g.enable || g.full || !hostOpen s then s
    else match g.held with
      | x :: t => evDrain r n (evWrite r x (s.setRing r { g with held := t }))
      | [] =>
        if g.gone = 0 then s
        else
          let x : EvRec := { kind := 0x7F, part := 0, hub := true, domain := 1, count := s.count 1,
                             payload := put 0 32 g.gone }
          evWrite r x (s.setRing r { g with gone := 0 })

/-! ### Fault records (R331, R333) -/

/-- The 64 bytes of a fault record at index `seq` (R331). -/
def faultWord (r : FaultRec) (seq : Nat) (fromSiding : Bool) : Nat :=
  put 0 16 r.cause + put 16 8 r.engine + put 24 1 (1 - (seq >>> 12) % 2) + put 25 1 (b2n r.first) +
  put 26 1 (b2n fromSiding) + put 27 1 (b2n r.vaValid) + put 28 1 (b2n r.paValid) +
  put 32 20 r.ctx + put 52 3 r.part + put 64 16 r.core + put 80 6 r.segment + put 96 32 r.pc +
  put 128 8 r.domain + put 192 64 r.count + put 256 64 r.va + put 320 64 r.pa + put 384 128 r.detail

def FaultRing.space (g : FaultRing) : Bool := g.enable && (g.prod - g.ack).toNat < 4096

/-- Writes a fault record at PROD and advances PROD. -/
def faultWrite (p : Nat) (x : FaultRec) (fromSiding : Bool) (s : State) : State :=
  let g := s.fring p
  let s := portSend (.write (g.base + 64 * (g.prod.toNat % 4096)) 64 (faultWord x g.prod.toNat fromSiding)) s
  s.setFring p { g with prod := g.prod + 1 }

/-- When space returns, siding records are written first, in order (R333). -/
def sidingDrain (p : Nat) : Nat → State → State
  | 0, s => s
  | n + 1, s =>
    let g := s.fring p
    if !g.space || !hostOpen s then s
    else match g.siding with
      | [] => s
      | x :: t => sidingDrain p n (faultWrite p x true (s.setFring p { g with siding := t }))

/-! ### Report writes (R295, R310) -/

/-- Bytes a held report write takes of the 512 KiB (R295). -/
def Held.bytes : Held → Nat
  | .event _ _ => 32
  | .fault _ _ _ => 64
  | .write _ n _ => n
  | .posted _ n => n

def heldBytes (l : List Held) : Nat := l.foldl (fun n h => n + h.bytes) 0

/-- The event ring of a partition (HUB_EVT_ROUTE). -/
def routeOf (s : State) (p : Nat) : Nat := bits (s.reg 0x4200 0) (4 * p + 3) (4 * p)

/-- A first fault that finds the siding full is dropped (R333). -/
def firstDropped (p : Nat) (s : State) : State :=
  let g := s.fring p
  s.setFring p { g with overflow := true, droppedFirst := satAdd 16 g.droppedFirst 1 }

/-- Performs a report write on the link. -/
def performReport (h : Held) (s : State) : State :=
  match h with
  | .event r x => evPut r x s
  | .fault p x fs =>
    if (s.fring p).space then faultWrite p x fs s
    else if !x.first then s
    else if (s.fring p).siding.length < 64 then
      s.setFring p { s.fring p with siding := (s.fring p).siding ++ [x] }
    else
      let s := firstDropped p s
      evPut (routeOf s p) { kind := 0x04, part := p, hub := false, domain := 1, count := s.count 1,
                            payload := put 0 32 (s.fring p).droppedFirst } s
  | h => portSend h s

/-- A report write: held in issue order while the port is frozen or the hub is not ready, up to 512 KiB; beyond
that discarded with REPORT_LOST (R295, R300). -/
def report (h : Held) (s : State) : State :=
  if hostOpen s then performReport h s
  else if heldBytes s.port.held + h.bytes ≤ 524288 then
    { s with port := { s.port with held := s.port.held ++ [h] } }
  else { s with port := { s.port with reportLost := true }
                posted := match h with
                  | .posted k _ => kdel k s.posted
                  | _ => s.posted }

/-- Writes the held report writes in order (R296 step 5, and at CO10 under R521). -/
def flushHeld (s : State) : State :=
  let l := s.port.held
  let s := { s with port := { s.port with held := [] } }
  let s := l.foldl (fun t h => performReport h t) s
  let s := foldS (List.range 16) (fun r => evDrain r 257) s
  foldS (List.range 8) (fun p => sidingDrain p 64) s

/-- EVENT_RECORD (R328, R329): raises an event in its ring; a disabled ring discards it at once. -/
def raiseIn (r : Nat) (x : EvRec) (s : State) : State :=
  if (s.ring r).enable then report (.event r x) s
  else s.setRing r { s.ring r with lost := satAdd 16 (s.ring r).lost 1 }

/-- A partition event, stamped in the management domain (R520). -/
def partEvent (kind p payload : Nat) (s : State) : State :=
  raiseIn (routeOf s p) { kind, part := p, hub := false, domain := 1, count := s.count 1, payload } s

/-- A hub event to ring 0, stamped in domain `d` (R520). -/
def hubEvent (kind d payload : Nat) (s : State) : State :=
  raiseIn 0 { kind, part := 0, hub := true, domain := d, count := s.count d, payload } s

/-- COMPLETION or WORK_ERROR payload (R328); the payload starts at byte 16. -/
def complPayload (queue status index tag : Nat) : Nat :=
  put 0 16 queue + put 16 16 status + put 32 32 index + put 64 32 tag

/-! ### Faults and context loss (R330, R333) -/

/-- Records of the partition's fault ring that are already held ahead by a frozen port. -/
def heldFaults (s : State) (p : Nat) : Nat :=
  (s.port.held.filter fun h => match h with
    | .fault q _ _ => q == p
    | _ => false).length

/-- CONTEXT_LOST (R328), with the time stamp of its fault. -/
def lostEvent (x : FaultRec) (inSiding noRecord : Bool) (index : Nat) (s : State) : State :=
  raiseIn (routeOf s x.part)
    { kind := 0x03, part := x.part, hub := false, domain := x.domain, count := x.count,
      payload := put 0 20 x.ctx + put 32 16 x.cause + put 48 1 (b2n inSiding) + put 49 1 (b2n noRecord) +
        put 64 32 index } s

/-- FAULT_RECORD (R333): the fault goes to the ring, to the siding, or is dropped with its counts. -/
def placeFault (x : FaultRec) (s : State) : State :=
  let p := x.part
  let g := s.fring p
  if g.enable && decide ((g.prod - g.ack).toNat + heldFaults s p < 4096) && g.siding.isEmpty then
    let idx := (g.prod.toNat + heldFaults s p) % 2 ^ 32
    let s := report (.fault p x false) s
    if x.first then lostEvent x false false idx s else s
  else if !x.first then s
  else if g.siding.length < 64 then
    let idx := (g.prod.toNat + g.siding.length) % 2 ^ 32
    lostEvent x true false idx (s.setFring p { g with siding := g.siding ++ [x] })
  else
    let s := firstDropped p s
    let s := partEvent 0x04 p (put 0 32 ((s.fring p).droppedFirst)) s
    lostEvent x false true 0xFFFFFFFF s

/-- Advances the configuration generation (R357). -/
def State.bumpGen (s : State) : State := { s with cfgGen := s.cfgGen + 1 }

/-- Stamps an object with the current generation (R357). -/
def State.stamp (s : State) (obj : Nat) : State := { s with gens := kset obj s.cfgGen s.gens }

/-- Object codes of R357. -/
def objCtx (c : Nat) : Nat := 0x1000000000000 + c
def objSeg (c i : Nat) : Nat := 0x2000000000000 + c * 64 + i
def objGran (g : Nat) : Nat := 0x3000000000000 + g
def objQueue (q : Nat) : Nat := 0x4000000000000 + q
def objFence (f : Nat) : Nat := 0x5000000000000 + f
def objReg (o : Nat) : Nat := 0x6000000000000 + o
def objPart (p : Nat) : Nat := 0x7000000000000 + p
def objInst (i : Nat) : Nat := 0x8000000000000 + i
def objSite (n : Nat) : Nat := 0x9000000000000 + n
def objWin (w : Nat) : Nat := 0xA000000000000 + w
def objKey (k : Nat) : Nat := 0xB000000000000 + k
def objPool (p t : Nat) : Nat := 0xC000000000000 + p * 4 + t

/-- A hub action changed an object: it counts as a change of it (R357). -/
def State.touch (s : State) (obj : Nat) : State := s.bumpGen.stamp obj

/-- An engine set to idle with empty FIFO. DESIGN CHOICE (log 79): how far a running command has got when a fault stops
its engine is open (R92); a command whose effect row has not run has written nothing, one that waits has written the pieces
it has moved. DESIGN CHOICE (log 80): a swatch check that is still outstanding is dropped, and counts neither as done nor as
abandoned (R152). -/
def Core.stopEngines (x : Core) : Core :=
  { x with run := false, blk := none, vec := {}, mtx := {}, dma := {}, swatch := [] }

/-- Requests and answers of core c's engines are dropped. -/
def dropAsked (c : Nat) (s : State) : State :=
  let mine (k : Nat) : Bool := 4 * c < k / 2 ^ 48 && k / 2 ^ 48 ≤ 4 * c + 4
  { s with asked := kfilter (fun k _ => !mine k) s.asked, ans := kfilter (fun k _ => !mine k) s.ans
           port := { s.port with atsBad := kfilter (fun k _ => !mine (k * 2 ^ 48)) s.port.atsBad
                                 atsAsked := kmap (fun _ w => if mine (w * 2 ^ 48) then 0 else w) s.port.atsAsked } }

/-- Stops a core that runs (R92): its launch counts its cycles and one core fewer. -/
def stopCore (c : Nat) (faulted : Bool) (s : State) : State :=
  let x := s.core c
  if !x.run then s
  else
    let s := dropAsked c s
    let s := s.setCore c { x.stopEngines with prevCtx := some x.ctx, dirty := x.dirty || faulted }
    match kget x.link s.launches with
    | none => s
    | some l =>
      { s with launches := kset x.link { l with
          left := l.left - 1, faulted := l.faulted || faulted, finish := s.aon,
          coreCycles := l.coreCycles + (s.count (0x10 + coreQuad c) - x.startCount) } s.launches }

/-- CONTEXT_STOP (R92): stops every core that runs the context. -/
def stopContext (c : Nat) (s : State) : State :=
  foldS (s.cores.filter fun k => k.2.run && k.2.ctx == c) (fun k => stopCore k.1 true) s

/-- A fault of a context (R330): LOST with the first cause, a fault record, its cores stopped. -/
def ctxFault (c : Nat) (x : FaultRec) (s : State) : State :=
  match s.ctx c with
  | none => s
  | some k =>
    let first := k.cause == 0
    let k' := { k with state := if k.state = 0 then 1 else k.state,
                       cause := if first then x.cause else k.cause,
                       lostFaults := if first then k.lostFaults else satAdd 32 k.lostFaults 1 }
    let s := (s.setCtx c k').touch (objCtx c)
    let s := placeFault { x with first, ctx := c, part := k.part } s
    if first then stopContext c s else s

/-- CORE_FAULT (R92): the fault record of an engine of core c, and the context LOST. -/
def coreFault (c eng cause : Nat) (s : State) (va : Option Nat := none) (pa : Option Nat := none)
    (seg : Nat := 0) (detail : Nat := 0) : State :=
  let k := s.core c
  let d := 0x10 + coreQuad c
  stopCore c true (ctxFault k.ctx
    { cause, engine := eng, first := false, vaValid := va.isSome, paValid := pa.isSome, ctx := k.ctx, part := k.part,
      core := c, segment := seg, pc := k.pc, domain := d, count := s.count d, va := va.getD 0, pa := pa.getD 0,
      detail } s)

/-- A fault of a hub agent acting for a context: engine 4, 5 or 7, management domain (R520, R331). -/
def agentFault (c eng cause : Nat) (s : State) (va : Option Nat := none) (pa : Option Nat := none)
    (seg : Nat := 0) (detail : Nat := 0) : State :=
  ctxFault c { cause, engine := eng, first := false, vaValid := va.isSome, paValid := pa.isSome, ctx := c, part := 0,
               segment := seg, domain := 1, count := s.count 1, va := va.getD 0, pa := pa.getD 0, detail } s

/-- DETAIL of queue faults (R331): queue, index. -/
def queueDetail (q index : Nat) : Nat := put 0 16 q + put 32 32 index

end Sys2Proof.Machine
end

