-- ==== Sys2Proof/Machine/Home.lean ====
section
/-!
DEFINITION. Address decoding, the ownership check, reads and writes at home, and the home's and the cluster cache's
side of the coherence protocol (R189 to R221, R224 to R240, R265).
-/
namespace Sys2Proof.Machine

/-! ### Address decoding (R224 to R227) -/

def tierA : Nat := 0
def tierBBase : Nat := 0x10000000000
def tierCBase : Nat := 0x20000000000

/-- Tier of a device address: 0 A, 1 B, 2 C; 3 outside the tiers. -/
def tierOf (pa : Nat) : Nat :=
  if pa < tierBBase then 0 else if pa < tierCBase then 1 else if pa < 0x40000000000 then 2 else 3

/-- Granule number a[47:21]. -/
def granOf (pa : Nat) : Nat := pa / 0x200000

/-- First address of a tier. -/
def tierBase (t : Nat) : Nat := if t = 0 then 0 else if t = 1 then tierBBase else tierCBase

/-- Populated granules of a tier. -/
def State.granCount (s : State) (t : Nat) : Nat :=
  if t = 0 then s.granA else if t = 1 then s.granB else if t = 2 then s.granC else 0

/-- The address lies in the populated part of a tier (R224, R229). -/
def State.populated (s : State) (pa : Nat) : Bool :=
  let t := tierOf pa
  t < 3 && (pa - tierBase t) / 0x200000 < s.granCount t

def xor3 (a h1 l1 h2 l2 h3 l3 h4 l4 : Nat) : Nat :=
  bits a h1 l1 ^^^ bits a h2 l2 ^^^ bits a h3 l3 ^^^ bits a h4 l4

/-- Home quadrant of a tier address (R190, R225 to R227). -/
def homeOf (pa : Nat) : Nat :=
  match tierOf pa with
  | 0 => xor3 pa 9 7 12 10 15 13 18 16
  | 1 => xor3 (pa - tierBBase) 10 7 14 11 18 15 22 19 / 2
  | _ => xor3 (pa - tierCBase) 9 7 12 10 15 13 18 16

/-- Controller number of a tier address: stack s, 0x10 + interface, 0x20 + channel (R225 to R227). -/
def ctlOf (pa : Nat) : Nat :=
  match tierOf pa with
  | 0 => 2 * homeOf pa + (bits pa 6 6 + bits pa 19 19 + bits pa 20 20 + popCount 19 (bits pa 39 21)) % 2
  | 1 => 0x10 + xor3 (pa - tierBBase) 10 7 14 11 18 15 22 19
  | _ => 0x20 + homeOf pa

/-- Where a tier A line lies (R225): stack, pseudo-channel of the stack, and line within the pseudo-channel's share of its
group. -/
def placeA (pa : Nat) : Nat × Nat × Nat :=
  (ctlOf pa, 8 * bits pa 23 21 + (bits pa 12 10 ^^^ bits pa 18 16), granOf pa / 8 * 256 + bits pa 20 13)

/-- Where a line of tier B lies (R226): interface, and place of its 128-byte frame within the interface. -/
def placeB (pa : Nat) : Nat × Nat := (ctlOf pa - 0x10, bits (pa - tierBBase) 39 11)

/-- Where a line of tier C lies (R227): channel, and place of its 128-byte frame within the channel. -/
def placeC (pa : Nat) : Nat × Nat := (ctlOf pa - 0x20, bits (pa - tierCBase) 40 10)

/-- Clock domain of a controller (R24). -/
def ctlDomain (x : Nat) : Nat := if x < 0x10 then 0x20 + x else if x < 0x20 then 0x20 + x else 0x20 + x

/-! ### The offline list (R240) -/

/-- Places a granule on the offline list and raises MEM_OFFLINE, unless it is listed (R237, R238, R240). With the list full
the granule is still refused, and OVERFLOW is set. -/
def offlineAdd (pa reason : Nat) (s : State) : State :=
  let g := granOf pa
  if s.offline.any fun e => e.granule == g then s
  else if s.offline.length ≥ 4096 then { s with offOverflow := true, offMore := kset g true s.offMore }
  else
    hubEvent 0x10 (ctlDomain (ctlOf pa)) (put 0 64 (g * 0x200000) + put 64 8 (tierOf pa) + put 72 8 reason)
      { s with offline := s.offline ++ [{ granule := g, reason, seconds := s.opSeconds }] }

/-- The granule is on the offline list, or was found bad while the list was full. -/
def State.isOffline (s : State) (g : Nat) : Bool := (s.offline.any fun e => e.granule == g) || (kget g s.offMore).isSome

/-! ### Counters of a controller (MEM_ERR), kept by BAR0 offset -/

def memErrAdd (x lo w d : Nat) (s : State) : State :=
  let o := ctlBase x + 0x300
  let v := s.reg o 0
  let f := bits v (lo + w - 1) lo
  s.setReg o (v - f * 2 ^ lo + satAdd w f d * 2 ^ lo)

/-- Sets a bit of QD_COH_ERR of quadrant q (R223). -/
def cohErr (q i : Nat) (s : State) : State :=
  let o := qdBase q + 0x210
  let v := s.reg o 0
  if bit v i then s else s.setReg o (v + 2 ^ i)

/-- A corrected error of a directory entry is counted (R221, QD_COH_ERR.DIR_CORRECTED). -/
def dirCorrected (q : Nat) (s : State) : State :=
  let o := qdBase q + 0x210
  let v := s.reg o 0
  s.setReg o (v - bits v 31 16 * 2 ^ 16 + satAdd 16 (bits v 31 16) 1 * 2 ^ 16)

/-- A reset of partition p (p below 8) or of the hub (8) is due (R221, R238). -/
def makeDue (p : Nat) (s : State) : State := { s with resetDue := kset p true s.resetDue }

/-- Corrected symbols of a granule: 256 within 24 hours of operating time put it on the offline list (R237). -/
def corrected (pa n : Nat) (s : State) : State :=
  let g := granOf pa
  let l := lastDay s ((kget g s.corr).getD []) ++ [(s.opSeconds, n)]
  let s := memErrAdd (ctlOf pa) 0 32 n { s with corr := kset g l s.corr }
  if 256 ≤ countSum l then offlineAdd pa 2 s else s

/-- Marks a line poisoned at its home (POISON, R218). -/
def poisonLine (n : Nat) (s : State) : State :=
  cohErr (homeOf (64 * n)) 1 (s.setLine n { s.line n with poison := true })

/-- An integrity failure (R236, R238, R458): counted, and a SECURITY event at most once a slot a millisecond when the
granule's slot is ACTIVE. -/
def integrityFail (n : Nat) (s : State) : State :=
  let pa := 64 * n
  let s := memErrAdd (ctlOf pa) 48 16 1 s
  let k := (s.gran (granOf pa)).keySlot.val
  if ((kget k s.keys).getD {}).state = 1 then
    let s := { s with secIntegrity := satAdd 32 s.secIntegrity 1 }
    let recent := match kget k s.secLast with
      | none => false
      | some t => s.aon < t + 100000
    if recent then s
    else hubEvent 0x30 1 (put 0 8 1 + put 8 8 k + put 64 64 pa) { s with secLast := kset k s.aon s.secLast }
  else s

/-- One transfer of a line to or from its memory: the heat of its granule at its home (R250). -/
def heatOf (m : KV Nat) (n : Nat) : KV Nat :=
  let k := granOf (64 * n) * 8 + homeOf (64 * n)
  kset k (satAdd 16 ((kget k m).getD 0) 1) m

def heatUp (n : Nat) (s : State) : State := { s with heat := heatOf s.heat n }

/-! ### Keys of lines, their seals and their metadata (R231, R234 to R236, R456, R460) -/

/-- QD_PCG_MODE: every quadrant holds the same value (R231). -/
def State.pcgMode (s : State) : Nat := s.reg (qdBase 0 + 0x300) 0

/-- A granule is fine: tier A, and its group k = G mod 8 is in fine mode (R231). -/
def isFine (g : Nat) (s : State) : Bool := tierOf (g * 0x200000) == 0 && bit s.pcgMode (g % 8)

/-- The number of the hub memory key. -/
def hubKeyNo : Nat := 2 ^ 40

/-- The number of the key that a slot holds: one for each binding of each slot. -/
def slotKeyNo (k : Nat) (s : State) : Nat := k + 8 * ((kget k s.keys).getD {}).bindCount

/-- The number of the key that a granule's lines are read and written under (R457). -/
def granKeyNo (g : Nat) (s : State) : Nat := if (s.gran g).hub then hubKeyNo else slotKeyNo (s.gran g).keySlot.val s

/-- The number of the key that a line in memory is sealed under. -/
def sealedUnder (n : Nat) (s : State) : Nat := (kget n s.sealed).getD (s.gran (granOf (64 * n))).sealNo

/-- A line was sealed under another key than the one it is read under: no MAC matches (R236, R460). -/
def keyDiffers (n : Nat) (s : State) : Bool :=
  let g := granOf (64 * n)
  !(s.gran g).hub && sealedUnder n s != granKeyNo g s

/-- A line that is written is sealed under the key of its granule. -/
def sealOf (s : State) (m : KV Nat) (n : Nat) : KV Nat :=
  let g := granOf (64 * n)
  if granKeyNo g s = (s.gran g).sealNo then kdel n m else kset n (granKeyNo g s) m

/-- The 96 bytes of the key that a granule's lines are sealed under (R445, R457). -/
def granKey (g : Nat) (s : State) : Nat :=
  if (s.gran g).hub then s.sec.hubKey else ((kget (s.gran g).keySlot.val s.keys).getD {}).key

/-- K1, K2 and K3 of a key (R456). -/
def key1 (k : Nat) : Nat := bytesAt k 0 32
def key2 (k : Nat) : Nat := bytesAt k 32 32
def key3 (k : Nat) : Nat := bytesAt k 64 32

/-- The ciphertext of a unit of `len` bytes at a device address (R456). -/
def sealUnit (k pa len plain : Nat) : Nat :=
  (Config.xtsEncrypt (key1 k + 2 ^ 256 * key2 k) pa len plain).toNat % 2 ^ (8 * len)

/-- The tag over an address and ciphertext (R456). -/
def macUnit (k pa len ct w : Nat) : Nat := (Config.cmac (key3 k) (8 + len) (pa % 2 ^ 64 + 2 ^ 64 * ct)).toNat % 2 ^ w

/-- A line's plain bytes as its home last wrote them. -/
def State.lineData (s : State) (n : Nat) : LineData := BitVec.ofNat 512 (mread s.mem (64 * n) 64)

/-- The ciphertext of line n as memory holds it: one unit, or the two halves of a fine line. -/
def lineCipher (n : Nat) (s : State) : Nat :=
  let k := granKey (granOf (64 * n)) s
  let d := (s.lineData n).toNat
  if isFine (granOf (64 * n)) s then
    sealUnit k (64 * n) 32 (d % 2 ^ 256) + 2 ^ 256 * sealUnit k (64 * n + 32) 32 (d / 2 ^ 256)
  else sealUnit k (64 * n) 64 d

/-- The 128 metadata bits of a tier A line (R234). -/
def lineMeta (n : Nat) (s : State) : Nat :=
  let k := granKey (granOf (64 * n)) s
  let ct := lineCipher n s
  let poison := b2n (s.line n).poison
  if isFine (granOf (64 * n)) s then
    let half (h : Nat) : Nat :=
      let c := bytesAt ct (32 * h) 32
      put 0 32 (Config.checkSymbols 4 32 c).toNat + put 32 28 (macUnit k (64 * n + 32 * h) 32 c 28) + put 60 1 poison
    half 0 + 2 ^ 64 * half 1
  else put 0 64 (Config.checkSymbols 8 64 ct).toNat + put 64 56 (macUnit k (64 * n) 64 ct 56) + put 120 1 poison

/-- Check symbols of a line of tier B or C, in the spare bits of its DRAM data path (R235). -/
def lineChecks (n : Nat) (s : State) : Nat :=
  (Config.checkSymbols (if tierOf (64 * n) = 1 then 8 else 16) 64 (lineCipher n s)).toNat

/-- The carve-out entry of a 128-byte frame of tier B or C, whose first line is n (R235). -/
def frameEntry (n : Nat) (s : State) : Nat :=
  let k := granKey (granOf (64 * n)) s
  put 0 56 (macUnit k (64 * n) 128 (lineCipher n s + 2 ^ 512 * lineCipher (n + 1) s) 56) +
    put 56 1 (b2n (s.line n).poison) + put 57 1 (b2n (s.line (n + 1)).poison)

/-! ### The memory-side cache (R230, R233, R235, R366, R374) -/

/-- The way mask of partition p at quadrant q (PT_MSC_WAYS, R374). -/
def State.mscMask (s : State) (p q : Nat) : Nat :=
  bits (s.reg (ptBase p + 0x100 + 8 * (q / 4)) 0xFFFFFFFFFFFFFFFF) (16 * (q % 4) + 15) (16 * (q % 4))

/-- The ways a request may allocate in at the home of line n: every way for a hub agent. -/
def waysFor (n part : Nat) (hubAgent : Bool) (s : State) : Nat :=
  if hubAgent then 0xFFFF else s.mscMask part (homeOf (64 * n))

def MscFrame.sector (f : MscFrame) (n : Nat) : Option Bool := if n % 2 = 0 then f.lo else f.hi

def MscFrame.put (f : MscFrame) (n : Nat) (v : Option Bool) : MscFrame :=
  if n % 2 = 0 then { f with lo := v } else { f with hi := v }

/-- The sector of line n: none when the cache does not hold it, else whether it is dirty. -/
def State.mscSector (s : State) (n : Nat) : Option Bool := (kget (n / 2) s.msc).bind (·.sector n)

/-- The lines of a frame that are dirty. -/
def mscDirty (e : Nat × MscFrame) : List Nat :=
  (if e.2.lo = some true then [2 * e.1] else []) ++ (if e.2.hi = some true then [2 * e.1 + 1] else [])

/-- A frame's other line must be read to form the MAC when one line is written (R235). -/
def readsPair (n : Nat) (held : Option MscFrame) : Bool :=
  tierOf (64 * n) ≠ 0 && ((held.bind (·.sector (n ^^^ 1))).isNone)

/-- Dirty lines of a frame leave for memory: transfers and seals (R235, R250, R456). -/
def writeBack (e : Nat × MscFrame) (s : State) : State :=
  let l := mscDirty e
  { s with heat := (l.foldl heatOf ((l.filter fun n => readsPair n (some e.2)).foldl (fun h n => heatOf h (n ^^^ 1)) s.heat))
           sealed := l.foldl (sealOf s) s.sealed }

/-- Frames of the set in which frame f of its quadrant lies: 32,768 sets (R230). -/
def mscSet (f : Nat) (s : State) : List (Nat × MscFrame) :=
  s.msc.filter fun e => homeOf (128 * e.1) == homeOf (128 * f) &&
    Config.setHash 5 e.1 % 32768 == Config.setHash 5 f % 32768

/-- The least recently used of a list of frames. -/
def lruFrame (l : List (Nat × MscFrame)) : Option (Nat × MscFrame) :=
  l.foldl (fun b e => match b with
    | none => some e
    | some x => if e.2.use < x.2.use then some e else some x) none

/-- Brings in frame f, in a free way of the mask or in place of the least recently used of its ways (R374): no frame need
leave while the quadrant holds fewer frames than the mask has ways. -/
def mscAlloc (f mask : Nat) (s : State) : State :=
  let used := mscSet f s
  let free := (List.range 16).find? fun w => bit mask w && !(used.any fun e => e.2.way == w)
  let full := popCount 16 mask ≤ kcount (fun e _ => homeOf (128 * e) == homeOf (128 * f)) s.msc && free.isNone
  let old := if full then lruFrame (used.filter fun e => bit mask e.2.way) else none
  let way := match free with
    | some w => w
    | none => (old.map (·.2.way)).getD 0
  let t := match old with
    | some e => writeBack e s
    | none => s
  { t with msc := kset f { way, use := s.useStamp } (match old with
    | some e => kdel e.1 s.msc
    | none => s.msc) }

/-- Line n is held, dirty or clean; `mask` names the ways it may come into. -/
def mscFill (n mask : Nat) (dirty : Bool) (s : State) : State :=
  let s := if (kget (n / 2) s.msc).isSome then s else mscAlloc (n / 2) mask s
  let f := (kget (n / 2) s.msc).getD { way := 0 }
  let was := f.sector n = some true
  { s with msc := kset (n / 2) { f.put n (some (dirty || was)) with use := s.useStamp } s.msc }

/-- Drops frames a test picks; their dirty lines are written back first where `back` says so. -/
def mscDrop (pick : Nat → Bool) (back : Bool) (s : State) : State :=
  let l := s.msc.filter fun e => pick (2 * e.1)
  let s := if back then foldS l writeBack s else s
  { s with msc := kfilter (fun f _ => !pick (2 * f)) s.msc }

/-! ### Reads and writes at a home (R190, R218, R230, R233 to R238) -/

/-- What the environment makes of the DRAM read of a line. -/
def mediaOf (n : Nat) (s : State) : Option (Nat × Nat × Bool) :=
  s.media.findSome? fun e => match e.2 with
    | .symbols a b c => if e.1 = n then some (a, b, c) else none
    | _ => none

/-- Symbol errors beyond the correcting power of a tier and mode (R236): 4 in a line, 2 in a half of a fine line, 8 in
tier C. -/
def beyond (n lower upper : Nat) (s : State) : Bool :=
  match tierOf (64 * n) with
  | 0 => if isFine (granOf (64 * n)) s then decide (2 < lower) || decide (2 < upper) else decide (4 < lower + upper)
  | 1 => decide (4 < lower + upper)
  | _ => decide (8 < lower + upper)

/-- An uncorrectable line is poisoned, and its granule goes on the offline list (R238). -/
def lineBad (n : Nat) (s : State) : State :=
  offlineAdd (64 * n) 1 (memErrAdd (ctlOf (64 * n)) 32 16 1 (poisonLine n s))

/-- Reads a line from DRAM (R236): 0 data, 1 found uncorrectable now, 2 integrity failure, 3 poisoned before. -/
def mediaRead (n : Nat) (s : State) : Nat × State :=
  let (a, b, mac) := (mediaOf n s).getD (0, 0, false)
  if beyond n a b s then (1, lineBad n s)
  else
    let s := if a + b = 0 then s else corrected (64 * n) (a + b) s
    if mac || keyDiffers n s then (2, integrityFail n s) else (if (s.line n).poison then 3 else 0, s)

/-- A home's read of a line, as mediaRead gives it, with nothing counted for a hit. A miss of a line access fills the
cache in a way of `mask`, with the frame's other line where its MAC needs it (R230, R235); a narrow one does not. -/
def homeTouch (n mask : Nat) (narrow : Bool) (s : State) : Nat × State :=
  match s.mscSector n with
  | some d => (if (s.line n).poison then 3 else 0, mscFill n mask d s)
  | none =>
    let pair := readsPair n (kget (n / 2) s.msc)
    let s := if narrow then s else heatUp n s
    let s := if pair then heatUp (n ^^^ 1) s else s
    let (r, s) := mediaRead n s
    if narrow || mask = 0 || r = 2 then (r, s)
    else
      let s := mscFill n mask false s
      (r, if pair then mscFill (n ^^^ 1) mask false s else s)

/-- Performs a write of the masked bytes of a line at home (R190, R218, R230): the cache takes it where it holds the line or
may allocate, else it goes to memory. A full clean write clears poison. -/
def homeWrite (n mask : Nat) (data : LineData) (poison : Bool) (ways : Nat) (narrow : Bool) (s : State) : State :=
  let full := mask = 2 ^ 64 - 1
  let s := if (s.mscSector n).isSome || (ways ≠ 0 && !narrow) then mscFill n ways true s
    else
      let pair := readsPair n (kget (n / 2) s.msc)
      let s := if narrow then s else heatUp n s
      let s := if pair then heatUp (n ^^^ 1) s else s
      { s with sealed := sealOf s s.sealed n }
  let s := { s with mem := mwriteMask s.mem (64 * n) 64 mask data.toNat }
  if poison then poisonLine n s
  else if full then s.setLine n { s.line n with poison := false }
  else s

/-! ### The ownership check (R265) -/

/-- The refusal of a request by its home, before any snoop: hole, ownership, kind (R204, R215, R217, R229, R265). -/
def homeRefusal (m : Msg) (s : State) : Option Nat :=
  let pa := m.addr.toNat
  let g := s.gran (granOf pa)
  if !s.populated pa then some stBadParam
  else if g.hub then (if m.hubAgent then none else some stNotPermitted)
  else if !g.owned || g.owner != m.part then some stNotPermitted
  else if g.struct && !m.hubAgent then some stNotPermitted
  else if g.needsScrub then some stNotPermitted
  else if ((kget g.keySlot.val s.keys).getD {}).state != 1 then some stNotPermitted
  else if m.stream && (m.op == .rdShared || m.op == .rdUnique || m.op == .upgrade || m.op == .wbDirty ||
      m.op == .evictClean) then some stBadParam
  else if m.op == .atomic then
    let aux := m.aux.toNat
    let size := if bit aux 4 then 8 else 4
    if bits aux 3 0 > 9 || bits aux 7 5 = 0 || bits aux 7 5 > 5 || pa % size ≠ 0 then some stBadParam else none
  else none

/-! ### Atomic operations (R58, R217) -/

/-- The new value of an atomic of `w` bits: operation code, memory, operand, compare value. -/
def atomicNew (op w : Nat) (old operand compare : Nat) : Nat :=
  let o := BitVec.ofNat w old
  let r := BitVec.ofNat w operand
  match op with
  | 0 => r.toNat
  | 1 => (o + r).toNat
  | 2 => (o &&& r).toNat
  | 3 => (o ||| r).toNat
  | 4 => (o ^^^ r).toNat
  | 5 => (if o.slt r then o else r).toNat
  | 6 => (if o.slt r then r else o).toNat
  | 7 => min o.toNat r.toNat
  | 8 => max o.toNat r.toNat
  | _ => if o = BitVec.ofNat w compare then r.toNat else o.toNat

/-- Performs an atomic on a line: old value and new line. -/
def atomicOn (data : LineData) (off size op operand compare : Nat) : Nat × LineData :=
  let old := bytesAt data.toNat off size
  let new := atomicNew op (8 * size) old operand compare
  (old, BitVec.ofNat 512 (mergeBytes 64 (maskFrom off size) (new <<< (8 * off)) data.toNat))

/-! ### Sending (R201) -/

/-- The key under which an answer waits for engine or agent `who`. -/
def ansKey (who pa : Nat) : Nat := who * 2 ^ 48 + pa / 64

/-- Requester code of the host agent. -/
def whoHost : Nat := 0x50000

/-- Channel of a message (R201, R203): 0 REQ, 1 SNP, 2 RSP, 3 DAT. -/
def chanOf : MOp → Nat
  | .snpShared | .snpUnique | .snpInv | .snpCurrent | .snpRecall => 1
  | .snpRsp | .grant | .cmp | .ack => 2
  | .data | .snpData => 3
  | _ => 0

/-- BODY_UNITS of a message (R403). -/
def unitsOf : MOp → Nat
  | .atomic => 2
  | .data | .snpData | .wrFull | .wbDirty => 5
  | .wrPartial => 6
  | _ => 1

/-- Opcode of a request (R203). -/
def reqCode : MOp → Nat
  | .rdShared => 1
  | .rdUnique => 2
  | .upgrade => 3
  | .rdOnce => 4
  | .wrFull => 5
  | .wrPartial => 6
  | .wbDirty => 7
  | .evictClean => 8
  | .atomic => 9
  | _ => 0

/-- Requester code of the CXL.io requests of the die at site n. -/
def whoCxlIo (n : Nat) : Nat := 0x50010 + n

/-- What a CXL die gets of a message (R408, R409); `code` is the opcode of its request that a CMP answers. -/
def cxlKind (n code : Nat) (m : Msg) : Nat :=
  match m.op with
  | .snpCurrent => 1
  | .snpShared | .snpUnique | .snpInv | .snpRecall => 0
  | .rdOnce => 5
  | .wrFull => 6
  | .wrPartial => 7
  | _ =>
    if m.who = whoCxlIo n then 8
    else if m.op == .cmp && m.aux ≠ 0 then (if 5 ≤ code && code ≤ 7 then 4 else 3) else 2

/-- Sends what the credits allow, each channel in order (R404). -/
def sitePump (n : Nat) (s : State) : State :=
  let x := s.site n
  let (tx, kept, s) := x.txq.foldl (fun (a : KV Nat × List Msg × State) m =>
    let c := chanOf m.op
    let have_ := (kget c a.1).getD 0
    let cost := 1 + unitsOf m.op
    if (a.2.1.any fun k => chanOf k.op = c) || have_ < cost then (a.1, a.2.1 ++ [m], a.2.2)
    else (kset c (have_ - cost) a.1, a.2.1, emit (.die n m) a.2.2)) (x.tx, [], s)
  s.setSite n { s.site n with tx, txq := kept }

/-- Sends a message to the die of site n; a die that is not admitted gets nothing. A reply ends the die's request. -/
def sendDie (n : Nat) (m : Msg) (s : State) : State :=
  let x := s.site n
  if x.state ≠ 4 && x.state ≠ 5 then s
  else
    let m := { m with note := 0 }
    let ends := (m.op == .data || m.op == .cmp || m.op == .grant) && m.who = 0
    let code := (kget m.txn.toNat x.reqs).getD 0 % 64
    let x := { x with reqs := if ends then kdel m.txn.toNat x.reqs else x.reqs }
    if x.cxl then emit (.cxl n (cxlKind n code m) m) (s.setSite n x)
    else sitePump n (s.setSite n { x with txq := x.txq ++ [m] })

/-- Sends a message: to a partner die, else in flight inside the hub. -/
def sendMsg (m : Msg) (s : State) : State :=
  let d := m.dst.toNat
  if 0xC8 ≤ d && d ≤ 0xCB then sendDie (d - 0xC8) m s else { s with net := s.net ++ [m] }

/-- The agent identifier of a home (R192). -/
def homeAgent (n : Nat) : BitVec 8 := BitVec.ofNat 8 (0xD0 + homeOf (64 * n))

/-- The line whose home serves a request: its own, or the destination's while a move forwards it (R247). -/
def lineOf (m : Msg) : Nat := m.fwd.getD (m.addr.toNat / 64)

/-- A reply of the home to the request m. -/
def replyTo (m : Msg) (op : MOp) (st : LSt) (status : Nat) (data : LineData) (poison : Bool) : Msg :=
  { op, state := st, poison, txn := m.txn, src := homeAgent (m.addr.toNat / 64), dst := m.src,
    aux := BitVec.ofNat 16 status, addr := BitVec.ofNat 48 (m.addr.toNat / 64 * 64), data, part := m.part, ctx := m.ctx,
    who := m.who }

/-- The reply to a request that meets an integrity failure (R236). DESIGN CHOICE (log 91): its status is ST_POISONED. -/
def replyBad (m : Msg) : Msg := { replyTo m .cmp .I stPoisoned 0 false with note := 2 }

/-- Data read at home for a request: `r` is what homeTouch found. -/
def replyData (m : Msg) (st : LSt) (data : LineData) (r : Nat) : Msg :=
  { replyTo m .data st stOk data (r == 1 || r == 3) with note := if r = 1 then 1 else 0 }

/-! ### The home (R196, R211 to R215) -/

/-- Candidates of a BCAST snoop (R199): every cluster cache and every admitted die that caches. -/
def bcastAgents (s : State) : List Nat :=
  List.range 200 ++ ((s.sites.filter fun x => (x.2.state == 4 || x.2.state == 5) && x.2.caches).map fun x => 0xC8 + x.1)

/-- The sharers an entry names, or every candidate in BCAST mode. -/
def sharersOf (d : Dir) (s : State) : List Nat := if d.bcast then bcastAgents s else d.sharers

/-- The snoops of a request (R211): agent and snoop. -/
def snoopsFor (m : Msg) (d : Dir) (s : State) : List (Nat × MOp) :=
  let a := m.src.toNat
  let owner (op : MOp) (incl : Bool) : List (Nat × MOp) := match d.owner with
    | some o => if o ≠ a || incl then [(o, op)] else []
    | none => []
  let share (incl : Bool) : List (Nat × MOp) :=
    ((sharersOf d s).filter fun x => (x ≠ a || incl) && d.owner != some x).map fun x => (x, .snpInv)
  match m.op with
  | .rdShared => owner .snpShared false
  | .rdOnce => if m.stream then [] else owner .snpCurrent false
  | .rdUnique | .upgrade => owner .snpUnique false ++ share false
  | .wrFull | .wrPartial | .atomic => if m.stream then [] else owner .snpUnique true ++ share true
  | _ => []

/-- An UPGRADE that keeps its copy (R211): a is the OWNER, or a sharer pointer with BCAST clear. -/
def keepsCopy (m : Msg) (d : Dir) : Bool :=
  m.op == .upgrade && (d.owner == some m.src.toNat || (!d.bcast && d.sharers.contains m.src.toNat))

/-- Entries of a home in use (QD_DIR_STAT). -/
def dirCount (q : Nat) (s : State) : Nat := kcount (fun n l => homeOf (64 * n) == q && l.dir.isSome) s.lines

/-- Adds a sharer: the fifth sets BCAST (R199). -/
def Dir.addSharer (d : Dir) (a : Nat) : Dir :=
  if d.bcast || d.sharers.contains a then d
  else if d.sharers.length < 4 then { d with sharers := d.sharers ++ [a] } else { d with bcast := true, sharers := [] }

/-- An entry with no holder is freed (R214). -/
def Dir.norm (d : Dir) : Option Dir := if d.owner.isNone && d.sharers.isEmpty && !d.bcast then none else some d

/-- The entry the answers leave (R214): an agent left in O, M or E owns, agents left in S share. An EX entry has no other
holder, and BCAST clears (R199). -/
def rebuild (d : Dir) (left : KV Nat) : Dir :=
  left.foldl (fun (d : Dir) (e : Nat × Nat) =>
    let d := { d with owner := if d.owner = some e.1 then none else d.owner,
                      sharers := d.sharers.filter (· ≠ e.1) }
    if e.2 = 3 then { d with owner := some e.1, ow := true }
    else if e.2 = 4 || e.2 = 2 then { d with owner := some e.1, ow := false, sharers := [], bcast := false }
    else if e.2 = 0 then d
    else d.addSharer e.1) d

/-- The bytes a request asks for lie within one half of a STREAM line of a fine granule (R233). -/
def isNarrow (m : Msg) (s : State) : Bool :=
  m.stream && isFine (granOf (64 * lineOf m)) s && m.mask ≠ 0 &&
    (m.mask.toNat < 2 ^ 32 || m.mask.toNat % 2 ^ 32 = 0)

/-- Performs an atomic on a STREAM line at memory (R215, R216): on the cached line where the home holds it, else in the base
die, which moves no line, or in the controller, which reads and writes the line. -/
def memAtomic (n : Nat) (s : State) : Nat × State :=
  match s.mscSector n with
  | some _ => homeTouch n 0 true s
  | none => if tierOf (64 * n) = 0 then mediaRead n s else mediaRead n (heatUp n (heatUp n s))

/-- The key slot of a line's granule is DRAINING (R459). -/
def slotDraining (n : Nat) (s : State) : Bool :=
  let g := s.gran (granOf (64 * n))
  !g.hub && ((kget g.keySlot.val s.keys).getD {}).state == 2

/-- Replies to a request whose snoops are answered, and rebuilds the entry (R212 to R214). -/
def homeFinish (n : Nat) (t : HomeTx) (s : State) : State :=
  let m := t.req
  let a := m.src.toNat
  let d := ((s.line n).dir).getD {}
  let d' := rebuild d t.left
  let ways := waysFor n m.part.val m.hubAgent s
  let narrow := isNarrow m s
  -- R213: data of an agent left in I is written at home, unless it goes to a requester granted M
  let gotI := t.left.any fun e => e.2 == 0
  let forwardM := (m.op == .rdUnique || m.op == .upgrade) && !t.keep && t.why == .request
  let s := match t.got with
    | some (data, p) =>
      -- R459: what the recall of a slot being drained returns is discarded
      if gotI && !forwardM && !(t.why == .hub && slotDraining n s) then homeWrite n (2 ^ 64 - 1) data p ways false s else s
    | none => s
  let setDir (d : Option Dir) (busy : Option HomeTx) (s : State) : State :=
    s.setLine n { s.line n with dir := d, tx := busy }
  -- R200, R221, R222: a recall from every holder frees the entry
  if t.why ≠ .request then setDir (match t.why with
      | .evict _ | .hub => none
      | _ => d'.norm) none s
  else match m.op with
  | .rdShared =>
    let (r, s) := if t.got.isSome then (0, s) else homeTouch n ways false s
    let others := d'.owner.isSome && d'.owner != some a || d'.bcast || d'.sharers.any (· ≠ a)
    let reply (st : LSt) : Msg := match t.got with
      | some (x, p) => replyTo m .data st stOk x p
      | none => replyData m st (s.lineData n) r
    if r = 2 then setDir d'.norm none (sendMsg (replyBad m) s)
    else if !others && !m.noE then
      setDir (some { owner := some a, use := s.useStamp }) (some { t with ackOf := some .E }) (sendMsg (reply .E) s)
    else
      let d2 := if d'.owner = some a then { d' with owner := none } else d'
      setDir (some { d2.addSharer a with use := s.useStamp }) (some { t with ackOf := some .S }) (sendMsg (reply .S) s)
  | .rdUnique | .upgrade =>
    let own : Option Dir := some { owner := some a, use := s.useStamp }
    if t.keep then
      setDir own (some { t with ackOf := some .M }) (sendMsg (replyTo m .grant .M stOk 0 false) s)
    else match t.got with
      | some (x, p) =>
        setDir own (some { t with ackOf := some .M }) (sendMsg (replyTo m .data .M stOk x p) s)
      | none =>
        let (r, s) := homeTouch n ways false s
        if r = 2 then setDir d'.norm none (sendMsg (replyBad m) s)
        else setDir own (some { t with ackOf := some .E }) (sendMsg (replyData m .E (s.lineData n) r) s)
  | .rdOnce =>
    match t.got with
    | some (x, p) => setDir d'.norm none (sendMsg (replyTo m .data .I stOk x p) s)
    | none =>
      let (r, s) := homeTouch n ways narrow s
      setDir d'.norm none (sendMsg (if r = 2 then replyBad m else replyData m .I (s.lineData n) r) s)
  | .wrFull =>
    let note := b2n (s.line n).poison
    setDir (if m.stream then d'.norm else none) none
      (sendMsg { replyTo m .cmp .I stOk 0 false with note } (homeWrite n (2 ^ 64 - 1) m.data m.poison ways false s))
  | .wrPartial =>
    -- a partial write of a line reads the line first, unless it is narrow (R233, R235)
    let reads := !(m.mask.toNat = 2 ^ 64 - 1 || m.mask = 0 || narrow || t.got.isSome)
    let (r, s) := if reads then homeTouch n ways false s else (0, s)
    let note := if r = 2 then 2 else if r = 1 || (s.line n).poison then 1 else 0
    setDir (if m.stream then d'.norm else none) none
      (sendMsg { replyTo m .cmp .I stOk 0 false with note }
        (if m.mask = 0 then s else homeWrite n m.mask.toNat m.data m.poison ways narrow s))
  | .atomic =>
    let (r, s) := if m.stream then memAtomic n s else homeTouch n ways false s
    let aux := m.aux.toNat
    let off := m.addr.toNat % 64
    let size := if bit aux 4 then 8 else 4
    let put (new : LineData) (s : State) : State :=
      homeWrite n (maskFrom off size) new false (if m.stream then 0 else ways) m.stream s
    if r = 2 then
      -- an AtomicOp of the host is performed (R284); what it reads is free
      let new := (atomicOn (Config.freeLine s.free) off size (bits aux 3 0) m.operand.toNat m.compare.toNat).2
      let s := if m.who = whoHost then put new s.bump else s
      setDir d'.norm none (sendMsg (replyBad m) s)
    else
      let (old, new) := atomicOn (s.lineData n) off size (bits aux 3 0) m.operand.toNat m.compare.toNat
      let pz := (s.line n).poison
      setDir (if m.stream then d'.norm else none) none
        (sendMsg { replyTo m .data .I stOk (BitVec.ofNat 512 old) pz with note := if r = 1 then 1 else 0 } (put new s))
  | _ => setDir d'.norm none s

/-- An entry of the set that R200 evicts: SH before EX before OW, then the least recently used; not busy. -/
def victim (q : Nat) (set : Nat → Bool) (s : State) : Option Nat :=
  let c := s.lines.filterMap fun e => match e.2.dir with
    | some d => if homeOf (64 * e.1) == q && set e.1 && e.2.tx.isNone then some (e.1, d) else none
    | none => none
  let rank (d : Dir) : Nat := if d.owner.isNone then 0 else if d.ow then 2 else 1
  (c.foldl (fun (b : Option (Nat × Dir)) e => match b with
    | none => some e
    | some x => if rank e.2 < rank x.2 || (rank e.2 = rank x.2 && e.2.use < x.2.use) then some e else b) none).map (·.1)

/-- Starts a transaction of line n with its snoops (R211), or finishes it at once. -/
def homeBegin (n : Nat) (t : HomeTx) (snoops : List (Nat × MOp)) (s : State) : State :=
  if snoops.isEmpty then homeFinish n t s
  else
    let tx := s.snpTxn
    let bc := match (s.line n).dir with
      | some d => d.bcast
      | none => false
    let s := s.setLine n { s.line n with tx := some { t with waiting := snoops.map (·.1), snpTxn := tx } }
    let s := { s with snpTxn := tx + 1 }
    let s := if bc then
        let o := qdBase (homeOf (64 * n)) + 0x208
        s.setReg (o + 0x10000000) (s.reg (o + 0x10000000) 0 + 1)
      else s
    foldS snoops (fun e s => sendMsg
      { op := e.2, txn := tx, src := homeAgent n, dst := BitVec.ofNat 8 e.1, addr := BitVec.ofNat 48 (64 * n),
        part := t.req.part, ctx := t.req.ctx } s) s

/-- Snoops that recall a line from every holder (R200, R221, R222). -/
def recallSnoops (d : Dir) (s : State) : List (Nat × MOp) :=
  (match d.owner with
    | some o => [(o, MOp.snpRecall)]
    | none => []) ++ ((sharersOf d s).filter fun x => d.owner != some x).map fun x => (x, .snpRecall)

/-- Requester codes that act for no context of this hub: the host's BAR4 accesses and Sloyth requests of peers. -/
def noContext (who : Nat) : Bool := who == 0x50000 || who == 0x5FFFE || (0x30000 ≤ who && who < 0x40000)

/-- Bytes read and written at homes by a context's requests (R336), kept until its work completes. -/
def countTraffic (m : Msg) (s : State) : State :=
  if m.hubAgent || noContext m.who then s else
  let (r, w) := (kget m.ctx.toNat s.traffic).getD (0, 0)
  let (dr, dw) := match m.op with
    | .wrFull | .wbDirty => (0, 64)
    | .wrPartial => (0, popCount 64 m.mask.toNat)
    | .atomic => (8, 8)
    | .upgrade | .evictClean => (0, 0)
    | _ => (64, 0)
  { s with traffic := kset m.ctx.toNat (r + dr, w + dw) s.traffic }

/-- The hub's own request on a line. -/
def hubReq (n : Nat) : Msg :=
  { op := .rdOnce, src := 0xFF, dst := homeAgent n, addr := BitVec.ofNat 48 (64 * n), hubAgent := true }

/-- Recalls line n from every holder its entry may have. -/
def recallAll (n : Nat) (s : State) : State :=
  homeBegin n { req := hubReq n, why := .hub } (recallSnoops (((s.line n).dir).getD {}) s) s

/-- The environment's error of the line's directory entry in this step. -/
def dirErrOf (n : Nat) (s : State) : Option Media :=
  (s.media.find? fun e => e.1 == n && (e.2 == .dirCorrected || e.2 == .dirUncorrectable)).map (·.2)

/-- An uncorrectable entry (R221): its holders are unknown, every candidate is recalled, what one returns is written at home,
and the partition that owns the granule is to be reset. -/
def dirLost (n : Nat) (s : State) : State :=
  let s := cohErr (homeOf (64 * n)) 0 s
  let s := s.setLine n { s.line n with dir := some { bcast := true } }
  let g := s.gran (granOf (64 * n))
  let s := if g.owned then makeDue g.owner.val s else s
  homeBegin n { req := hubReq n, why := .hub, unknown := true } (recallSnoops { bcast := true } s) s

/-- A page's frame is the source of a move (R247). -/
def frameLines (g1 : Bool) : Nat := if g1 then 16777216 else 32768

/-- Line n lies in the frame. -/
def inFrame (f : Nat) (g1 : Bool) (n : Nat) : Bool := f / 64 ≤ n && n < f / 64 + frameLines g1

/-- The move whose source holds line n. -/
def moveOf (n : Nat) (s : State) : Option Move := s.moves.find? fun m => inFrame m.src m.g1 n

/-- A move forwards a request that carries a source address, from its step 5 to its step 7 (R247). -/
def forward (m : Msg) (s : State) : Msg :=
  let n := m.addr.toNat / 64
  match moveOf n s with
  | some v => if v.forwards then { m with fwd := some (v.dst / 64 + (n - v.src / 64)) } else { m with fwd := none }
  | none => { m with fwd := none }

/-- A request that takes nothing new of a line: a write-back or an eviction. -/
def gives (op : MOp) : Bool := op == .wbDirty || op == .evictClean

/-- An object is held by a change (R359), as the work of a context sees it: not by one that still waits for a queue of the
context to drain. -/
def changeHolds (o ctx : Nat) (s : State) : Bool :=
  s.changes.any fun h => h.objs.contains o && !(s.queues.any fun q => q.2.ctx == ctx && !q.2.flight.isEmpty &&
    (q.2.stopping.map fun k => k.path == h.pkt.path && k.seq == h.pkt.seq).getD false)

/-- The granule of a line is held by a change (R359). -/
def granHeld (n ctx : Nat) (s : State) : Bool := changeHolds (objGran (granOf (64 * n))) ctx s

/-- The request waits at the home (R243, R247, R359): its page's recalls are out, its stack is in self-refresh and the
memory-side cache does not hold the line, or a change holds its granule. -/
def homeHolds (m : Msg) (s : State) : Option Hold :=
  let n := lineOf m
  if gives m.op then none
  else if m.fwd.isNone && (moveOf n s).isSome then some .page
  else if tierOf (64 * n) = 0 && (s.ctl (ctlOf (64 * n))).step = 5 && (s.mscSector n).isNone then some .asleep
  else if 0xC8 ≤ m.src.toNat && m.src.toNat ≤ 0xCB && granHeld n (2 ^ 20) s then some .held
  else none

/-- Serves a request on a line that is not busy (R196, R200, R211, R215). -/
def homeServe (m : Msg) (s : State) : State :=
  let n := lineOf m
  let q := homeOf (64 * n)
  let wait (h : Hold) (s : State) : State :=
    s.setLine n { s.line n with queue := m :: (s.line n).queue, hold := some h }
  match homeRefusal m s with
  | some st => sendMsg (replyTo m .cmp .I st 0 false) s
  | none => match homeHolds m s with
  | some h => wait h s
  | none =>
    let err : Option Media := if m.stream then none else dirErrOf n s
    if err = some Media.dirUncorrectable then
      let s := { s with media := s.media.filter fun e => !(e.1 == n && e.2 == Media.dirUncorrectable) }
      dirLost n (s.setLine n { s.line n with queue := m :: (s.line n).queue })
    else
    let s := if err = some Media.dirCorrected then dirCorrected q s else s
    let s := countTraffic m { s with useStamp := s.useStamp + 1 }
    let l := s.line n
    let a := m.src.toNat
    match m.op with
    | .wbDirty =>
      match l.dir with
      | some d =>
        if d.owner = some a then
          let s := homeWrite n (2 ^ 64 - 1) m.data m.poison (waysFor n m.part.val m.hubAgent s) false s
          sendMsg (replyTo m .cmp .I stOk 0 false)
            (s.setLine n { s.line n with dir := { d with owner := none, ow := false }.norm })
        else sendMsg (replyTo m .cmp .I stOk 0 false) s
      | none => sendMsg (replyTo m .cmp .I stOk 0 false) s
    | .evictClean =>
      let d' := match l.dir with
        | none => none
        | some d => if d.bcast then some d
          else { d with owner := if d.owner = some a then none else d.owner, sharers := d.sharers.filter (· ≠ a) }.norm
      sendMsg (replyTo m .cmp .I stOk 0 false) (s.setLine n { l with dir := d' })
    | _ =>
      let d := l.dir.getD {}
      let needs := l.dir.isNone && (m.op == .rdShared || m.op == .rdUnique || m.op == .upgrade)
      let sameSet (k : Nat) : Bool := Config.setHash 0 k % 16384 == Config.setHash 0 n % 16384
      if needs && dirCount q s ≥ 16 &&
          (s.lines.filter fun e => homeOf (64 * e.1) == q && e.2.dir.isSome && sameSet e.1).length ≥ 16 then
        -- DIRECTORY_EVICTION (R200): one entry goes, and the request waits in the line queue until an entry is free
        let v := victim q sameSet s
        let s := wait (.entry v) s
        match v with
        | none => s
        | some v =>
          let o := qdBase q + 0x208
          let s := s.setReg o ((s.reg o 0 + 1) % 2 ^ 48)
          homeBegin v { req := hubReq v, why := .evict n } (recallSnoops (((s.line v).dir).getD {}) s) s
      else homeBegin n { req := m, keep := keepsCopy m d } (snoopsFor m d s) s

/-- Serves the requests that wait on a line while it is not busy and nothing holds them (R196). -/
def homeNext (n : Nat) : Nat → State → State
  | 0, s => s
  | k + 1, s =>
    let l := s.line n
    match l.tx, l.hold, l.queue with
    | none, none, m :: t => homeNext n k (homeServe m (s.setLine n { l with queue := t }))
    | _, _, _ => s

/-- Takes the hold of a line away and goes on with its queue. -/
def homeResume (n : Nat) (s : State) : State := homeNext n 4096 (s.setLine n { s.line n with hold := none })

/-- Lines whose requests may go on now: no entry was free for them, or a page's move or a self-refresh held them. -/
def homeWake (s : State) : State :=
  let l := s.lines.filter fun e => match e.2.hold with
    | some (.entry (some _)) | none => false
    | some (.entry none) => true
    | some .page => (moveOf e.1 s).isNone
    | some .asleep => (s.ctl (ctlOf (64 * e.1))).step ≠ 5
    | some .held => !granHeld e.1 (2 ^ 20) s
  foldS (l.map (·.1)) homeResume s

/-- A request reaches its home (R196): served, or queued while the line is busy. -/
def homeAccept (m : Msg) (s : State) : State :=
  let m := forward m s
  let n := lineOf m
  let l := s.line n
  if l.tx.isSome || !l.queue.isEmpty then s.setLine n { l with queue := l.queue ++ [m] }
  else homeWake (homeServe m s)

/-- Code of a line state. -/
def codeOf : LSt → Nat
  | .I => 0
  | .S => 1
  | .E => 2
  | .O => 3
  | .M => 4

/-- A transaction of a line has ended: the request its eviction was for goes on first, then the line's own queue, then
requests elsewhere that found every entry busy (R196, R200). -/
def homeEnded (n : Nat) (why : Recall) (s : State) : State :=
  let s := match why with
    | .evict k => homeResume k s
    | _ => s
  homeWake (homeNext n 4096 s)

/-- The answer of agent a to the snoops of a busy line: the state it leaves, and its data (R212). -/
def homeTake (n a code : Nat) (got : Option (LineData × Bool)) (s : State) : State :=
  let l := s.line n
  match l.tx with
  | none => s
  | some t =>
    if !t.waiting.contains a then s
    else
      let t := { t with waiting := t.waiting.filter (· ≠ a), left := kset a code t.left,
                        got := if got.isSome then got else t.got }
      let s := s.setLine n { l with tx := some t }
      if !t.waiting.isEmpty then s else homeEnded n t.why (homeFinish n t s)

/-- A snoop answer reaches the home (R212): the last one lets the home reply. -/
def homeAnswer (m : Msg) (s : State) : State :=
  homeTake (m.addr.toNat / 64) m.src.toNat (codeOf m.state) (if m.op == .snpData then some (m.data, m.poison) else none) s

/-- ACK ends the transaction of a grant (R196). -/
def homeAck (m : Msg) (s : State) : State :=
  let n := lineOf m
  let l := s.line n
  match l.tx with
  | none => s
  | some t =>
    if t.ackOf.isSome && t.req.src == m.src then homeEnded n .request (s.setLine n { l with tx := none }) else s

/-! ### A cluster cache as an agent (R206 to R209, R218) -/

def stOf : Nat → LSt
  | 0 => .I
  | 1 => .S
  | 2 => .E
  | 3 => .O
  | _ => .M

/-- The state R207 leaves for a snoop. M answers SNP_SHARED with "data, O" (DESIGN CHOICE, log 10). -/
def snoopLeaves (op : MOp) (st : Nat) : Nat :=
  match op with
  | .snpShared => if st = 4 then 3 else if st = 2 then 1 else st
  | .snpCurrent => st
  | _ => 0

/-- A cluster cache answers a snoop (R207, R208); during the hold time the snoop is held. -/
def agentSnoop (m : Msg) (s : State) : State :=
  let g := m.dst.toNat
  let n := m.addr.toNat / 64
  let c := s.cluster g
  match kget n c.lines with
  | some l =>
    if l.stream then
      sendMsg { op := .snpRsp, state := .I, txn := m.txn, src := m.dst, dst := m.src, addr := m.addr } s
    else if l.hold then { s with heldSnp := kset (g * 2 ^ 48 + n) m s.heldSnp }
    else
      let evicting := kget n c.reqs == some 7 || kget n c.reqs == some 8
      let upg := kget n c.reqs == some 3
      let left := if evicting || (upg && m.op != .snpShared && m.op != .snpCurrent) then 0 else snoopLeaves m.op l.st
      let dirty := l.st = 3 || l.st = 4
      let lines := if left = 0 then kdel n c.lines else kset n { l with st := left } c.lines
      let s := s.setCluster g { c with lines }
      sendMsg { op := if dirty then .snpData else .snpRsp, state := stOf left, poison := dirty && l.poison, txn := m.txn,
                src := m.dst, dst := m.src, addr := m.addr, data := if dirty then l.data else 0 } s
  | none => sendMsg { op := .snpRsp, state := .I, txn := m.txn, src := m.dst, dst := m.src, addr := m.addr } s

/-- Some engine of cluster g waits for its access to line n. -/
def engineWaits (g n : Nat) (s : State) : Bool :=
  s.asked.any fun e => e.1 % 2 ^ 48 == n && (match kget (e.1 / 2 ^ 48) s.posted with
    | some p => p.cluster == some g
    | none => decide (0 < e.1 / 2 ^ 48) && decide (e.1 / 2 ^ 48 ≤ 16000) && (e.1 / 2 ^ 48 - 1) / 80 == g)

/-- A line that a cluster cache is granted: while an engine still waits to make the access, the hold time runs (R209). -/
def installLine (row : Bool) (g n code : Nat) (l : CLine) (s : State) : CLine :=
  let w := engineWaits g n s
  { l with hold := row || w, due := if !w then 0 else if code = 1 then 1 else 2 }

/-- A reply reaches a cluster cache or a hub agent (R206): DATA and GRANT with a state install the line and are
acknowledged; every other reply waits for the engine or agent that asked. DATA in place of a GRANT leaves M. -/
def agentReply (row : Bool) (m : Msg) (s : State) : State :=
  let g := m.dst.toNat
  let n := m.addr.toNat / 64
  let s := { s with reqTxn := kdel (4096 * g + m.txn.toNat) s.reqTxn }
  let ack : Msg := { op := .ack, txn := m.txn, src := m.dst, dst := m.src, addr := m.addr, fwd := m.fwd }
  if g < 200 && m.who = 0 then
    let c := s.cluster g
    let code := (kget n c.reqs).getD 0
    match m.op with
    | .cmp =>
      let s := s.setCluster g { c with reqs := kdel n c.reqs, lines := kdel n c.lines }
      if m.aux.toNat = stOk || code = 0 then s
      else
        let k := ansKey (0x60000 + g) m.addr.toNat
        { s with ans := kset k { status := if m.note = 2 then 0x100 else m.aux.toNat, data := 0, poison := false } s.ans }
    | .grant =>
      let lines := match kget n c.lines with
        | some l => kset n (installLine row g n code { l with st := 4 } s) c.lines
        | none => c.lines
      sendMsg ack (s.setCluster g { c with reqs := kdel n c.reqs, lines })
    | .data =>
      if m.state == .I then s
      else
        let l : CLine := { st := if code = 3 then 4 else codeOf m.state, stream := false, data := m.data, poison := m.poison,
                           found := m.note == 1 }
        sendMsg ack (s.setCluster g { c with reqs := kdel n c.reqs,
                                             lines := kset (lineOf m) (installLine row g n code l s) c.lines })
    | _ => s
  else if m.who = 0 || m.who = 0x5FFFF then s
  else
    let key := ansKey m.who m.addr.toNat
    { s with ans := kset key { status := if m.note = 2 && m.aux.toNat ≠ stOk then 0x100 else m.aux.toNat, data := m.data,
                               poison := m.poison || m.op == .cmp && m.note ≠ 0, found := m.note == 1 } s.ans,
             asked := kdel key s.asked }

/-- Delivers one message inside the hub. -/
def deliver (row : Bool) (m : Msg) (s : State) : State :=
  match m.op with
  | .rdShared | .rdUnique | .upgrade | .rdOnce | .wrFull | .wrPartial | .wbDirty | .evictClean | .atomic =>
    homeAccept m s
  | .snpShared | .snpUnique | .snpInv | .snpCurrent | .snpRecall => agentSnoop m s
  | .snpRsp | .snpData => homeAnswer m s
  | .ack => homeAck m s
  | .grant | .cmp | .data => agentReply row m s
  | .reserved _ => s

/-- Delivers messages in flight, oldest first, until none is left. -/
def settleNet : Nat → State → State
  | 0, s => s
  | k + 1, s => match s.net with
    | [] => s
    | m :: t => settleNet k (deliver false m { s with net := t })

/-- Sends messages and lets everything inside the hub that follows from them take place, behind what was in flight. -/
def exchange (f : State → State) (s : State) : State := settleNet 16384 (f s)

/-- The TXN of a new request of agent a on line n: none while the agent has a request on the line outstanding, or all its
4,096 values are taken (R205). Each hub agent is a requester of its own. -/
def freeTxn (a n : Nat) (s : State) : Option Nat :=
  if a < 200 && (s.reqTxn.any fun e => e.1 / 4096 == a && e.2 == n) then none
  else (kfree s.reqTxn 4096 (4096 * a)).map (· - 4096 * a)

/-- Sends a request of a cluster or a hub agent under a TXN of its own, and lets what follows take place; none while R205
forbids it or its granule is held (R359). -/
def request (m : Msg) (s : State) : Option State :=
  let n := m.addr.toNat / 64
  if granHeld n m.ctx.toNat s then none
  else (freeTxn m.src.toNat n s).map fun t =>
    exchange (sendMsg { m with txn := BitVec.ofNat 12 t }) { s with reqTxn := kset (4096 * m.src.toNat + t) n s.reqTxn }

/-- A cluster cache is emptied by a reset or at L4 (R222): what is in flight is delivered first, it answers every snoop, its
own coherent requests are dropped, and lines that `back` picks are written back. -/
def clusterGone (g : Nat) (s : State) : State :=
  let s := settleNet 16384 s
  let mine (m : Msg) : Bool := m.src.toNat == g && m.who == 0
  let part := fun (n : Nat) => (s.gran (granOf (64 * n))).owner.val
  let s := (s.cluster g).lines.foldl (fun s e =>
    if !e.2.stream && (e.2.st = 3 || e.2.st = 4) then
      homeWrite e.1 (2 ^ 64 - 1) e.2.data e.2.poison (waysFor e.1 (part e.1) false s) false s else s) s
  let reqs := (s.cluster g).reqs
  let s := s.setCluster g { s.cluster g with lines := [], reqs := [] }
  let drop (l : Line) : Line :=
    let tx := l.tx.bind fun t => if mine t.req && t.why == .request then
      (if t.ackOf.isSome then none else some { t with why := .gone }) else some t
    let dir := match l.dir with
      | none => none
      | some d => { d with owner := if d.owner = some g then none else d.owner, sharers := d.sharers.filter (· ≠ g) }.norm
    { l with tx, dir, queue := l.queue.filter fun m => !mine m }
  let s := { s with
    lines := kmap (fun _ l => drop l) s.lines
    heldSnp := kfilter (fun k _ => k / 2 ^ 48 != g) s.heldSnp
    reqTxn := kfilter (fun k n => !(k / 4096 == g && (kget n reqs).isSome)) s.reqTxn }
  let owed := (s.lines.filter fun e => (e.2.tx.map fun t => t.waiting.contains g).getD false).map (·.1)
  foldS owed (fun n s => homeTake n g 0 none s) s

end Sys2Proof.Machine
end

