-- ==== Sys2Proof/Machine/Access.lean ====
section
/-!
DEFINITION. Translation of a context address (R258, R263) and the accesses of engines and hub agents to device
addresses: cached and uncached tier lines, apertures, Sloyth windows and host space (R163 to R173, R191, R215, R274,
R289, R407, R436).
-/
namespace Sys2Proof.Machine

/-! ### Translation (R263) -/

inductive Need where
  | read | write | rw | code
  deriving DecidableEq, Repr, Inhabited

/-- A translation: device address, segment, KIND, TARGET and the end of the page or segment in bytes from va. -/
structure Xlat where
  pa : Nat
  seg : Nat
  stream : Bool
  target : Nat
  room : Nat
  page : Nat
  /-- generation of the mapping (R263) -/
  gen : BitVec 16 := 0
  deriving DecidableEq, Repr, Inhabited

inductive Tr where
  | ok (x : Xlat)
  /-- a commit holds the segment or the context (R359) -/
  | wait
  | err (cause : Nat) (seg : Nat)
  deriving DecidableEq, Repr, Inhabited

/-- The valid segment that covers an address (R263). -/
def segAt (c : Ctx) (va : Nat) : Option (Nat × Segment) :=
  c.segs.find? fun e => e.2.base ≤ va && va < e.2.base + e.2.len * 0x200000

/-- The permissions an access needs (R263). -/
def permitted (g : Segment) : Need → Bool
  | .read => g.r
  | .write => g.w
  | .rw => g.r && g.w
  | .code => g.r && g.x

/-- First device address of a segment's TARGET 1 to 3 (R224, R263). -/
def targetBase (g : Segment) : Nat :=
  if g.target = 1 then 0x800000000000
  else if g.target = 2 then 0x400000000000 + g.tgt * 2 ^ 40
  else if g.tgt = 0 then 0x40000000000 else g.tgt * 0x100000000000

/-- translate(ctx, va, access) of R263. -/
def translate (s : State) (ctx va : Nat) (need : Need) : Tr :=
  if va / 2 ^ 56 ≠ 0 then .err fcNotMapped 0
  else match s.ctx ctx with
  | none => .err fcNotMapped 0
  | some c => match segAt c va with
    | none => .err fcNotMapped 0
    | some (i, g) =>
      if !permitted g need then .err fcPermission i
      else
        let off := va - g.base
        if g.target = 0 then
          let sh := if g.frame1g then 30 else 21
          match kget (off >>> sh) g.frames with
          | none => .err fcNoFrame i
          | some f => .ok { pa := f + off % 2 ^ sh, seg := i, stream := g.stream, target := 0,
                            room := 2 ^ sh - off % 2 ^ sh, page := off >>> sh, gen := g.gen }
        else .ok { pa := targetBase g + g.list + off, seg := i, stream := g.stream, target := g.target,
                   room := g.len * 0x200000 - off, page := off / 0x200000, gen := g.gen }

/-- Adds to a saturating field of a counter register kept by BAR0 offset. -/
def statAdd (off lo w d : Nat) (s : State) : State :=
  let v := s.reg off 0
  let f := bits v (lo + w - 1) lo
  s.setReg off (v - f * 2 ^ lo + satAdd w f d * 2 ^ lo)

/-! ### Who makes an access -/

/-- The engine or agent that makes an access. -/
structure Who where
  /-- requester code: engine e of core c is 4c + e + 1; hub agents lie from 0x10000 on -/
  code : Nat
  /-- the cluster cache it goes through, if it is an engine of a core -/
  cluster : Option Nat
  ctx : Nat
  part : Fin 8
  hubAgent : Bool := false
  /-- the bytes of the whole access lie in one 32-byte half (R233) -/
  narrow : Bool := true
  /-- a read fills no line of the cluster cache where it is narrow: one of the DMA engine -/
  dma : Bool := false
  /-- context, segment and generation of its translation (R270) -/
  tag : Nat := 0
  deriving DecidableEq, Repr, Inhabited

/-- What an access came to: done with a value, still waiting for an answer from outside, or a fault. -/
inductive Acc where
  | ok (v : Nat)
  | wait
  | fault (cause detail : Nat)
  deriving DecidableEq, Repr, Inhabited

def engCode : Eng → Nat
  | .scalar => 0
  | .vector => 1
  | .matrix => 2
  | .dma => 3

/-- The count that an issued request adds to (R270): of its context, segment and generation. -/
def flightTag (ctx seg : Nat) (gen : BitVec 16) : Nat := (ctx * 64 + seg) * 2 ^ 16 + gen.toNat + 1

/-- The requester of an access under a translation. -/
def Who.under (w : Who) (x : Xlat) : Who := { w with tag := flightTag w.ctx x.seg x.gen }

/-! ### Translation caches (R269) -/

/-- Uses entry k of a cache kept in order of use; in a full set, the least recently used entry goes. DESIGN CHOICE (log 92):
the spec names no replacement. -/
def cacheUse (k ways : Nat) (same : Nat → Bool) (l : List Nat) : List Nat :=
  let rest := l.filter (· ≠ k)
  let set := rest.filter same
  k :: (if set.length < ways then rest else rest.filter (· ≠ set.getLastD k))

/-- A translation through the caches of core c and its cluster (R269): a miss in both is a walk of the quadrant's walker. -/
def tlbTouch (c ctx seg page : Nat) (s : State) : State :=
  let k := (ctx * 64 + seg) * 2 ^ 36 + page
  let x := s.core c
  let hit := x.tlb.contains k
  let s := s.setCore c { x with tlb := cacheUse k 32 (fun _ => true) x.tlb }
  if hit then s
  else
    let g := coreCluster c
    let cl := s.cluster g
    let tlb := cacheUse k 8 (fun a => (Config.setHash 4 a).toNat % 256 == (Config.setHash 4 k).toNat % 256) cl.tlb
    if cl.tlb.contains k then s.setCluster g { cl with tlb }
    else statAdd (qdBase (g / 25) + 0x400) 0 32 1 (s.setCluster g { cl with tlb, misses := satAdd 32 cl.misses 1 })

/-- The translation caches of an engine of a core see a translation. -/
def seen (w : Who) (x : Xlat) (s : State) : State :=
  if w.cluster.isSome && w.code ≤ 16000 then tlbTouch ((w.code - 1) / 4) w.ctx x.seg x.page s else s

def whoCore (s : State) (c : Nat) (e : Eng) : Who :=
  { code := 4 * c + engCode e + 1, cluster := some (coreCluster c), ctx := (s.core c).ctx, part := (s.core c).part,
    dma := e == .dma }

/-- The fault cause of a home's refusal or of bad data (R238, R276, R407, R437). -/
def homeCause (status : Nat) : Nat :=
  if status = 0x100 then fcMemIntegrity else if status = stPoisoned then fcMemPoison else fcOwnership

/-- DETAIL of a failed aperture request: the status for SITE_UNAVAILABLE, else 0 (R331, R407). -/
def siteDetail (status : Nat) : Nat := if status = stPoisoned || status = stNotPermitted then 0 else status

def siteCause (status : Nat) : Nat :=
  if status = stPoisoned then fcMemPoison else if status = stNotPermitted then fcOwnership else fcSiteUnavailable

def slCause (status : Nat) : Nat :=
  if status = stLinkDown || status = stTimeout then fcSloythUnavailable
  else if status = stPoisoned then fcMemPoison else fcOwnership

/-- The cause when poisoned data is consumed (R238): found uncorrectable by the read itself, or before. -/
def poisonCause (found : Bool) : Nat := if found then fcMemUncorrectable else fcMemPoison

/-- Takes an answer that waits under a key. -/
def takeAns (key : Nat) (s : State) : Option Ans × State :=
  match kget key s.ans with
  | some a => (some a, { s with ans := kdel key s.ans, asked := kdel key s.asked })
  | none => (none, s)

/-- The requester's own fields of a request. -/
def asWho (w : Who) (m : Msg) : Msg :=
  { m with who := w.code, part := w.part, ctx := BitVec.ofNat 20 w.ctx, hubAgent := w.hubAgent,
           src := match w.cluster with
             | some g => BitVec.ofNat 8 g
             | none => 0xFF }

/-- An uncached exchange with a home: asked once, answered now or later (R196, R205, R206). -/
def once (w : Who) (m : Msg) (s : State) : Option Ans × State :=
  let key := ansKey w.code m.addr.toNat
  match takeAns key s with
  | (some a, s) => (some a, s)
  | (none, s) =>
    if (kget key s.asked).isSome then (none, s)
    else match request (asWho w m) { s with asked := kset key w.tag s.asked } with
      | none => (none, s)
      | some s => takeAns key s

def homeMsg (op : MOp) (pa : Nat) (stream : Bool) : Msg :=
  { op, stream, src := 0, dst := homeAgent (pa / 64), addr := BitVec.ofNat 48 (64 * (pa / 64)) }

/-! ### Cluster caches (R163, R173, R206, R218) -/

/-- The access of an engine to a line its cluster holds is made: it waits no more, and the grant's access is made (R209). -/
def accessMade (g n key : Nat) (write : Bool) (s : State) : State :=
  let s := { s with asked := kdel key s.asked }
  let c := s.cluster g
  match kget n c.lines with
  | some l => if l.due = 1 || (write && l.due = 2) then s.setCluster g { c with lines := kset n { l with due := 0 } c.lines }
      else s
  | none => s

/-- Brings a COHERENT line into cluster g in a state that allows the access; none while it waits, or the status of
a refusal. -/
def acquire (g : Nat) (w : Who) (pa : Nat) (write : Bool) (s : State) : Option Nat × State :=
  let n := pa / 64
  let mine := ansKey w.code pa
  let good (s : State) : Bool := match kget n (s.cluster g).lines with
    | some l => !l.stream && (kget n (s.cluster g).reqs).isNone && (if write then l.st = 2 || l.st = 4 else l.st ≠ 0)
    | none => false
  let made (s : State) : Option Nat × State := (some stOk, accessMade g n mine write s)
  if good s then made s
  else
    let key := ansKey (0x60000 + g) pa
    let finish (s : State) : Option Nat × State :=
      if good s then made s
      else match takeAns key s with
        | (some a, s) => (some a.status, { s with asked := kdel mine s.asked })
        | (none, s) => (none, { s with asked := kset mine w.tag s.asked })
    if (kget n (s.cluster g).reqs).isSome then finish s
    else
      let (op, code) : MOp × Nat := match kget n (s.cluster g).lines with
        | some l => if l.stream then (if write then (.rdUnique, 2) else (.rdShared, 1))
          else if write then (.upgrade, 3) else (.rdShared, 1)
        | none => if write then (.rdUnique, 2) else (.rdShared, 1)
      let c := s.cluster g
      match request { homeMsg op pa false with
          src := BitVec.ofNat 8 g, part := w.part, ctx := BitVec.ofNat 20 w.ctx }
          (s.setCluster g { c with reqs := kset n code c.reqs }) with
      | none => (none, s)
      | some s => finish s

/-- Fills a STREAM line, tagged with the current epoch (R173). -/
def fillStream (g n v : Nat) (s : State) : State :=
  let c := s.cluster g
  let l : CLine := { st := 1, stream := true, data := BitVec.ofNat 512 v, epoch := c.epoch }
  s.setCluster g { c with lines := kset n l c.lines }

/-- An engine consumes a line its cluster holds (R218, R238). -/
def consume (g n : Nat) (l : CLine) (s : State) : Acc × State :=
  if l.poison then
    let c := s.cluster g
    (.fault (poisonCause l.found) 0, s.setCluster g { c with lines := kset n { l with found := false } c.lines })
  else (.ok l.data.toNat, s)

/-- Reads the line of a device tier address for an engine or a hub agent; `mask` names the bytes it needs. -/
def readLine (w : Who) (pa mask : Nat) (stream : Bool) (s : State) : Acc × State :=
  let n := pa / 64
  let fine := stream && w.narrow && isFine (granOf pa) s && (mask < 2 ^ 32 || mask % 2 ^ 32 = 0)
  let viaHome (narrow : Bool) (s : State) : Acc × State :=
    match once w { homeMsg .rdOnce pa stream with mask := if narrow then BitVec.ofNat 64 mask else 0 } s with
    | (none, s) => (.wait, s)
    | (some a, s) =>
      if a.status ≠ stOk then (.fault (homeCause a.status) 0, s)
      else if a.poison then (.fault (poisonCause a.found) 0, s)
      else (.ok a.data.toNat, s)
  match w.cluster with
  | none => viaHome fine s
  | some g =>
    let fill (s : State) : Acc × State :=
      if w.dma && fine then viaHome true s
      else match viaHome false s with
        | (.ok v, s) => (.ok v, fillStream g n v s)
        | r => r
    if stream then
      let c := s.cluster g
      match kget n c.lines with
      | some l => if l.stream && l.epoch = c.epoch then (.ok l.data.toNat, s) else fill s
      | none => fill s
    else
      match acquire g w pa false s with
      | (none, s) => (.wait, s)
      | (some st, s) =>
        if st ≠ stOk then (.fault (homeCause st) 0, s)
        else match kget n (s.cluster g).lines with
          | some l => consume g n l s
          | none => (.wait, s)

/-- Writes masked bytes of a line of a device tier address for an engine or a hub agent. -/
def writeLine (w : Who) (pa mask data : Nat) (stream : Bool) (s : State) : Acc × State :=
  let n := pa / 64
  let full := mask = 2 ^ 64 - 1
  let viaHome (s : State) : Acc × State :=
    match once w { homeMsg (if full then .wrFull else .wrPartial) pa stream with
        data := BitVec.ofNat 512 data, mask := BitVec.ofNat 64 mask } s with
    | (none, s) => (.wait, s)
    | (some a, s) => if a.status ≠ stOk then (.fault (homeCause a.status) 0, s) else (.ok 0, s)
  match w.cluster with
  | none => viaHome s
  | some g =>
    if stream then
      match viaHome s with
      | (.ok v, s) =>
        let c := s.cluster g
        match kget n c.lines with
        | some l =>
          let l' := { l with data := BitVec.ofNat 512 (mergeBytes 64 mask data l.data.toNat) }
          (.ok v, s.setCluster g { c with lines := kset n l' c.lines })
        | none => (.ok v, s)
      | r => r
    else
      match acquire g w pa true s with
      | (none, s) => (.wait, s)
      | (some st, s) =>
        if st ≠ stOk then (.fault (homeCause st) 0, s)
        else
          let c := s.cluster g
          match kget n c.lines with
          | some l =>
            let wr := l.written ||| BitVec.ofNat 64 mask
            let poison := l.poison && wr != BitVec.allOnes 64
            let l' := { l with st := 4, poison, written := if l.poison then wr else 0,
                               data := BitVec.ofNat 512 (mergeBytes 64 mask data l.data.toNat) }
            (.ok 0, s.setCluster g { c with lines := kset n l' c.lines })
          | none => (.wait, s)

/-! ### Apertures (R191, R407) -/

/-- Sends an aperture request to the die of a site under a free TXN (R407): none while every TXN is taken, else ST_OK or
the status it completes with at once. An atomic to a CXL die is not permitted (R409). -/
def apertureSend (site : Nat) (m : Msg) (r : ApReq) (s : State) : Option Nat × State :=
  let x := s.site site
  if (x.state ≠ 4 && x.state ≠ 5) || x.resetting.isSome then (some stLinkDown, s)
  else if x.cxl && m.op == .atomic then (some stNotPermitted, s)
  else match kfree x.apq 4096 0 with
  | none => (none, s)
  | some t =>
    (some stOk, sendDie site { m with txn := BitVec.ofNat 12 t, dst := BitVec.ofNat 8 (0xC8 + site), who := 0 }
      (s.setSite site { x with apq := kset t { r with src := m.src } x.apq }))

/-- Completes an aperture request: the answer waits for the engine or agent that asked, or goes to the partner die that
asked (R405, R407). -/
def apDone (site : Nat) (r : ApReq) (status : Nat) (data : LineData) (poison : Bool) (s : State) : State :=
  match r.orig with
  | some (k, txn) =>
    sendMsg { op := if r.data && status = stOk then .data else .cmp, poison, txn, src := BitVec.ofNat 8 (0xC8 + site),
              dst := BitVec.ofNat 8 (0xC8 + k), aux := BitVec.ofNat 16 status, addr := BitVec.ofNat 48 r.pa, data } s
  | none =>
    if r.who = 0x5FFFF then s
    else
      let key := ansKey r.who r.pa
      { s with ans := kset key { status, data, poison } s.ans, asked := kdel key s.asked }

/-- A status code of R345. -/
def isStatus (st : Nat) : Bool := st ≤ 0x13

/-- DATA or CMP of the die of a site: false when it answers nothing that is outstanding, or breaks R202 or R212 (R220,
R407). -/
def apAnswer (site : Nat) (m : Msg) (s : State) : Bool × State :=
  let x := s.site site
  match kget m.txn.toNat x.apq with
  | none => (false, s)
  | some r =>
    if ((m.op == .data) != r.data && !(m.op == .cmp && m.aux ≠ 0)) || m.src.toNat ≠ 0xC8 + site || m.dst ≠ r.src ||
        m.state != .I || !isStatus m.aux.toNat || m.addr.toNat ≠ r.pa / 64 * 64 then (false, s)
    else (true, apDone site r (if m.op == .cmp then m.aux.toNat else stOk) m.data m.poison
      (s.setSite site { x with apq := kdel m.txn.toNat x.apq }))

/-- A request to the partner die that serves an aperture. -/
def apertureOnce (w : Who) (m : Msg) (site : Nat) (s : State) : Acc × State :=
  let key := ansKey w.code m.addr.toNat
  match takeAns key s with
  | (some a, s) =>
    if a.status ≠ stOk then (.fault (siteCause a.status) (siteDetail a.status), s)
    else if a.poison then (.fault fcMemPoison 0, s)
    else (.ok a.data.toNat, s)
  | (none, s) =>
    if (kget key s.asked).isSome then (.wait, s)
    else
      let (st, s) := apertureSend site { m with part := w.part, ctx := BitVec.ofNat 20 w.ctx, src := match w.cluster with
          | some g => BitVec.ofNat 8 g
          | none => 0xFF } { who := w.code, pa := m.addr.toNat, data := m.op == .rdOnce || m.op == .atomic } s
      match st with
      | none => (.wait, s)
      | some st => if st = stOk then (.wait, { s with asked := kset key w.tag s.asked })
          else (.fault (siteCause st) (siteDetail st), s)

/-- Site whose aperture an address lies in (R224). -/
def siteOf (pa : Nat) : Nat := pa / 0x100000000000

/-! ### Sloyth windows (R180, R432 to R437) -/

/-- Outstanding requests of every port: port, TAG, request. -/
def slReqs (s : State) : List (Nat × Nat × SlReq) :=
  (s.slPorts.map fun e => e.2.reqs.map fun r => (e.1, r.1, r.2)).flatten

/-- Requests of a flow: source partition and destination serial (R436). -/
def flowReqs (k : Nat × Nat) (s : State) : List (Nat × Nat × SlReq) :=
  (slReqs s).filter fun e => e.2.2.part == k.1 && e.2.2.peer == k.2

/-- The port a flow uses: its pin while anything is outstanding, else entry p mod the count of the ports in service
towards the peer (R436). -/
def flowPort (s : State) (k : Nat × Nat) : Option Nat :=
  let l := (List.range 4).filter fun i =>
    let x := (kget i s.slPorts).getD {}
    (x.state = 4 || x.state = 5) && x.peer = k.2 && x.resetting.isNone
  match flowReqs k s with
  | e :: _ => if l.contains e.1 then some e.1 else none
  | [] => l[k.1 % l.length]?

/-- Units of 16 bytes of the encrypted section: the transaction header and the payload (R422, R432, R433). -/
def slUnits (op len : Nat) : Nat :=
  2 + (if op = 0x01 || op = 0x82 then (len + 15) / 16
    else if op = 0x03 || op = 0x83 || op = 0x10 then 1
    else if op = 0x11 || op = 0x12 then 98 else 0)

/-- Credits a packet consumes (R424). -/
def slCost (op len : Nat) : Nat := 2 + slUnits op len

/-- RSP credits reserved for the answer of a request (R424). -/
def slReserve (op len : Nat) : Nat :=
  if op = 0x02 then slCost 0x82 len else if op = 0x03 then slCost 0x83 0 else slCost 0x81 0

def slReserved (x : SlPort) : Nat := x.reqs.foldl (fun n e => n + slReserve e.2.op e.2.len) 0

/-- Bytes of the replay buffer in use (R423). -/
def slReplayBytes (x : SlPort) : Nat := x.replay.foldl (fun n k => n + 32 + 16 * slUnits k.op k.len) 0

/-- Sends the packets of the queue that credits, the replay buffer and a rekey allow, each class in order (R423, R424,
R430): the port, the packets kept, and what is sent. -/
def slSend : List SlSent → SlPort → List SlSent → List SlSent → SlPort × List SlSent × List SlSent
  | [], x, kept, sent => (x, kept, sent)
  | k :: t, x, kept, sent =>
    let rsp := 0x80 ≤ k.op
    let cost := slCost k.op k.len
    let held := x.rekeying = 2 && !x.txSwitched && !((kept ++ k :: t).any fun e => e.op = 0x12)
    let credit := if rsp then x.rspCredits else x.reqCredits
    if held || (kept.any fun e => decide (0x80 ≤ e.op) == decide rsp) || credit < cost ||
        1048576 < slReplayBytes x + 32 + 16 * slUnits k.op k.len || 2 ^ 48 - 1 ≤ x.txSeq then
      slSend t x (kept ++ [k]) sent
    else
      let k := { k with seq := x.txSeq }
      let x := { x with txSeq := x.txSeq + 1, replay := x.replay ++ [k],
                        reqCredits := if rsp then x.reqCredits else x.reqCredits - cost,
                        rspCredits := if rsp then x.rspCredits - cost else x.rspCredits }
      slSend t x kept (sent ++ [k])

def State.slPort (s : State) (p : Nat) : SlPort := (kget p s.slPorts).getD {}
def State.setSlPort (s : State) (p : Nat) (x : SlPort) : State := { s with slPorts := kset p x s.slPorts }

/-- A SLOYTH event (R442), stamped in the port's domain. -/
def slEvent (p code reason peer : Nat) (s : State) : State :=
  hubEvent 0x70 (0x60 + p) (put 0 8 p + put 8 8 code + put 16 8 reason + put 32 64 peer) s

/-- One pass over the queue of a port in service; a port in LPI wakes for it below L5 (R440). -/
def slPass (p : Nat) (s : State) : State :=
  let x := s.slPort p
  if x.txq.isEmpty || x.resetting.isSome then s
  else
    let wake := x.state = 5 && s.power.shed < 5
    let s := if wake then emit (.slControl p 7 0) s else s
    if x.state ≠ 4 && !wake then s
    else
      let (y, kept, sent) := slSend x.txq { x with state := 4 } [] []
      foldS sent (fun k s => emit (.slPacket p y.txEpoch k) s) (s.setSlPort p { y with txq := kept })

/-- Ends a rekey whose two directions have switched (R430). -/
def slRekeyed (p : Nat) (s : State) : State :=
  let x := s.slPort p
  if x.rekeying = 2 && x.txSwitched && x.rxSwitched then
    slEvent p 4 0 x.peer (s.setSlPort p { x with rekeying := 0, txSwitched := false, rxSwitched := false, txNext := 0,
                                                 rxNext := 0, keyed := s.opSeconds })
  else s

/-- The transmit side switches once every packet of the old epoch is acknowledged (R430). -/
def slSwitch (p : Nat) (s : State) : State :=
  let x := s.slPort p
  if x.rekeying = 2 && !x.txSwitched && x.replay.isEmpty && !(x.txq.any fun e => e.op = 0x12) then
    slRekeyed p (s.setSlPort p { x with txSwitched := true, txEpoch := !x.txEpoch, txSeq := 0, txKey := x.txNext })
  else s

/-- Sends what can be sent. -/
def slPump (p : Nat) (s : State) : State := slPass p (slSwitch p (slPass p s))

/-- Queues a packet and sends what can be sent. -/
def slTransmit (p : Nat) (k : SlSent) (s : State) : State :=
  let x := s.slPort p
  slPump p (s.setSlPort p { x with txq := x.txq ++ [k] })

/-- Sends a FENCE on a flow that has writes no FENCE covers, unless one is in flight (R437); its requester is the agent
0x50001. -/
def slFence (k : Nat × Nat) (s : State) : State :=
  let l := flowReqs k s
  if (l.any fun e => e.2.2.op == 4) || !(l.any fun e => e.2.2.op == 1 && !e.2.2.covered) then s
  else match flowPort s k with
  | none => s
  | some q =>
    let x := s.slPort q
    match kfree x.reqs 8 4088 with
    | none => s
    | some tag =>
      let mine (r : SlReq) : Bool := r.op == 1 && r.part == k.1 && r.peer == k.2
      let reqs := kmap (fun _ r => if mine r then { r with covered := true } else r) x.reqs
      let rq : SlReq := { op := 4, who := 0x50001, part := k.1, peer := k.2, ctx := 0, pa := 0, len := 0 }
      slTransmit q { op := 4, src := k.1, tag } (s.setSlPort q { x with reqs := kset tag rq reqs })

/-- The flows with a WRITE that meets a test. -/
def writtenFlows (test : SlReq → Bool) (s : State) : List (Nat × Nat) :=
  (((slReqs s).filter fun e => e.2.2.op == 1 && test e.2.2).map fun e => (e.2.2.part, e.2.2.peer)).eraseDups

/-- Fences every flow of a kind. -/
def slFenceAll (test : Nat × Nat → Bool) (s : State) : State :=
  foldS ((writtenFlows (fun r => !r.covered) s).filter test) slFence s

/-- Sends a request of an engine on a window (R436): none while the port lacks a tag or room for the answer, and the hub
then fences the port's flows; else ST_OK, or the status it completes with at once. -/
def slRequest (w : Who) (op atom win off len payload pa : Nat) (s : State) : Option Nat × State :=
  match kget win s.winOut with
  | none => (some stNotPermitted, s)
  | some v => match flowPort s (v.part, v.peer) with
    | none => (some stLinkDown, s)
    | some p =>
      let x := s.slPort p
      match kfree x.reqs 4088 0 with
      | none => (none, slFenceAll (fun k => k.2 == x.peer) s)
      | some tag =>
        if 8192 - 32 < slReserved x + slReserve op len then (none, slFenceAll (fun k => k.2 == x.peer) s)
        else
          let rq : SlReq := { op, who := w.code, part := v.part, peer := v.peer, ctx := w.ctx, pa, len }
          (some stOk, slTransmit p { op, src := v.part, win := v.remote, atom, tag, off, len := if op = 3 then 0 else len,
                                     payload } (s.setSlPort p { x with reqs := kset tag rq x.reqs }))

/-- A SYS-scope release of an engine (R181, R437): the flows it has written are fenced; true when every write is
confirmed. -/
def sysRelease (code : Nat) (s : State) : Bool × State :=
  ((writtenFlows (fun r => r.who == code) s).isEmpty,
   foldS (writtenFlows (fun r => r.who == code && !r.covered) s) slFence s)

/-- A read or atomic on a window: sent once, answered later. -/
def windowOnce (w : Who) (op atom pa len payload : Nat) (s : State) : Acc × State :=
  let key := ansKey w.code pa
  match takeAns key s with
  | (some a, s) => if a.status ≠ stOk then (.fault (slCause a.status) 0, s) else (.ok a.data.toNat, s)
  | (none, s) =>
    if (kget key s.asked).isSome then (.wait, s)
    else
      let win := bits pa 45 40
      match slRequest w op atom win (pa % 2 ^ 40) len payload pa s with
      | (none, s) => (.wait, s)
      | (some st, s) =>
        if st = stOk then (.wait, { s with asked := kset key w.tag s.asked }) else (.fault (slCause st) 0, s)

/-! ### Host space (R274, R289, R295) -/

/-- PASID word of a context: PASID when PASID_EN, and privileged mode when PRIV (R274). -/
def pasidWord (c : Ctx) : Nat :=
  b2n c.pasidEn + 2 * ((if c.pasidEn then c.pasid else 0) + 2 ^ 20 * b2n c.priv)

def atcKey (p iova : Nat) : Nat := p * 2 ^ 52 + iova / 4096

def ctxPasid (ctx : Nat) (s : State) : Nat := match s.ctx ctx with
  | some c => pasidWord c
  | none => 0

/-- Looks a host page up in the address translation cache; a miss sends one Translation Request (R274). The answer
is: none while it waits, the translated address, or the cause of a fault: the needed permission lacks, or the Translation
Completion had a bad status (R290). -/
def atcLook (who ctx iova : Nat) (write : Bool) (s : State) : Option (Except Nat Nat) × State :=
  let p := ctxPasid ctx s
  let k := atcKey p iova
  if kget who s.port.atsBad = some k then
    (some (.error fcHostCompletion), { s with port := { s.port with atsBad := kdel who s.port.atsBad } })
  else match kget k s.port.atc with
  | some e =>
    if bit e (if write then 1 else 0) then (some (.ok (e / 4 * 4096 + iova % 4096)), s)
    else (some (.error fcHostTranslation), { s with port := { s.port with atcRefused := satAdd 16 s.port.atcRefused 1 } })
  | none =>
    if (kget k s.port.atsAsked).isSome then (none, s)
    else
      (none, emit (.atsRequest p (iova / 4096) write)
        { s with port := { s.port with atsAsked := kset k who s.port.atsAsked,
                                       atcRequests := satAdd 32 s.port.atcRequests 1 } })

/-- Non-posted requests that are out on the link: reads, AtomicOps and Translation Requests. -/
def hostOut (s : State) : Nat :=
  s.port.atsAsked.length + kcount (fun k _ => 0x800000000000 ≤ 64 * (k % 2 ^ 48)) s.asked

/-- Another non-posted request may go out (R278): 768 with 10-bit tags enabled in Device Control 2, 256 without. -/
def tagFree (s : State) : Bool := hostOut s < (if bit ((kget 0x78 s.port.cfg).getD 0) 12 then 768 else 256)

/-- A read of host space. -/
def hostReadOnce (w : Who) (pa len : Nat) (s : State) : Acc × State :=
  let key := ansKey w.code pa
  match takeAns key s with
  | (some a, s) => if a.status ≠ stOk then (.fault a.status 0, s) else (.ok a.data.toNat, s)
  | (none, s) =>
    if (kget key s.asked).isSome then (.wait, s)
    else if !hostOpen s then (.fault fcHostFrozen 0, s)
    else if !s.port.parked.isEmpty || !tagFree s then (.wait, s)
    else match atcLook w.code w.ctx (pa - 0x800000000000) false s with
      | (none, s) => (.wait, s)
      | (some (.error cause), s) => (.fault cause 0, s)
      | (some (.ok a), s) =>
        (.wait, emit (.hostRead w.code (pa - 0x800000000000) a len) { s with asked := kset key w.tag s.asked })

/-- A posted write of an engine to host space. -/
def hostWriteOnce (w : Who) (pa len v : Nat) (s : State) : Acc × State :=
  if !hostOpen s then (.fault fcHostFrozen 0, s)
  else if !s.port.parked.isEmpty then (.wait, s)
  else match atcLook w.code w.ctx (pa - 0x800000000000) true s with
    | (none, s) => (.wait, s)
    | (some (.error cause), s) => (.fault cause 0, s)
    | (some (.ok a), s) => (.ok 0, emit (.iovaWrite w.ctx a len v) s)

/-! ### One piece within a line, at any target -/

/-- A write of the same cluster to the line is accepted and not yet made: a later access of the cluster to the line waits for
it (R79, R167). -/
def behindPosted (w : Who) (pa : Nat) (s : State) : Bool :=
  w.cluster.isSome && s.posted.any fun e => e.1 != w.code && e.2.cluster == w.cluster && e.2.pa / 64 == pa / 64

/-- Reads `len` bytes at a translated address; the bytes lie within one 64-byte line. -/
def readPiece (w : Who) (x : Xlat) (len : Nat) (s : State) : Acc × State :=
  let w := w.under x
  if behindPosted w x.pa s then (.wait, s)
  else match x.target with
  | 0 => match readLine w x.pa (maskFrom (x.pa % 64) len) x.stream s with
    | (.ok v, s) => (.ok (bytesAt v (x.pa % 64) len), s)
    | r => r
  | 1 => hostReadOnce w x.pa len s
  | 2 => windowOnce w 2 0 x.pa len 0 s
  | _ => match apertureOnce w (homeMsg .rdOnce x.pa x.stream) (siteOf x.pa) s with
    | (.ok v, s) => (.ok (bytesAt v (x.pa % 64) len), s)
    | r => r

/-- Writes `len` bytes at a translated address; the bytes lie within one line. -/
def writePiece (w : Who) (x : Xlat) (len v : Nat) (s : State) : Acc × State :=
  let w := w.under x
  let off := x.pa % 64
  let mask := maskFrom off len
  let data := (v % 2 ^ (8 * len)) <<< (8 * off)
  if behindPosted w x.pa s then (.wait, s)
  else match x.target with
  | 0 => writeLine w x.pa mask data x.stream s
  | 1 => hostWriteOnce w x.pa len v s
  | 2 => match slRequest w 1 0 (bits x.pa 45 40) (x.pa % 2 ^ 40) len (v % 2 ^ (8 * len)) x.pa s with
    | (none, s) => (.wait, s)
    | (some st, s) => if st = stOk then (.ok 0, s) else (.fault (slCause st) 0, s)
  | _ => apertureOnce w { homeMsg (if mask = 2 ^ 64 - 1 then .wrFull else .wrPartial) x.pa x.stream with
      data := BitVec.ofNat 512 data, mask := BitVec.ofNat 64 mask } (siteOf x.pa) s

/-! ### Writes accepted before they are answered (R79, R519, R522) -/

/-- Requester codes of posted writes. -/
def whoPosted : Nat := 0x80000

def Posted.who (k : Nat) (p : Posted) : Who := { code := k, cluster := p.cluster, ctx := p.ctx, part := p.part }

def Posted.at (p : Posted) : Xlat :=
  { pa := p.pa, seg := p.seg, gen := p.gen, stream := p.stream, target := p.target, room := 64, page := 0 }

/-- Answers that came for an agent's earlier work are dropped. -/
def dropWho (k : Nat) (s : State) : State :=
  { s with ans := kfilter (fun a _ => a / 2 ^ 48 != k) s.ans, asked := kfilter (fun a _ => a / 2 ^ 48 != k) s.asked }

/-- Drops the posted writes that a test names, with what they have asked for. -/
def postedGone (test : Posted → Bool) (s : State) : State :=
  let gone (k : Nat) : Bool := ((kget (k / 2 ^ 48) s.posted).map test).getD false
  { s with posted := kfilter (fun _ w => !test w) s.posted
           asked := kfilter (fun k _ => !gone k) s.asked, ans := kfilter (fun k _ => !gone k) s.ans }

/-- Goes on with a posted write of code k: made, refused, or still to come. A window's write is made once it is
acknowledged. -/
def postedRun (k : Nat) (p : Posted) (s : State) : Acc × State :=
  if p.target = 2 && p.sent then
    match sysRelease k s with
    | (true, s) => (.ok 0, s)
    | (false, s) => (.wait, s)
  else match writePiece (p.who k) p.at p.len p.val s with
    | (.ok v, s) => if p.target = 2 then (.wait, { s with posted := kset k { p with sent := true } s.posted }) else (.ok v, s)
    | r => r

/-- Posts a write: done at once, refused at once, or accepted with its answer to come. A write that `must` be taken waits in
the hub; one of an engine is accepted once its request is out. -/
def postWrite (must : Bool) (p : Posted) (s : State) : Acc × State :=
  match kfree s.posted 65536 whoPosted with
  | none => (.wait, s)
  | some k =>
    if behindPosted (p.who k) p.pa s && !must then (.wait, s)
    else
      match postedRun k p { dropWho k s with posted := kset k p s.posted } with
      | (.wait, t) => if must || (kget (ansKey k p.pa) t.asked).isSome then (.ok 0, t) else (.wait, s)
      | (r, t) => (r, { t with posted := kdel k t.posted })

/-! ### Translations that have been withdrawn (R270, R271) -/

/-- The translation of an address through page `f` of segment i. -/
def throughPage (i : Nat) (g : Segment) (gen : BitVec 16) (va f : Nat) : Xlat :=
  let sh := if g.frame1g then 30 else 21
  let off := va - g.base
  { pa := f + off % 2 ^ sh, seg := i, stream := g.stream, target := 0, room := 2 ^ sh - off % 2 ^ sh, page := off >>> sh, gen }

/-- Where an address led before an UNMAP, a SEG_CLEAR or a move that has not yet ended. -/
def keptAt (s : State) (ctx va : Nat) : List Xlat :=
  let cur := (s.ctx ctx).bind fun c => segAt c va
  let page (g : Segment) : Nat := (va - g.base) >>> (if g.frame1g then 30 else 21)
  let shot := s.shoots.filterMap fun u =>
    if u.ctx ≠ ctx || !u.started then none
    else match u.saved with
      | some g =>
        if g.base ≤ va && va < g.base + g.len * 0x200000 then
          some { pa := targetBase g + g.list + (va - g.base), seg := u.seg, stream := g.stream, target := g.target,
                 room := g.len * 0x200000 - (va - g.base), page := (va - g.base) / 0x200000, gen := u.gen }
        else none
      | none => cur.bind fun e => if e.1 = u.seg then (kget (page e.2) u.pages).map (throughPage e.1 e.2 u.gen va) else none
  shot ++ s.moves.filterMap fun m => cur.bind fun e =>
    if m.forwards && m.maps.contains (ctx, e.1, page e.2) then some (throughPage e.1 e.2 (e.2.gen - 1) va m.src) else none

/-- A table walk meets a context or a segment that a commit holds (R359). DEDUCED (log 99): what a walk meets while a direct
command runs, R271 and R273 say. -/
def walkHeld (ctx va : Nat) (s : State) : Bool :=
  let t := { s with changes := s.changes.filter fun h => h.txn != 0 }
  !t.changes.isEmpty && (changeHolds (objCtx ctx) ctx t || match (s.ctx ctx).bind fun c => segAt c va with
    | some e => changeHolds (objSeg ctx e.1) ctx t
    | none => false)

/-- The translation an engine or agent makes an access under: that of its request in flight, which runs to its end against the
old frame (R271), else today's. -/
def xlate (w : Who) (va : Nat) (need : Need) (s : State) : Tr :=
  let flying (x : Xlat) : Bool := (kget (ansKey w.code x.pa) s.asked).isSome || (kget (ansKey w.code x.pa) s.ans).isSome
  match (keptAt s w.ctx va).find? flying with
  | some x => .ok x
  | none => match translate s w.ctx va need with
    | .ok x => if !flying x && walkHeld w.ctx va s then .wait else .ok x
    | r => if walkHeld w.ctx va s then .wait else r

/-! ### Accesses of a hub agent to a context's memory (R307, R522) -/

/-- The next piece of an access: up to the end of the line and of the page. -/
def pieceLen (va len room : Nat) : Nat := min len (min room (64 - va % 64))

/-- What an access over a range came to; a fault names the address that met it. -/
inductive Rng where
  | ok (v : Nat)
  | wait
  | fault (cause detail va : Nat)
  deriving DecidableEq, Repr, Inhabited

/-- Answers of engine or agent `who` that `s0` held are put back: an access that must still wait uses them again. -/
def putBack (who : Nat) (s0 s : State) : State :=
  { s with ans := s0.ans.foldl (fun m e => if e.1 / 2 ^ 48 = who then kset e.1 e.2 m else m) s.ans }

/-- Reads `len` bytes at va, piece by piece, as a context. -/
def readPieces (w : Who) (need : Need) : Nat → Nat → Nat → State → Rng × State
  | 0, _, _, s => (.ok 0, s)
  | fuel + 1, va, len, s =>
    if len = 0 then (.ok 0, s)
    else match xlate w va need s with
      | .err c _ => (.fault c 0 va, s)
      | .wait => (.wait, s)
      | .ok x =>
        let n := pieceLen va len x.room
        match readPiece w x n (seen w x s) with
        | (.ok v, s) => match readPieces w need fuel (va + n) (len - n) s with
          | (.ok r, s) => (.ok (v + r <<< (8 * n)), s)
          | r => r
        | (.wait, s) => (.wait, s)
        | (.fault c d, s) => (.fault c d va, s)

/-- A read of a range; while it waits, the answers already there are kept. -/
def readRange (w : Who) (need : Need) (va len : Nat) (s : State) : Rng × State :=
  match readPieces w need (len + 1) va len s with
  | (.wait, t) => (.wait, putBack w.code s t)
  | r => r

/-- Writes `len` bytes within one line and page, as a context. -/
def writeVa (w : Who) (va len v : Nat) (s : State) : Rng × State :=
  match xlate w va .write s with
  | .err c _ => (.fault c 0 va, s)
  | .wait => (.wait, s)
  | .ok x => match writePiece w x len v (seen w x s) with
    | (.ok r, s) => (.ok r, s)
    | (.wait, s) => (.wait, s)
    | (.fault c d, s) => (.fault c d va, s)

/-- The segment and the device address of a context address, as far as translation gets. -/
def whereIs (s : State) (ctx va : Nat) (need : Need) : Nat × Option Nat :=
  match translate s ctx va need with
  | .err _ i => (i, none)
  | .wait => (0, none)
  | .ok x => (x.seg, some x.pa)

/-- A fault of a hub agent at a context address (R276, R331). -/
def vaFault (ctx eng cause va : Nat) (need : Need) (detail : Nat) (s : State) : State :=
  let (i, pa) := whereIs s ctx va need
  agentFault ctx eng cause s (va := some va) (pa := pa) (seg := i) (detail := detail)

/-- A report write of the hub to a context address, as the owning context (R522): a host-space destination is a report write
under R295; a failure known at once is the cause of a fault, one known later faults engine code `eng`. -/
def ctxWrite (ctx va len v : Nat) (s : State) (eng : Nat := 7) (detail : Nat := 0) (link : Option Nat := none) :
    Option Nat × State :=
  match s.ctx ctx with
  | none => (some fcNotMapped, s)
  | some c => match translate s ctx va .write with
    | .err cause _ => (some cause, s)
    | .wait => (none, s)
    | .ok x =>
      let p : Posted := { ctx, part := c.part, va, pa := x.pa, seg := x.seg, gen := x.gen, stream := x.stream, target := x.target, len,
                          val := v, eng, detail, link }
      if x.target = 1 then
        match kfree s.posted 65536 whoPosted with
        | none => (none, s)
        | some k =>
          let park (s : State) : Option Nat × State := (none, report (.posted k len) { dropWho k s with posted := kset k p s.posted })
          if !hostOpen s || !s.port.parked.isEmpty then park s
          else match atcLook k ctx (x.pa - 0x800000000000) true s with
            | (none, s) => park s
            | (some (.error cause), s) => (some cause, s)
            | (some (.ok a), s) => (none, emit (.iovaWrite ctx a len v) s)
      else match postWrite true p s with
        | (.fault cause _, s) => (some cause, s)
        | (_, s) => (none, s)

/-- Advances a cluster's epoch for an acquire of QUAD scope or wider (CLUSTER_EPOCH_ADVANCE, R173): of the 65,536 line
slots the next four are examined, and STREAM lines there of another tag go. Which slot a line has is open. -/
def epochAdvance (g : Nat) (s : State) : State :=
  let c := s.cluster g
  let e := c.epoch + 1
  let swept (n : Nat) : Bool := decide (((Config.setHash 3 n).toNat + 65536 - c.slot) % 65536 < 4)
  s.setCluster g { c with epoch := e, advances := satAdd 48 c.advances 1, slot := (c.slot + 4) % 65536,
                          lines := kfilter (fun n l => !(l.stream && l.epoch != e && swept n)) c.lines }

end Sys2Proof.Machine
end

