-- ==== Sys2Proof/Machine/Objects.lean ====
section
/-!
DEFINITION. Structure space, reference counts, fences, waits and the completion of launches (R255, R303, R316, R322 to
R326, R334, R335).
-/
namespace Sys2Proof.Machine

/-! ### Structure space (R255) -/

/-- Every granule of [a, a + size) is a structure granule of the partition. -/
def structCovers (p a size : Nat) (s : State) : Bool :=
  (List.range ((a + size - 1) / 0x200000 + 1 - a / 0x200000)).all fun i =>
    let g := s.gran (a / 0x200000 + i)
    g.owned && g.struct && g.owner.val == p

def overlaps (a n b m : Nat) : Bool := a < b + m && b < a + n

def alignUp (a n : Nat) : Nat := (a + n - 1) / n * n

/-- The lowest address of the partition's structure granules at which an allocation fits with its alignment. -/
def allocAt (p size align : Nat) (s : State) : Option Nat :=
  let starts := (s.pot.filter fun e => e.2.owned && e.2.struct && e.2.owner.val == p).map fun e => e.1 * 0x200000
  let ends := s.allocs.map fun e => alignUp (e.1 + e.2) align
  let ok := (starts ++ ends).filter fun a =>
    structCovers p a size s && s.allocs.all fun e => !overlaps a size e.1 e.2
  ok.foldl (fun b a => match b with
    | none => some a
    | some x => some (min x a)) none

/-- Allocates, or nothing when it does not fit. -/
def alloc (p size align : Nat) (s : State) : Option (Nat × State) :=
  (allocAt p size align s).map fun a => (a, { s with allocs := kset a size s.allocs })

def freeAlloc (a : Nat) (s : State) : State := { s with allocs := kdel a s.allocs }

/-- A structure granule still holds an allocation (R267). -/
def holdsAlloc (g : Nat) (s : State) : Bool :=
  s.allocs.any fun e => overlaps (g * 0x200000) 0x200000 e.1 e.2

/-! ### Contexts (R257, R335) -/

def ctxLost (c : Ctx) : Bool := c.cause != 0

/-- The context's work fails: it is LOST, or a CONTEXT_ABANDON of it runs or has run. -/
def ctxGone (c : Ctx) : Bool := ctxLost c || c.abandon != 0

/-- No core's stall memory belongs to context c any more: a later context of the same id does not keep it (R90). -/
def forgetCtx (c : Nat) (s : State) : State :=
  { s with cores := kmap (fun _ x => if x.prevCtx = some c then { x with prevCtx := none } else x) s.cores }

/-- Destroys a BIND_OFF context whose count is 0 and that has no valid segment. -/
def ctxTryDestroy (c : Nat) (s : State) : State :=
  match s.ctx c with
  | none => s
  | some k =>
    if k.refc = 0 && k.segs.isEmpty && k.state = 2 then
      freeAlloc k.segTable (freeAlloc k.desc ({ forgetCtx c s with ctxs := kdel c s.ctxs }.touch (objCtx c)))
    else s

/-- Releases references of a context. -/
def ctxUnref (c n : Nat) (s : State) : State :=
  match s.ctx c with
  | none => s
  | some k => ctxTryDestroy c (s.setCtx c { k with refc := k.refc - n })

def ctxRef (c n : Nat) (s : State) : State :=
  match s.ctx c with
  | none => s
  | some k => s.setCtx c { k with refc := k.refc + n }

/-! ### Shootdowns (R270, R271) -/

/-- Steps 2 and 3 of R271 for the caches: the translations of a segment go from every cluster and core, the L1 data caches of
the context's cores are invalidated, and every quadrant's descriptor cache takes the shootdown. DEDUCED (log 93): the
descriptor and ownership caches of R269 hold nothing that outlives a change, so they show in no other way. -/
def shootCaches (c i : Nat) (s : State) : State :=
  let keep (k : Nat) : Bool := k / 2 ^ 36 != c * 64 + i
  let s := { s with clusters := kmap (fun _ x => { x with tlb := x.tlb.filter keep }) s.clusters
                    cores := kmap (fun _ x => { x with tlb := x.tlb.filter keep, l1 := if x.run && x.ctx == c then [] else x.l1 })
                      s.cores }
  foldS (List.range 8) (fun q => statAdd (qdBase q + 0x400) 32 16 1) s

/-- A cluster acknowledges a shootdown (CL_XLT_STAT). -/
def shootAck (g : Nat) (s : State) : State :=
  let c := s.cluster g
  s.setCluster g { c with shoots := satAdd 16 c.shoots 1 }

/-- The cluster of a requester: an engine of a core, or a write that a cluster cache has accepted. -/
def clusterOf (who : Nat) (s : State) : Option Nat :=
  if 0 < who && who ≤ 16000 then some (coreCluster ((who - 1) / 4)) else (kget who s.posted).bind (·.cluster)

/-- Clusters whose engines have requests of a context, segment and generation in flight (R270). -/
def busyClusters (c i : Nat) (gen : BitVec 16) (s : State) : List Nat :=
  ((s.asked.filter fun a => a.2 == flightTag c i gen).filterMap fun a => clusterOf (a.1 / 2 ^ 48) s) ++
  (s.posted.filterMap fun p => if p.2.ctx == c && p.2.seg == i && p.2.gen == gen then p.2.cluster else none)

/-- A shootdown goes out (R271 steps 2 and 3): the caches drop the segment, and every cluster with nothing in flight under the
old generation acknowledges. The clusters still to acknowledge. -/
def shootStart (c i : Nat) (gen : BitVec 16) (s : State) : List Nat × State :=
  let waiting := (busyClusters c i gen s).eraseDups
  (waiting, foldS ((List.range 200).filter fun g => !waiting.contains g) shootAck (shootCaches c i s))

def segRef (c i : Nat) (s : State) : State :=
  match s.ctx c with
  | none => s
  | some k => match kget i k.segs with
    | none => s
    | some g => s.setCtx c { k with segs := kset i { g with refc := g.refc + 1 } k.segs }

/-- Releases a segment reference; a segment of an abandoned context is cleared when its count reaches 0 (R337). -/
def segUnref (c i : Nat) (s : State) : State :=
  match s.ctx c with
  | none => s
  | some k => match kget i k.segs with
    | none => s
    | some g =>
      let g := { g with refc := g.refc - 1 }
      if g.refc = 0 && k.abandon = 9 && g.frames.isEmpty then
        -- the engines of the context are stopped, so that every cluster acknowledges at once (R260, R273, R337)
        let s := s.setCtx c { k with segs := kdel i k.segs }
        ctxTryDestroy c (if g.target = 0 then freeAlloc g.list s
          else foldS (List.range 200) shootAck (shootCaches c i s))
      else s.setCtx c { k with segs := kset i g k.segs }

/-- The segment of a context that an address lies in. -/
def segOf (s : State) (c va : Nat) : Option Nat :=
  match s.ctx c with
  | none => none
  | some k => (segAt k va).map (·.1)

def unrefAt (c va : Nat) (s : State) : State :=
  match segOf s c va with
  | none => s
  | some i => segUnref c i s

/-! ### Fences (R322 to R325) -/

/-- Writes the mirror (R322); a failure is a fault of engine 7 (R522). -/
def mirrorWrite (f : Nat) (s : State) : State :=
  match s.fence f with
  | none => s
  | some x =>
    if x.mirror = 0 then s
    else
      match ctxWrite x.owner x.mirror 8
          (x.epoch.toNat + put 32 1 (b2n x.signalled) + put 33 1 (b2n x.abandoned)) s with
      | (some cause, s) => vaFault x.owner 7 cause x.mirror .write 0 s
      | (none, s) => s

/-- Dispatch is stopped for the shed class of a partition (R383, R508). -/
def shedStops (p : Nat) (s : State) : Bool :=
  let c := bits (s.reg (ptBase p) 3) 1 0
  s.power.shed ≥ 3 || (s.power.shed = 2 && c ≥ 2) || (s.power.shed = 1 && c = 3)

/-- Evaluates a wait for epoch w (R324): none is pending. On an ABANDONED fence every wait is satisfied (R325). -/
def waitResult (x : Fence) (w : BitVec 32) : Option Nat :=
  let b := (x.epoch - w).toNat
  if x.abandoned then some stContextLost
  else if b = 0 then (if x.signalled then some stOk else none)
  else if b ≤ 2 ^ 31 then some stOk
  else if b ≤ 3 * 2 ^ 30 - 1 then some stStale
  else none

/-- Destroys a BIND_OFF fence whose count is 0; the block goes with its last fence (R255, R335). -/
def fenceUnref (f n : Nat) (s : State) : State :=
  match s.fence f with
  | none => s
  | some x =>
    let x := { x with refc := x.refc - n }
    if x.refc = 0 && x.bindOff then
      let s := { s with fences := kdel f s.fences }.touch (objFence f)
      let s := if x.mirror = 0 then s else unrefAt x.owner x.mirror s
      let blk := f / 2048
      let s := if s.fences.any fun e => e.1 / 2048 == blk then s
        else match kget blk s.fenceBlocks with
          | some b => freeAlloc b.2 { s with fenceBlocks := kdel blk s.fenceBlocks }
          | none => s
      ctxUnref x.owner 1 s
    else s.setFence f x

/-- Type, count and entries of a work descriptor (R313, R318). -/
def dType (w : BitVec 512) : Nat := bits w.toNat 7 0
def dTag (w : BitVec 512) : Nat := bits w.toNat 63 32
def dCount (w : BitVec 512) : Nat := bits w.toNat 71 64
def dEntry (w : BitVec 512) (i : Nat) : Nat := bytesAt w.toNat (16 + 8 * i) 8

/-- Entries of a WAIT that a fence change satisfies: the new `met` list, and how many waits ended. -/
def meetEntries (f : Nat) (x : Fence) (w : BitVec 512) (met : KV Nat) : Nat → KV Nat × Nat
  | 0 => (met, 0)
  | i + 1 =>
    let (m, k) := meetEntries f x w met i
    let e := dEntry w i
    if bits e 21 0 = f && (kget i m).isNone then
      match waitResult x (BitVec.ofNat 32 (bits e 63 32)) with
      | some st => (kset i st m, k + 1)
      | none => (m, k)
    else (m, k)

/-- The status of a WAIT whose entries are all met: that of the first entry that is not ST_OK (R318). -/
def waitStatus (met : KV Nat) (n : Nat) : Nat :=
  ((List.range n).map fun i => (kget i met).getD 0).find? (· ≠ 0) |>.getD stOk

/-- WAIT_SATISFIED (R324): every pending wait on the fence is evaluated again; where the shed level forbids dispatch, it keeps
its place until dispatch resumes (R326). -/
def rewait (f : Nat) (s : State) : State :=
  foldS (s.queues.map (·.1)) (fun q s =>
    match s.queue q, s.fence f with
    | some k, some x =>
      if shedStops k.part.val s then s else
      let (flight, ended) := k.flight.foldl (fun (acc : List Flight × Nat) d =>
        if dType d.word = 5 && d.done.isNone then
          let (met, n) := meetEntries f x d.word d.met (dCount d.word)
          let d := { d with met, done := if met.length = dCount d.word then some (waitStatus met (dCount d.word)) else none }
          (acc.1 ++ [d], acc.2 + n)
        else (acc.1 ++ [d], acc.2)) ([], 0)
      let s := s.setQueue q { k with flight }
      if ended = 0 then s
      else fenceUnref f ended (s.setFence f { x with waiters := x.waiters - ended })
    | _, _ => s) s

/-- A fence changed: its mirror is written and its waits are evaluated again. -/
def fenceChanged (f : Nat) (s : State) : State := rewait f (mirrorWrite f s)

/-- A signal of epoch e (R323). -/
def fenceSignal (f : Nat) (e : BitVec 32) (s : State) : State :=
  match s.fence f with
  | none => s
  | some x =>
    if x.abandoned || (e - x.epoch).toNat > 2 ^ 30 then s.setFence f { x with dropped := satAdd 32 x.dropped 1 }
    else fenceChanged f (s.setFence f { x with epoch := e, signalled := true })

/-- A reset (R323). -/
def fenceReset (f : Nat) (s : State) : State :=
  match s.fence f with
  | none => s
  | some x =>
    if x.abandoned then s.setFence f { x with dropped := satAdd 32 x.dropped 1 }
    else fenceChanged f (s.setFence f { x with epoch := x.epoch + 1, signalled := false })

/-- FORCE_SIGNAL (R325): once; a fence already ABANDONED is left as it is. -/
def forceSignal (f : Nat) (s : State) : State :=
  match s.fence f with
  | none => s
  | some x =>
    if x.abandoned then s
    else fenceChanged f (s.setFence f { x with epoch := x.epoch + BitVec.ofNat 32 (2 ^ 30), signalled := true,
                                               abandoned := true })

/-! ### Queues (R335) -/

/-- Releases references of a queue; a BIND_OFF queue whose count is 0 is destroyed. -/
def queueUnref (q n : Nat) (s : State) : State :=
  match s.queue q with
  | none => s
  | some k =>
    let k := { k with refc := k.refc - n }
    if k.refc = 0 && k.state = 3 then
      let s := freeAlloc k.desc ({ s with queues := kdel q s.queues }.touch (objQueue q))
      let r := segOf s k.ctx k.ring
      let h := if k.headAddr = 0 then none else segOf s k.ctx k.headAddr
      let s := foldS ((r.toList ++ h.toList).eraseDups) (fun i s => segUnref k.ctx i s) s
      ctxUnref k.ctx 1 s
    else s.setQueue q k

/-- Writes the completion word of a queue (R310); a failure is a fault of engine 4 (R522). -/
def queueWord (q : Nat) (s : State) : State :=
  match s.queue q with
  | none => s
  | some k =>
    if k.headAddr = 0 then s
    else match ctxWrite k.ctx k.headAddr 8 (k.head.toNat + 2 ^ 32 * k.done.toNat) s 4 (queueDetail q k.done.toNat) with
      | (some cause, s) => vaFault k.ctx 4 cause k.headAddr .write (queueDetail q k.done.toNat) s
      | (none, s) => s

/-- Fences of a descriptor whose references are still held: those of a WAIT's unmet entries and of a SIGNAL not yet
performed (R334). -/
def flightFences (d : Flight) : List Nat :=
  if d.done.isSome then []
  else if dType d.word = 5 then
    ((List.range (dCount d.word)).filter fun i => (kget i d.met).isNone).map fun i => bits (dEntry d.word i) 21 0
  else if dType d.word = 4 then (List.range (dCount d.word)).map fun i => bits (dEntry d.word i) 21 0
  else []

/-- Releases the references of a dispatched descriptor on fences, segments, its context and its queue (R334). -/
def flightUnref (q : Nat) (d : Flight) (s : State) : State :=
  match s.queue q with
  | none => s
  | some k =>
    let s := foldS (flightFences d) (fun f s =>
      let s := match s.fence f with
        | some x => if dType d.word = 5 then s.setFence f { x with waiters := x.waiters - 1 } else s
        | none => s
      fenceUnref f 1 s) s
    let s := foldS d.segs (fun i s => segUnref k.ctx i s) s
    queueUnref q 1 (ctxUnref k.ctx 1 s)

/-- Marks a dispatched descriptor's own effects as performed, with its status. -/
def flightDone (q : Nat) (index : BitVec 32) (st : Nat) (s : State) : State :=
  match s.queue q with
  | none => s
  | some k => s.setQueue q { k with
      flight := k.flight.map fun d => if d.index = index && d.done.isNone then { d with done := some st } else d }

/-! ### Launches (R91, R316, R336) -/

/-- Folds the traffic of a context into its counters (R336). -/
def foldTraffic (c : Nat) (s : State) : State :=
  match s.ctx c, kget c s.traffic with
  | some k, some (r, w) =>
    { s.setCtx c { k with bytesRead := (k.bytesRead + r) % 2 ^ 64, bytesWritten := (k.bytesWritten + w) % 2 ^ 64 } with
      traffic := kdel c s.traffic }
  | _, _ => s

/-- The 64 bytes of a launch report (R316). -/
def reportWord (status written dropped start finish cycles swatch : Nat) : Nat :=
  put 0 16 status + put 32 32 written + put 64 32 dropped + put 96 64 start + put 160 64 finish +
  put 224 64 cycles + put 288 64 swatch

/-- A write posted for a launch is still to come: of its DMA engines, or a report of the hub. One that a frozen port holds
delays nothing (R295, R338). -/
def launchPosts (key : Nat) (s : State) : Bool :=
  s.posted.any fun e => e.2.link == some key && !(e.2.target == 1 && !hostOpen s)

/-- A dispatched launch ends with a status, once the report writes it still waits for are answered (R310, R522). -/
def flightEnds (q : Nat) (index : BitVec 32) (st : Nat) (s : State) : State :=
  if !launchPosts (q * 2 ^ 32 + index.toNat) s then flightDone q index st s
  else match s.queue q with
    | none => s
    | some k => s.setQueue q { k with
        flight := k.flight.map fun d => if d.index = index && d.done.isNone then { d with ending := some st } else d }

/-- Ends the launches whose report writes are all answered. -/
def settleEndings (s : State) : State :=
  foldS (s.queues.map (·.1)) (fun q s => match s.queue q with
    | none => s
    | some k => foldS k.flight (fun d s => match d.ending with
      | some st => if d.done.isSome || launchPosts (q * 2 ^ 32 + d.index.toNat) s then s else flightDone q d.index st s
      | none => s) s) s

/-- A census or report write of a launch has faulted: the launch ends with ST_CONTEXT_LOST (R522). -/
def launchBad (key : Nat) (s : State) : State :=
  let s := match kget key s.launches with
    | some l => { s with launches := kset key { l with badWrite := true } s.launches }
    | none => s
  match s.queue (key / 2 ^ 32) with
  | none => s
  | some k => s.setQueue (key / 2 ^ 32) { k with
      flight := k.flight.map fun d => if d.index.toNat = key % 2 ^ 32 && d.ending.isSome then
        { d with ending := some stContextLost } else d }

/-- Writes a launch report, if the descriptor names one; a failure is a fault of engine 7 and makes the status
ST_CONTEXT_LOST (R316, R522). -/
def launchReport (key ctx addr status word : Nat) (s : State) : Nat × State :=
  if addr = 0 then (status, s)
  else match ctxWrite ctx addr 64 word s (link := some key) with
    | (some cause, s) => (stContextLost, vaFault ctx 7 cause addr .write 0 s)
    | (none, s) => (status, s)

/-- LAUNCH_COMPLETE (R91, R176, R316): every core has finished, and every write of the launch is acknowledged, at DEV and to a
window at SYS. A launch that a reset has stopped does not complete: its descriptor is discarded (R34, R384). -/
def launchFinish (key : Nat) (s : State) : State :=
  match kget key s.launches with
  | none => s
  | some l =>
    if s.rst.inProgress || (s.part l.part.val).resetting.isSome || l.left ≠ 0 || launchPosts key s then s else
    let codes := ((List.range l.count).map fun i => (List.range 4).map fun e => 4 * (l.first + i) + e + 1).flatten
    let (clear, s) : Bool × State := codes.foldl (fun (a : Bool × State) k =>
      let (b, s) := sysRelease k a.2
      (a.1 && b, s)) (true, s)
    if !clear then s
    else
      let st := if l.faulted || l.badWrite then stContextLost else stOk
      let (st, s) := launchReport key l.ctx l.report st
        (reportWord st l.written l.dropped l.start l.finish l.coreCycles l.swatch) s
      let s := { s with launches := kdel key s.launches }
      let s := match s.ctx l.ctx with
        | some k => s.setCtx l.ctx { k with coreCycles := (k.coreCycles + l.coreCycles) % 2 ^ 64 }
        | none => s
      flightEnds l.queue l.index st (foldTraffic l.ctx s)

/-- Completes every launch whose cores have all finished. -/
def settleLaunches (s : State) : State :=
  foldS (s.launches.map (·.1)) launchFinish s

/-- CORE_FAULT (R92) and the end of every launch whose last core it stops (R316). -/
def engineFault (c eng cause : Nat) (s : State) (va : Option Nat := none) (pa : Option Nat := none)
    (seg : Nat := 0) (detail : Nat := 0) : State :=
  settleLaunches (coreFault c eng cause s va pa seg detail)

end Sys2Proof.Machine
end

