-- ==== Sys2Proof/Machine/Packet.lean ====
section
/-!
DEFINITION. What every command packet shares: its checks, its reply, staging in a transaction and its direct
performance (R340 to R348, R353 to R357, R360, R362).
-/
namespace Sys2Proof.Machine

/-- What performing an operation gives: status, error offset, and reply data of `len` bytes. -/
structure OpRes where
  status : Nat := 0
  err : Nat := 0xFFFF
  len : Nat := 0
  data : Nat := 0
  deriving DecidableEq, Repr, Inhabited

/-- A refusal: status and error offset. -/
def bad (status : Nat) (err : Nat := 0xFFFF) : OpRes := { status, err }

/-- How R351 names the PARTITION column. -/
inductive PCol where
  | p | f | any
  deriving DecidableEq, Repr, Inhabited

/-- What R351 and R362 say of an opcode. -/
structure OpInfo where
  code : Nat
  col : PCol
  stageable : Bool := false
  /-- served at L4: queries and commands that only destroy, release, unmap or unbind (R362) -/
  atL4 : Bool := false
  /-- a query, served by the mailbox at L5 (R362) -/
  query : Bool := false
  /-- served at L5 too, though it is no query (R393) -/
  atL5 : Bool := false
  /-- served before CO10 by the mailbox (R350) -/
  early : Bool := false
  /-- served in SCRAPPED and LOCKED (R462) -/
  anyLc : Bool := false
  /-- the cast-on stage from whose start the mailbox serves it, when it is served before ready (R350, R462, R475, R514) -/
  from_ : Nat := 0
  /-- served while a partition reset runs (R385): OBJ_RELEASE and the destroy commands, beside the queries -/
  inReset : Bool := false
  deriving DecidableEq, Repr, Inhabited

/-- Advances DONE over the replied slots (R348). -/
def doneAdvance : Nat → CmdRing → CmdRing
  | 0, r => r
  | n + 1, r =>
    match kget r.done.toNat r.replied with
    | some _ => doneAdvance n { r with replied := kdel r.done.toNat r.replied, done := r.done + 1 }
    | none => r

/-- The 32-byte reply header (R342). -/
def replyWord (p : Pkt) (opcode : Nat) (r : OpRes) (txn stage : Nat) : Nat :=
  put 0 16 opcode + put 16 16 r.status + put 32 16 r.len + put 48 16 r.err + put 64 32 p.tag.toNat + put 96 32 txn +
  put 128 16 stage + put 160 32 (if p.path = .ring then p.seq.toNat else 0xFFFFFFFF) + put 192 1 1

/-- Two packets of one place: a mailbox path has one packet at a time (R350). -/
def samePkt (a b : Pkt) : Bool := a.path == b.path && (a.path != .ring || a.seq == b.seq)

/-- Writes the reply of a packet, its data before its header, its completion word and its NOTIFY event (R342, R343, R348,
R350). -/
def replyTo' (p : Pkt) (opcode : Nat) (r : OpRes) (txn stage : Nat) (s : State) : State :=
  let word := replyWord p opcode r txn stage
  let s := { s with accepted := s.accepted.filter fun a => !samePkt a.pkt p }
  let s :=
    if p.path = .ring then
      let c := s.cmd
      let slot := c.base + 4096 * (p.seq.toNat % 2 ^ c.log2)
      let s := report (.write slot 32 word) (if r.len = 0 then s else report (.write (slot + 32) r.len r.data) s)
      let c' := doneAdvance 1024 { c with replied := kset p.seq.toNat true c.replied }
      let c' := if c'.closing && !(s.accepted.any fun a => a.pkt.path == .ring) then
          { c' with closing := false, enable := false } else c'
      let s := { s with cmd := c' }
      if c'.done ≠ c.done && c'.doneAddr ≠ 0 then
        report (.write c'.doneAddr 8 (c'.head.toNat + 2 ^ 32 * c'.done.toNat)) s
      else s
    else { s with mbx := { s.mbx with buf := mwrite (mwrite s.mbx.buf 32 r.len r.data) 0 32 word, busy := false,
                                      done := true } }
  if p.notify then
    let payload := complPayload 0xFFFF r.status (if p.path = .ring then p.seq.toNat else 0xFFFFFFFF) p.tag.toNat
    if p.partition.toNat < 8 then partEvent 0x01 p.partition.toNat payload s else hubEvent 0x01 1 payload s
  else s

/-! ### Packets that wait, and changes in hand (R341, R347, R358 to R360) -/

/-- The die of site n as an agent (R192). -/
def siteAgent (n : Nat) : Nat := 0xC8 + n

/-- The entry names the agent as OWNER or sharer. -/
def dirNames (a : Nat) (l : Line) : Bool :=
  match l.dir with
  | some d => d.owner == some a || d.sharers.contains a
  | none => false

/-- Something of the die is still to come back. -/
def siteOwes (n : Nat) (s : State) : Bool :=
  !(s.site n).toRecall.isEmpty || s.lines.any fun e => dirNames (siteAgent n) e.2 ||
    ((e.2.tx.map fun t => t.waiting.contains (siteAgent n)).getD false)

/-- A line of granules g to g + n − 1 that a partner die may hold, or that is busy. -/
def dieHolds (g n : Nat) (e : Nat × Line) : Bool :=
  g ≤ granOf (64 * e.1) && granOf (64 * e.1) < g + n &&
    (e.2.tx.isSome || match e.2.dir with
      | some d => d.bcast || d.owner.any (200 ≤ ·) || d.sharers.any (200 ≤ ·)
      | none => false)

/-- Drain work of a packet's change is still to end: a shootdown (R271), a stopping queue (R305), the recall of a withdrawn
site (R410), a granule of a partner die's (R267), or a window that closes (R439). -/
def packetOpen (p : Pkt) (s : State) : Bool :=
  (s.shoots.any fun u => samePkt u.pkt p && (!u.started || !u.waiting.isEmpty)) ||
  (s.queues.any fun q => (q.2.stopping.map (samePkt p)).getD false && !q.2.flight.isEmpty) ||
  (s.drops.any fun d => samePkt d.1 p && s.lines.any (dieHolds d.2.1 d.2.2)) ||
  (s.sites.any fun x => x.2.withdraws.any (samePkt p) && (siteOwes x.1 s || x.2.resetting.isSome)) ||
  (s.winIn.any fun w => (w.2.closing.map (samePkt p)).getD false && s.slPorts.any fun e => e.2.rxq.any fun i =>
    !i.late && 1 ≤ i.txn.op.toNat && i.txn.op.toNat ≤ 3 && i.txn.win.toNat == w.1)

/-- Gives back what a shootdown has taken: the kept entries and the generation, or the segment (R273). -/
def shootRestore (u : Shoot) (s : State) : State :=
  match s.ctx u.ctx with
  | none => s
  | some k => match u.saved with
    | some g => s.setCtx u.ctx { k with segs := kset u.seg g k.segs }
    | none => match kget u.seg k.segs with
      | none => s
      | some g =>
        if !u.started then s
        else
          let frames := u.pages.foldl (fun m e => kset e.1 e.2 m) g.frames
          s.setCtx u.ctx { k with segs := kset u.seg { g with frames, gen := g.gen - 1 } k.segs }

/-- Takes back the drain work of a packet's change: its objects are again as before it. -/
def unprep (p : Pkt) (s : State) : State :=
  let l := s.shoots.filter fun u => samePkt u.pkt p
  let s := foldS l shootRestore { s with shoots := s.shoots.filter fun u => !samePkt u.pkt p }
  { s with
    drops := s.drops.filter fun d => !samePkt d.1 p
    queues := kmap (fun _ q => if (q.stopping.map (samePkt p)).getD false then { q with stopping := none } else q) s.queues
    sites := kmap (fun _ x => { x with withdraws := x.withdraws.filter fun k => !samePkt k p }) s.sites
    winIn := kmap (fun _ w => if (w.closing.map (samePkt p)).getD false then { w with closing := none } else w) s.winIn }

/-- An object is held by a change in hand (R359). -/
def isHeld (o : Nat) (s : State) : Bool := s.changes.any fun c => c.objs.contains o

/-- A packet is not performed yet: an object it names is held, an earlier packet names it or belongs to its transaction, or
SERIAL says so (R341, R347, R359). Its row then leaves everything as it is and comes again. -/
def packetWaits (p : Pkt) (objs : List Nat) (s : State) : Bool :=
  objs.any (fun o => isHeld o s) ||
  (s.changes.any fun c => samePkt c.pkt p) ||
  (s.accepted.takeWhile fun a => !samePkt a.pkt p).any fun a =>
    (a.pkt.path == p.path && (a.pkt.serial || p.serial)) || (a.objs.any fun o => objs.contains o) ||
    (p.txn ≠ 0 && a.pkt.txn == p.txn)

/-- The reply of a packet that is not staged: TXN echoed, STAGE_INDEX 0xFFFF. -/
def reply (p : Pkt) (opcode : Nat) (r : OpRes) (s : State) : State := replyTo' p opcode r p.txn.toNat 0xFFFF s

/-- The checks of every packet before its own (R341, R343, R350 to R352, R362, R37): none passes. -/
def headerCheck (p : Pkt) (i : OpInfo) (lenOk : Bool) (s : State) : Option OpRes :=
  if !s.co.ready && !(i.early && (i.from_ ≤ s.co.stage || i.from_ = 3 && s.co.failCode = 0x202)) then
    -- a reset asked for during a warm reset is refused with ST_BUSY (R38)
    some (bad (if s.rst.inProgress && (i.code = 0x400 || i.code = 0x500 || i.code = 0x600) then stBusy else stNotReady))
  else if p.partition.toNat > 7 && p.partition.toNat ≠ 15 then some (bad stBadParam 2)
  else if i.col = .f && p.partition.toNat ≠ 15 then some (bad stBadParam 2)
  else if i.col = .p && p.partition.toNat = 15 then some (bad stBadParam 2)
  else if (s.sec.lc = 4 || s.sec.lc = 7) && !i.anyLc then some (bad stLcState)
  else if s.power.shed ≥ 5 && !(i.query || i.atL5) then some (bad stShed)
  else if s.power.shed = 4 && p.txn = 0 && !(i.atL4 || i.query) then some (bad stShed)
  else if s.power.shed = 4 && p.txn ≠ 0 then some (bad stShed)
  else if p.partition.toNat < 8 && (s.part p.partition.toNat).resetting.isSome && i.col = .p && !(i.inReset || i.query)
    then some (bad stBusy)
  else if !lenOk then some (bad stBadParam 12)
  else match p.rsv with
    | some o => some (bad stBadParam o.toNat)
    | none => if p.txn ≠ 0 && !i.stageable then some (bad stNotPermitted 4) else none

/-- A packet that is only performed directly; `objs` are the objects it names. -/
def directPacket (p : Pkt) (i : OpInfo) (lenOk : Bool) (act : State → OpRes × State) (s : State) (objs : List Nat := []) :
    State :=
  if packetWaits p objs s then s else
  match headerCheck p i lenOk s with
  | some r => reply p i.code r s
  | none =>
    let (r, s) := act s
    reply p i.code r s

/-- Ids reserved by open transactions, as kind code × 2^32 + id (R353). -/
def State.reservedIds (s : State) : List Nat :=
  (s.txns.map fun t => t.2.ops.filterMap (·.reserved)).flatten

/-- The first number from `i` that is not used, searching `fuel` numbers. -/
def lowestFrom (used : Nat → Bool) : Nat → Nat → Option Nat
  | 0, _ => none
  | k + 1, i => if used i then lowestFrom used k (i + 1) else some i

/-- The lowest id below `limit` that neither the table nor an open transaction holds. -/
def lowestId (kind limit : Nat) (used : Nat → Bool) (s : State) : Option Nat :=
  let r := s.reservedIds
  lowestFrom (fun i => used i || r.contains (kind * 2 ^ 32 + i)) limit 0

/-- Ends a change of configuration that began at generation `g0`: HUB_CFG_GEN advances once, and the objects named and
those altered on the way carry the new value (R357, R358 step 6, R360). -/
def stampAll (g0 : Nat) (objs : List Nat) (s : State) : State :=
  let s := { s with cfgGen := g0 + 1, gens := kmap (fun _ g => if g0 < g then g0 + 1 else g) s.gens }
  objs.foldl (fun t o => t.stamp o) s

/-- The object of a reserved id (R353): context, queue, fence or instance. -/
def reservedObj (k : Nat) : Nat :=
  let i := k % 2 ^ 32
  if k / 2 ^ 32 = 1 then objCtx i else if k / 2 ^ 32 = 2 then objQueue i else if k / 2 ^ 32 = 3 then objFence i
  else objInst i

/-- The object a creation makes, from its opcode and its reply. -/
def createdObj (opcode : Nat) (r : OpRes) : List Nat :=
  if opcode = 0x100 then [objCtx r.data] else if opcode = 0x200 then [objQueue r.data]
  else if opcode = 0x210 then [objFence r.data] else if opcode = 0x410 then [objInst r.data] else []

/-- Some object is reserved by an open transaction other than `txn` (R353). -/
def reservedElse (txn : Nat) (objs : List Nat) (s : State) : Bool :=
  s.txns.any fun t => t.1 != txn && t.2.ops.any fun o => (o.reserved.map fun k => objs.contains (reservedObj k)).getD false

/-- The place among objects of the first that exists and belongs to another partition than the packet's (R343). -/
def foreignAt (p : Pkt) (objs : List Nat) (s : State) : Option Nat :=
  let other (o : Nat) : Bool :=
    let i := o % 0x1000000000000
    let part : Option (Fin 8) :=
      if o = objCtx i then (s.ctx i).map (·.part) else if o = objQueue i then (s.queue i).map (·.part)
      else if o = objFence i then (s.fence i).map (·.part) else if o = objInst i then (kget i s.insts).map (·.part) else none
    match part with
    | some q => q.val != p.partition.toNat % 8
    | none => false
  objs.findIdx? other

/-- What a checked direct packet does (R360): its drain work starts; the change is made and the packet replies once it has
ended. -/
def changeStart (p : Pkt) (code : Nat) (op : StageOp) (objs : List Nat) (prep : Pkt → State → State)
    (act : Option Nat → State → OpRes × State) (s : State) : State :=
  let t := prep p s
  if packetOpen p t then { t with changes := t.changes ++ [{ pkt := p, opcode := code, objs, rest := [{ op }] }] }
  else
    let (r, s') := act none (unprep p t)
    reply p code r (stampAll s.cfgGen (objs ++ createdObj code r) s')

/-- No drain work. -/
def noPrep : Pkt → State → State := fun _ s => s

/-- Adds an operation to an open transaction: its reply carries the reserved id (R353, R354). -/
def stageAdd (p : Pkt) (code : Nat) (op : StageOp) (bytes : Nat) (reserved : Option (Option Nat)) (t : Txn) (s : State) :
    State :=
  match reserved with
  | none => reply p code (bad stNoResource) s
  | some id =>
    let t' := { t with ops := t.ops ++ [{ op, reserved := id, bytes }] }
    let (len, data) := match id with
      | some k => (if k / 2 ^ 32 = 4 then 2 else 4, k % 2 ^ 32)
      | none => (0, 0)
    replyTo' p code { len, data } p.txn.toNat t.ops.length { s with txns := kset p.txn.toNat t' s.txns }

/-- A stageable packet (R351, R356, R360): its form check, then staged or performed as a one-operation commit. `act`
takes the id a staged creation reserved; `prep` starts the operation's drain work. -/
def stagePacket (p : Pkt) (i : OpInfo) (lenOk : Bool) (form : State → Option OpRes) (op : StageOp) (bytes : Nat)
    (reserve : State → Option (Option Nat)) (objs : State → List Nat) (act : Option Nat → State → OpRes × State)
    (s : State) (prep : Pkt → State → State := noPrep) : State :=
  if packetWaits p (objs s) s then s else
  match headerCheck p i lenOk s with
  | some r => reply p i.code r s
  | none =>
    if p.txn = 0 then
      match form s with
      | some r => reply p i.code r s
      | none =>
        let (r, _) := act none s
        if r.status = stOk then changeStart p i.code op (objs s) prep act s else reply p i.code r s
    else match kget p.txn.toNat s.txns with
      | none => reply p i.code (bad stTxnAborted 4) s
      | some t =>
        if t.path ≠ p.path then reply p i.code (bad stNotPermitted 4) s
        else if t.scope ≠ 15 && t.scope ≠ p.partition.toNat then reply p i.code (bad stNotPermitted 2) s
        else if t.committing then reply p i.code (bad stTxnAborted 4) s
        else match form s with
          | some r => reply p i.code r s
          | none =>
            if reservedElse p.txn.toNat (objs s) s then
              reply p i.code (bad stBadParam (if i.code = 0x200 then 36 else 32)) s
            else if i.col = .p && (foreignAt p (objs s) s).isSome then
              let k := (foreignAt p (objs s) s).getD 0
              reply p i.code (bad stNotPermitted (if i.code = 0x200 then 36 else if i.code = 0x410 then 48 + 4 * k else 32)) s
            else if t.ops.length ≥ 4096 || (t.ops.foldl (fun n o => n + o.bytes) 0) + bytes > 1048576 then
              reply p i.code (bad stTxnFull) s
            else stageAdd p i.code op bytes (reserve s) t s

/-- No id to reserve. -/
def noReserve : State → Option (Option Nat) := fun _ => some none

/-- The partition number of a packet of column "p". -/
def pnum (p : Pkt) : Nat := p.partition.toNat % 8

/-- The context a packet names, of its partition (R343): the refusal, or the context. -/
def ctxOf (p : Pkt) (c : Nat) (off : Nat) (s : State) : Except OpRes Ctx :=
  match s.ctx c with
  | none => .error (bad stBadParam off)
  | some k => if k.part.val ≠ pnum p then .error (bad stNotPermitted off) else .ok k

/-- The context belongs to an instance that is ACTIVE or FREEZING (R389). -/
def instBusy (k : Ctx) (s : State) : Bool :=
  match k.inst with
  | some i => ((kget i s.insts).map fun x => x.state == 0 || x.state == 1).getD false
  | none => false

/-- The queue a packet names. -/
def queueOf (p : Pkt) (q : Nat) (off : Nat) (s : State) : Except OpRes Queue :=
  match s.queue q with
  | none => .error (bad stBadParam off)
  | some k => if k.part.val ≠ pnum p then .error (bad stNotPermitted off) else .ok k

/-- The fence a packet names. -/
def fenceOf (p : Pkt) (f : Nat) (off : Nat) (s : State) : Except OpRes Fence :=
  match s.fence f with
  | none => .error (bad stBadParam off)
  | some k => if k.part.val ≠ pnum p then .error (bad stNotPermitted off) else .ok k

end Sys2Proof.Machine
end

