-- ==== Sys2Proof/Machine/Posted.lean ====
section
/-!
DEFINITION. The writes that were accepted before they are answered: how they go on, what a refusal faults, and the report
writes that wait in the host port (R79, R91, R274, R288, R310, R519, R522).
-/
namespace Sys2Proof.Machine

/-- A posted write is refused or fails: it faults the engine that issued it, in its own context also when the core has moved
on to another launch (R519), or the hub's agent, with the launch it reports on (R522). -/
def postedFail (p : Posted) (cause d : Nat) (s : State) : State :=
  let detail := if cause = fcSiteUnavailable then d else p.detail
  if p.cluster.isSome then
    let x := s.core p.core
    if x.run && p.link == some x.link then
      engineFault p.core p.eng cause s (va := some p.va) (pa := some p.pa) (seg := p.seg) (detail := detail)
    else
      let dom := 0x10 + coreQuad p.core
      settleLaunches (ctxFault p.ctx
        { cause, engine := p.eng, first := false, vaValid := true, paValid := true, ctx := p.ctx, part := p.part,
          core := p.core, segment := p.seg, pc := x.pc, domain := dom, count := s.count dom, va := p.va, pa := p.pa,
          detail } s)
  else
    let s := agentFault p.ctx p.eng cause s (va := some p.va) (pa := some p.pa) (seg := p.seg) (detail := detail)
    match p.link with
    | some key => launchBad key s
    | none => s

/-- Takes a posted write away. -/
def postedDrop (k : Nat) (s : State) : State := { s with posted := kdel k s.posted }

/-- Goes on with one posted write; those to host space wait in the port. -/
def postedStep (k : Nat) (s : State) : State :=
  match kget k s.posted with
  | none => s
  | some p =>
    if p.target = 1 then s
    else match postedRun k p s with
      | (.ok _, s) => postedDrop k s
      | (.wait, s) => s
      | (.fault cause d, s) => postedFail p cause d (postedDrop k s)

/-- Goes on with every posted write, and with the launches that waited for them. -/
def settlePosted (s : State) : State :=
  if s.posted.isEmpty then s else settleLaunches (settleEndings (foldS (s.posted.map (·.1)) postedStep s))

/-- Sends what waits in the port in order, up to a write whose translation is still to come (R274, R288). -/
def parkedRun : Nat → State → State
  | 0, s => s
  | n + 1, s =>
    if !hostOpen s then s
    else match s.port.parked with
    | [] => intxEval s
    | h :: t =>
      let next (s : State) : State := { s with port := { s.port with parked := t } }
      match h with
      | .posted k _ => match kget k s.posted with
        | none => parkedRun n (next s)
        | some p => match atcLook k p.ctx (p.pa - 0x800000000000) true s with
          | (none, s) => s
          | (some (.ok a), s) => parkedRun n (postedDrop k (next (emit (.iovaWrite p.ctx a p.len p.val) s)))
          | (some (.error cause), s) => parkedRun n (postedFail p cause 0 (postedDrop k (next s)))
      | .write a len v => parkedRun n (next (emit (.hostWrite a len v) s))
      | _ => parkedRun n (next s)

/-- Sends what waits in the port as far as it can. -/
def releaseParked (s : State) : State :=
  if s.port.parked.isEmpty then s else settleEndings (parkedRun (s.port.parked.length + 1) s)

end Sys2Proof.Machine
end

