-- ==== Sys2Proof/Machine/Translation.lean ====
section
/-!
DEFINITION. Contexts, segments, frames, granules and their withdrawal: the commands of chapter 8 (R255 to R275).
-/
namespace Sys2Proof.Machine

/-! ### CTX_CREATE, CTX_DESTROY, CTX_QUERY -/

/-- CTX_CREATE (R352): the lowest free id, its descriptor and its segment table (R255). -/
def actCtxCreate (p : Pkt) (pasid : BitVec 20) (pasidEn priv : Bool) (id : Option Nat) (s : State) : OpRes × State :=
  match (match id with
    | some k => some (k % 2 ^ 32)
    | none => lowestId 1 1048576 (fun i => (s.ctx i).isSome) s) with
  | none => (bad stNoResource, s)
  | some c => match alloc (pnum p) 64 64 s with
    | none => (bad stNoResource, s)
    | some (d, s1) => match alloc (pnum p) 2048 64 s1 with
      | none => (bad stNoResource, s)
      | some (t, s2) =>
        ({ len := 4, data := c },
         s2.setCtx c { part := Fin.ofNat 8 (pnum p), pasid := pasid.toNat, pasidEn, priv, desc := d, segTable := t })

def infoCtxCreate : OpInfo := { code := 0x100, col := .p, stageable := true }

def execCtxCreate (p : Pkt) (pasid : BitVec 20) (pasidEn priv : Bool) (s : State) :
    Host.Outcome State Fault Refusal :=
  .next (stagePacket p infoCtxCreate (p.paramLen = 8) (fun _ => none) (.ctxCreate p pasid pasidEn priv) 8
    (fun s => (lowestId 1 1048576 (fun i => (s.ctx i).isSome) s).map fun i => some (1 * 2 ^ 32 + i))
    (fun _ => []) (actCtxCreate p pasid pasidEn priv) s)

/-- CTX_DESTROY (R334, R335): sets BIND_OFF and releases the creation reference; once. -/
def actCtxDestroy (p : Pkt) (c : Nat) (s : State) : OpRes × State :=
  match ctxOf p c 32 s with
  | .error r => (r, s)
  | .ok k =>
    if k.state = 2 then ({}, s)
    else if instBusy k s then (bad stBusy, s)
    else ({}, ctxUnref c 1 (s.setCtx c { k with state := 2, created := false }))

def execCtxDestroy (p : Pkt) (ctx : BitVec 20) (s : State) : Host.Outcome State Fault Refusal :=
  .next (stagePacket p { code := 0x101, col := .p, stageable := true, atL4 := true, inReset := true } (p.paramLen = 8) (fun _ => none)
    (.ctxDestroy p ctx) 8 noReserve (fun _ => [objCtx ctx.toNat]) (fun _ => actCtxDestroy p ctx.toNat) s)

/-- Bytes mapped through valid frame entries in a tier (R336). -/
def mappedIn (k : Ctx) (tier : Nat) : Nat :=
  k.segs.foldl (fun n e => n + (e.2.frames.filter fun f => tierOf f.2 = tier).length *
    (if e.2.frame1g then 0x40000000 else 0x200000)) 0

/-- The 80 bytes of CTX_QUERY (R336). -/
def ctxQueryWord (c : Nat) (k : Ctx) (s : State) : Nat :=
  put 0 8 k.state + put 16 16 k.cause + put 32 32 k.refc + put 64 32 k.lostFaults +
  put 96 16 (kcount (fun _ q => q.ctx == c) s.queues) + put 112 16 k.segs.length +
  put 128 32 (kcount (fun _ f => f.owner == c) s.fences) + put 192 64 k.launches + put 256 64 k.coreCycles +
  put 320 64 k.bytesRead + put 384 64 k.bytesWritten +
  put 448 64 (mappedIn k 0) + put 512 64 (mappedIn k 1) + put 576 64 (mappedIn k 2)

def actCtxQuery (p : Pkt) (c : Nat) (s : State) : OpRes × State :=
  match ctxOf p c 32 s with
  | .error r => (r, s)
  | .ok k => ({ len := 80, data := ctxQueryWord c k s }, s)

def execCtxQuery (p : Pkt) (ctx : BitVec 20) (s : State) : Host.Outcome State Fault Refusal :=
  .next (directPacket p { code := 0x102, col := .p, query := true } (p.paramLen = 8) (actCtxQuery p ctx.toNat) s
    [objCtx ctx.toNat])

/-! ### SEG_SET, SEG_CLEAR (R258 to R260) -/

/-- Reads a segment descriptor (R258). -/
def segOfWord (v : Nat) : Segment :=
  { r := bit v 1, w := bit v 2, x := bit v 3, stream := bit v 4, fine := bit v 5, auto := bit v 6, frame1g := bit v 7,
    target := bits v 9 8, floor := bits v 11 10, gen := 0, refc := 0, base := bits v 127 64, len := bits v 159 128,
    tgt := bits v 167 160, list := bits v 255 192, frames := [] }

/-- Size of a site's aperture (R224). -/
def apertureSize (n : Nat) : Nat := if n = 0 then 0xC0000000000 else 0x100000000000

/-- The field rules of R259 that no other state bears on. -/
def segForm (v : Nat) : Option OpRes :=
  let g := segOfWord v
  let zeros := !g.stream && !g.fine && !g.auto && !g.frame1g && g.floor = 0 && !g.x
  if !bit v 0 then some (bad stBadParam 40)
  else if bits v 15 12 ≠ 0 then some (bad stBadParam 41)
  else if bits v 31 16 ≠ 0 then some (bad stBadParam 42)
  else if bits v 63 32 ≠ 0 then some (bad stBadParam 44)
  else if bits v 191 168 ≠ 0 then some (bad stBadParam 61)
  else if g.base % (if g.frame1g then 0x40000000 else 0x200000) ≠ 0 then some (bad stBadParam 48)
  else if g.len = 0 || (g.frame1g && g.len % 512 ≠ 0) then some (bad stBadParam 56)
  else if g.base + g.len * 0x200000 > 2 ^ 56 then some (bad stBadParam 56)
  else if g.floor = 3 then some (bad stBadParam 41)
  else match g.target with
  | 0 =>
    if g.tgt ≠ 0 then some (bad stBadParam 60)
    else if g.list ≠ 0 then some (bad stBadParam 64)
    else if g.fine && g.auto then some (bad stBadParam 40) else none
  | 1 =>
    if g.tgt ≠ 0 then some (bad stBadParam 60)
    else if !zeros then some (bad stBadParam 40)
    else if g.list % 0x200000 ≠ 0 || g.list + g.len * 0x200000 > 2 ^ 47 then some (bad stBadParam 64) else none
  | 2 =>
    if g.tgt > 63 then some (bad stBadParam 60)
    else if !zeros then some (bad stBadParam 40)
    else if g.list % 0x200000 ≠ 0 || g.list + g.len * 0x200000 > 2 ^ 40 then some (bad stBadParam 64) else none
  | _ =>
    if g.tgt > 3 then some (bad stBadParam 60)
    else if !zeros then some (bad stBadParam 40)
    else if g.list % 0x200000 ≠ 0 || g.list + g.len * 0x200000 > apertureSize g.tgt then some (bad stBadParam 64)
    else none

/-- Frame entries of a TARGET 0 segment (R258). -/
def segPages (g : Segment) : Nat := if g.frame1g then g.len / 512 else g.len

def actSegSet (p : Pkt) (c i v : Nat) (s : State) : OpRes × State :=
  match ctxOf p c 32 s with
  | .error r => (r, s)
  | .ok k =>
    let g := segOfWord v
    if ctxLost k then (bad stContextLost, s)
    else if k.state = 2 then (bad stNotPermitted, s)
    else if (kget i k.segs).isSome then (bad stBadParam 36, s)
    else if k.segs.any fun e => overlaps g.base (g.len * 0x200000) e.2.base (e.2.len * 0x200000) then
      (bad stBadParam 48, s)
    else if g.target = 2 && !(match kget g.tgt s.winOut with
        | some w => w.part == pnum p
        | none => false) then (bad stNotPermitted 60, s)
    else if g.target = 3 && !(((s.site g.tgt).state = 4 || (s.site g.tgt).state = 5) && (s.site g.tgt).apValid &&
        (s.site g.tgt).apOwner == pnum p) then (bad stNotPermitted 60, s)
    else if g.target = 0 then
      match alloc (pnum p) (alignUp (8 * segPages g) 64) 64 s with
      | none => (bad stNoResource, s)
      | some (a, s) => ({}, s.setCtx c { k with segs := kset i { g with list := a } k.segs })
    else ({}, s.setCtx c { k with segs := kset i g k.segs })

def execSegSet (p : Pkt) (ctx : BitVec 20) (seg : BitVec 6) (desc : BitVec 256) (s : State) :
    Host.Outcome State Fault Refusal :=
  .next (stagePacket p { code := 0x110, col := .p, stageable := true } (p.paramLen = 40)
    (fun _ => segForm desc.toNat) (.segSet p ctx seg desc) 40 noReserve
    (fun _ => [objCtx ctx.toNat, objSeg ctx.toNat seg.toNat])
    (fun _ => actSegSet p ctx.toNat seg.toNat desc.toNat) s)

/-- Granules of a frame. -/
def frameGrans (f : Nat) (g1 : Bool) : List Nat :=
  if g1 then (List.range 512).map fun i => granOf f + i else [granOf f]

/-- Adds to or takes from MAPCOUNT of the granules of frames (R262, R271). -/
def mapCount (frames : List Nat) (g1 : Bool) (up : Bool) (s : State) : State :=
  foldS frames (fun f s => foldS (frameGrans f g1) (fun g s =>
    let x := s.gran g
    s.setGran g { x with mapcount := if up then x.mapcount + 1 else x.mapcount - 1 }) s) s

def actSegClear (p : Pkt) (c i : Nat) (s : State) : OpRes × State :=
  match ctxOf p c 32 s with
  | .error r => (r, s)
  | .ok k => match kget i k.segs with
    | none => (bad stBadParam 36, s)
    | some g =>
      if g.target = 0 && !g.frames.isEmpty then (bad stBusy, s)
      else if g.refc > 0 then (bad stBusy, s)
      else
        let s := s.setCtx c { k with segs := kdel i k.segs }
        ({}, ctxTryDestroy c (if g.target = 0 then freeAlloc g.list s else s))

/-- The shootdown of a SEG_CLEAR of TARGET 1 to 3 (R260): the segment is gone for new accesses, and kept for those in flight. -/
def prepSegClear (c i : Nat) (p : Pkt) (s : State) : State :=
  match (s.ctx c).bind fun k => (kget i k.segs).map fun g => (k, g) with
  | none => s
  | some (k, g) =>
    if g.target = 0 then s
    else
      let (waiting, s) := shootStart c i g.gen (s.setCtx c { k with segs := kdel i k.segs })
      { s with shoots := s.shoots ++ [{ pkt := p, ctx := c, seg := i, started := true, gen := g.gen, saved := some g, waiting }] }

def execSegClear (p : Pkt) (ctx : BitVec 20) (seg : BitVec 6) (s : State) : Host.Outcome State Fault Refusal :=
  .next (stagePacket p { code := 0x111, col := .p, stageable := true, atL4 := true } (p.paramLen = 8) (fun _ => none)
    (.segClear p ctx seg) 8 noReserve (fun _ => [objCtx ctx.toNat, objSeg ctx.toNat seg.toNat])
    (fun _ => actSegClear p ctx.toNat seg.toNat) s (prepSegClear ctx.toNat seg.toNat))

/-! ### MAP, UNMAP (R261, R262, R271, R273) -/

/-- The refusal of one granule of a frame to map (R262, rows in order). -/
def granRefusal (p : Nat) (fine : Bool) (g : Nat) (s : State) : Option Nat :=
  let x := s.gran g
  if !s.populated (g * 0x200000) then some stBadParam
  else if isFine g s != fine then some stBadParam
  else if !x.owned || x.owner.val != p || x.struct || x.hub || x.needsScrub || x.inMotion then some stNotPermitted
  else if x.mapcount ≥ 65535 then some stNoResource
  else none

def firstSome {α β : Type} (f : α → Option β) : List α → Option β
  | [] => none
  | x :: t => match f x with
    | some b => some b
    | none => firstSome f t

/-- Maps frames one after another; the first refusal ends the command. -/
def mapFrames (p c i : Nat) (fine g1 : Bool) : List Nat → Nat → Nat → State → OpRes × State
  | [], _, _, s => ({}, s)
  | f :: t, page, off, s =>
    match s.ctx c with
    | none => (bad stBadParam off, s)
    | some k => match kget i k.segs with
      | none => (bad stBadParam off, s)
      | some g =>
        if f % (if g1 then 0x40000000 else 0x200000) ≠ 0 || f ≥ 2 ^ 48 then (bad stBadParam off, s)
        else if (kget page g.frames).isSome then (bad stBadParam off, s)
        else match firstSome (fun x => granRefusal p fine x s) (frameGrans f g1) with
          | some st => (bad st off, s)
          | none =>
            let s := s.setCtx c { k with segs := kset i { g with frames := kset page f g.frames } k.segs }
            mapFrames p c i fine g1 t (page + 1) (off + 8) (mapCount [f] g1 true s)

def actMap (p : Pkt) (c i first : Nat) (frames : List Nat) (s : State) : OpRes × State :=
  match ctxOf p c 32 s with
  | .error r => (r, s)
  | .ok k =>
    if frames.isEmpty then ({}, s)
    else if ctxLost k then (bad stContextLost, s)
    else if k.state = 2 then (bad stNotPermitted, s)
    else match kget i k.segs with
    | none => (bad stBadParam 36, s)
    | some g =>
      if g.target ≠ 0 then (bad stBadParam 36, s)
      else if first + frames.length > segPages g then (bad stBadParam 40, s)
      else
        let (r, s') := mapFrames (pnum p) c i g.fine g.frame1g frames first 48 s
        if r.status = stOk then (r, s') else (r, s)

/-- The granules of the frames of a MAP: the 512 of each where the segment's frames are of 1 GiB (R357). -/
def granObjs (c i : Nat) (frames : List Nat) (s : State) : List Nat :=
  let g1 := ((s.ctx c).bind fun k => (kget i k.segs).map (·.frame1g)).getD false
  (frames.map fun f => (frameGrans f g1).map objGran).flatten

/-- The form of MAP: bits [63:48] of a FRAME are reserved (R352). -/
def mapForm (frames : List Nat) : Option OpRes :=
  (frames.findIdx? fun f => decide (2 ^ 48 ≤ f)).map fun k => bad stBadParam (48 + 8 * k)

/-- The place in a MAP of the first page whose UNMAP is in step 1 to 3. -/
def mapMeets (c i first n : Nat) (s : State) : Option Nat :=
  (List.range n).find? fun k => s.shoots.any fun u => u.ctx == c && u.seg == i && u.saved.isNone &&
    (if u.started then (kget (first + k) u.pages).isSome else u.first ≤ first + k && first + k < u.first + u.count)

/-- MAP (R262). DEDUCED (log 94): one of a page whose UNMAP runs is refused with ST_BUSY at once, as R273 says, and does not
wait for the hold of R359. -/
def execMap (p : Pkt) (ctx : BitVec 20) (seg : BitVec 6) (first : BitVec 32) (frames : List (BitVec 64)) (s : State) :
    Host.Outcome State Fault Refusal :=
  let fs := frames.map (·.toNat)
  let c := ctx.toNat
  let i := seg.toNat
  let info : OpInfo := { code := 0x120, col := .p, stageable := true }
  let lenOk : Bool := p.paramLen.toNat = 16 + 8 * frames.length && frames.length ≤ 506
  match mapMeets c i first.toNat fs.length s with
  | some k =>
    if p.txn = 0 && (headerCheck p info lenOk s).isNone && (mapForm fs).isNone then
      .next (reply p 0x120 (bad stBusy (48 + 8 * k)) s)
    else .next (stagePacket p info lenOk (fun _ => mapForm fs) (.map p ctx seg first frames)
      (16 + 8 * frames.length) noReserve (fun s => [objCtx c, objSeg c i] ++ granObjs c i fs s)
      (fun _ => actMap p c i first.toNat fs) s)
  | none => .next (stagePacket p info lenOk (fun _ => mapForm fs) (.map p ctx seg first frames)
    (16 + 8 * frames.length) noReserve (fun s => [objCtx c, objSeg c i] ++ granObjs c i fs s)
    (fun _ => actMap p c i first.toNat fs) s)

/-- Step 1 of R271: VALID cleared in the named entries, GEN raised; the pages withdrawn. -/
def withdraw (c i first count : Nat) (s : State) : KV Nat × Bool × State :=
  match s.ctx c with
  | none => ([], false, s)
  | some k => match kget i k.segs with
    | none => ([], false, s)
    | some g =>
      let out := kfilter (fun pg _ => first ≤ pg && pg < first + count) g.frames
      let g' := { g with frames := kfilter (fun pg _ => !(first ≤ pg && pg < first + count)) g.frames, gen := g.gen + 1 }
      (out, g.frame1g, s.setCtx c { k with segs := kset i g' k.segs })

/-- A MIGRATE of a named page is in hand (R249). -/
def pageMoves (c i first count : Nat) (s : State) : Bool :=
  s.moves.any fun m => m.maps.any fun e => e.1 == c && e.2.1 == i && first ≤ e.2.2 && e.2.2 < first + count

/-- Steps 1 to 3 of R271 as far as they go: an UNMAP waits for the MIGRATE of a page it names. -/
def shootBegin (u : Shoot) (s : State) : Shoot × State :=
  if u.started || pageMoves u.ctx u.seg u.first u.count s then (u, s)
  else
    let gen := (((s.ctx u.ctx).bind fun k => kget u.seg k.segs).map (·.gen)).getD 0
    let (pages, g1, s) := withdraw u.ctx u.seg u.first u.count s
    let (waiting, s) := shootStart u.ctx u.seg gen s
    ({ u with started := true, gen, pages, frame1g := g1, waiting }, s)

/-- The drain work of an UNMAP. -/
def prepUnmap (c i first count : Nat) (p : Pkt) (s : State) : State :=
  if count = 0 then s
  else
    let (u, s) := shootBegin { pkt := p, ctx := c, seg := i, first, count } s
    { s with shoots := s.shoots ++ [u] }

/-- UNMAPs whose MIGRATE has ended begin. -/
def settleShoots (s : State) : State :=
  if s.halted || s.shoots.all (·.started) then s
  else
    let l := s.shoots
    l.foldl (fun s u =>
      let (u, s) := shootBegin u s
      { s with shoots := s.shoots ++ [u] }) { s with shoots := [] }

/-- The command-level checks of UNMAP (R271 step 1). -/
def unmapCheck (p : Pkt) (c i first count : Nat) (s : State) : Option OpRes :=
  match ctxOf p c 32 s with
  | .error r => some r
  | .ok k =>
    if count = 0 then some {}
    else match kget i k.segs with
    | none => some (bad stBadParam 36)
    | some g =>
      if g.target ≠ 0 then some (bad stBadParam 36)
      else if first + count > segPages g then some (bad stBadParam 40) else none

/-- Steps 1 and 4 of R271; its drain work is prepUnmap's. -/
def actUnmap (p : Pkt) (c i first count : Nat) (s : State) : OpRes × State :=
  match unmapCheck p c i first count s with
  | some r => (r, s)
  | none =>
    let (pages, g1, s) := withdraw c i first count s
    ({}, mapCount (pages.map (·.2)) g1 false s)

/-- UNMAP (R271, R273). -/
def execUnmap (p : Pkt) (ctx : BitVec 20) (seg : BitVec 6) (first count : BitVec 32) (s : State) :
    Host.Outcome State Fault Refusal :=
  let c := ctx.toNat
  let i := seg.toNat
  .next (stagePacket p { code := 0x121, col := .p, stageable := true, atL4 := true } (p.paramLen = 16) (fun _ => none)
    (.unmap p ctx seg first count) 16 noReserve (fun _ => [objCtx c, objSeg c i])
    (fun _ => actUnmap p c i first.toNat count.toNat) s (prepUnmap c i first.toNat count.toNat))

/-! ### GRANULE_BIND, GRANULE_UNBIND (R266, R267, R369) -/

/-- Granules a partition owns in a tier. -/
def ownedIn (p t : Nat) (s : State) : Nat :=
  kcount (fun g x => x.owned && x.owner.val == p && tierOf (g * 0x200000) == t) s.pot

/-- The ACTIVE key slot of a partition (R457). -/
def activeSlot (p : Nat) (s : State) : Option Nat :=
  (s.keys.find? fun e => e.2.state == 1 && e.2.part == p).map (·.1)

/-- Scrubs a granule: every line is written with zeros under the granule's key, poison cleared (R266); each of its homes makes
4,096 transfers (R250). -/
def scrub (g : Nat) (s : State) : State :=
  let s := mscDrop (fun n => n / 32768 == g) false s
  { s with mem := mdrop s.mem (g * 0x200000) 0x200000
           lines := kfilter (fun n _ => n / 32768 != g) s.lines
           sealed := kfilter (fun n _ => n / 32768 != g) s.sealed
           heat := (List.range 8).foldl (fun m h => kset (g * 8 + h) (satAdd 16 ((kget (g * 8 + h) m).getD 0) 4096) m) s.heat }

def bindOne (p slot : Nat) (struct : Bool) (g : Nat) (s : State) : OpRes × State :=
  let x := s.gran g
  let a := g * 0x200000
  if !s.populated a || x.hub || x.owned then (bad stBadParam 32, s)
  else if s.isOffline g then (bad stNotPermitted 32, s)
  else if ownedIn p (tierOf a) s + 1 > (kget (tierOf a) (s.part p).quota).getD 0 then (bad stNoResource, s)
  else
    let s := if x.needsScrub then scrub g s else s
    ({}, s.setGran g { x with owner := Fin.ofNat 8 p, owned := true, needsScrub := false, struct,
                              keySlot := Fin.ofNat 8 slot, mapcount := 0,
                              sealNo := if x.needsScrub then slotKeyNo slot s else x.sealNo })

def allOf (f : Nat → State → OpRes × State) : List Nat → State → OpRes × State
  | [], s => ({}, s)
  | g :: t, s =>
    let (r, s') := f g s
    if r.status = stOk then allOf f t s' else (r, s)

def actGranuleBind (p : Pkt) (addr : Nat) (struct : Bool) (count : Nat) (s : State) : OpRes × State :=
  if count = 0 then ({}, s)
  else match activeSlot (pnum p) s with
  | none => (bad stNotPermitted, s)
  | some k =>
    let (r, s') := allOf (bindOne (pnum p) k struct) ((List.range count).map fun i => granOf addr + i) s
    if r.status = stOk then (r, s') else (r, s)

def granForm (addr count : Nat) : Option OpRes :=
  if addr % 0x200000 ≠ 0 then some (bad stBadParam 32)
  else if granOf addr + count > 2 ^ 27 then some (bad stBadParam 44) else none

def granRange (addr count : Nat) : List Nat := (List.range count).map fun i => objGran (granOf addr + i)

def execGranuleBind (p : Pkt) (addr : BitVec 48) (struct : Bool) (count : BitVec 32) (s : State) :
    Host.Outcome State Fault Refusal :=
  .next (stagePacket p { code := 0x130, col := .p, stageable := true } (p.paramLen = 16)
    (fun _ => granForm addr.toNat count.toNat) (.granuleBind p addr struct count) 16 noReserve
    (fun _ => granRange addr.toNat count.toNat)
    (fun _ => actGranuleBind p addr.toNat struct count.toNat) s)

/-- Drops every copy of a granule's lines from the cluster caches and the memory-side caches, without write-back (R267
step 1); those of partner dies have been recalled before. -/
def dropCopies (g : Nat) (s : State) : State :=
  let there (n : Nat) : Bool := n / 32768 == g
  let s := mscDrop there false s
  { s with clusters := kmap (fun _ x => { x with lines := kfilter (fun n _ => !there n) x.lines }) s.clusters
           lines := kmap (fun n l => if there n then { l with dir := none } else l) s.lines }

/-- Recalls the lines of granules g to g + n − 1 that partner dies may hold. -/
def recallGrans (g n : Nat) (s : State) : State :=
  let ls := (s.lines.filter fun e => dieHolds g n e && e.2.tx.isNone).map (·.1)
  exchange (fun s => foldS ls recallAll s) s

/-- The drain work of GRANULE_UNBIND: the copies of partner dies come back (R267 step 1). What they return is written at home,
where nothing reads it again. -/
def prepUnbind (g n : Nat) (p : Pkt) (s : State) : State :=
  if n = 0 || !s.lines.any (dieHolds g n) then s
  else recallGrans g n { s with drops := s.drops ++ [(p, g, n)] }

/-- Recalls that waited for a busy line go on. -/
def settleDrops (s : State) : State := if s.halted then s else foldS s.drops (fun d s => recallGrans d.2.1 d.2.2 s) s

def unbindOne (p : Nat) (g : Nat) (s : State) : OpRes × State :=
  let x := s.gran g
  if !s.populated (g * 0x200000) || x.hub || !x.owned then (bad stBadParam 32, s)
  else if x.owner.val ≠ p then (bad stNotPermitted 32, s)
  else if x.mapcount > 0 || x.inMotion then (bad stBusy, s)
  else if x.struct && holdsAlloc g s then (bad stBusy, s)
  else
    let s := dropCopies g s
    ({}, { s.setGran g { x with owned := false, needsScrub := true, struct := false } with
      pool := kdel g s.pool, moved := kdel g s.moved, mem := mdrop s.mem (g * 0x200000) 0x200000 })

def actGranuleUnbind (p : Pkt) (addr count : Nat) (s : State) : OpRes × State :=
  let (r, s') := allOf (unbindOne (pnum p)) ((List.range count).map fun i => granOf addr + i) s
  if r.status = stOk then (r, s') else (r, s)

def execGranuleUnbind (p : Pkt) (addr : BitVec 48) (count : BitVec 32) (s : State) :
    Host.Outcome State Fault Refusal :=
  .next (stagePacket p { code := 0x131, col := .p, stageable := true, atL4 := true } (p.paramLen = 16)
    (fun _ => granForm addr.toNat count.toNat) (.granuleUnbind p addr count) 16 noReserve
    (fun _ => granRange addr.toNat count.toNat) (fun _ => actGranuleUnbind p addr.toNat count.toNat) s
    (prepUnbind (granOf addr.toNat) count.toNat))

end Sys2Proof.Machine
end

