-- ==== Sys2Proof/Machine/Moves.lean ====
section
/-!
DEFINITION. The moves of frames between tiers (R246 to R249).
-/
namespace Sys2Proof.Machine

def frameSize (g1 : Bool) : Nat := if g1 then 0x40000000 else 0x200000
/-! ### The checks of R246 -/

/-- A mapping maps the frame: its segment is a TARGET 0 one of that frame size whose page leads to it. -/
def mapsFrame (src : Nat) (g1 : Bool) (e : Nat × Nat × Nat) (s : State) : Bool :=
  match (s.ctx e.1).bind fun c => kget e.2.1 c.segs with
  | none => false
  | some g => g.target = 0 && g.frame1g == g1 && kget e.2.2 g.frames == some src

def mapIsFine (e : Nat × Nat × Nat) (s : State) : Bool :=
  match (s.ctx e.1).bind fun c => kget e.2.1 c.segs with
  | none => false
  | some g => g.fine

/-- Granules of a destination that are new to the partition, in its tier (R369). -/
def newGrans (dst : Nat) (g1 : Bool) (s : State) : Nat :=
  ((frameGrans dst g1).filter fun g => !(s.gran g).owned).length

/-- The refusal of a move, in the order of R246, then the quota of R369 and the key slot of R461. -/
def moveRefusal (p src dst : Nat) (g1 : Bool) (maps : List (Nat × Nat × Nat)) (s : State) : Option Nat :=
  let gs := frameGrans src g1
  let gd := frameGrans dst g1
  let other (g : Nat) : Bool := let x := s.gran g
    x.struct || x.hub || (x.owned && x.owner.val != p)
  if src % frameSize g1 ≠ 0 || dst % frameSize g1 ≠ 0 || src = dst ||
      (gs ++ gd).any (fun g => !s.populated (g * 0x200000)) || maps.any (fun e => !mapsFrame src g1 e s) then
    some stBadParam
  else if maps.any fun e => gd.any fun g => isFine g s != mapIsFine e s then some stBadParam
  else if (gs ++ gd).any other || gs.any (fun g => !(s.gran g).owned) || gd.any s.isOffline then some stNotPermitted
  else if (gs ++ gd).any fun g => (s.gran g).inMotion then some stBusy
  else if ownedIn p (tierOf dst) s + newGrans dst g1 s > (kget (tierOf dst) (s.part p).quota).getD 0 then
    some stNoResource
  else if (activeSlot p s).isNone then some stNotPermitted else none

/-! ### The move (R247, R248) -/

/-- Moves in hand of the migration agent of a destination: that of the home of its first line. -/
def agentMoves (dst : Nat) (s : State) : Nat := (s.moves.filter fun m => homeOf m.dst == homeOf dst).length

/-- Step 1: both frames in motion; the destination becomes owned by the partition and is written under its key. -/
def moveMark (m : Move) (s : State) : State :=
  let slot := (activeSlot m.part s).getD 0
  let s := foldS (frameGrans m.src m.g1) (fun g s => s.setGran g { s.gran g with inMotion := true }) s
  foldS (frameGrans m.dst m.g1) (fun g s =>
    let x := s.gran g
    s.setGran g { x with inMotion := true, owned := true, owner := Fin.ofNat 8 m.part,
                         keySlot := if x.owned then x.keySlot else Fin.ofNat 8 slot,
                         needsScrub := x.needsScrub || !x.owned }) s

/-- Line n lies in one of the frames of a move. -/
def Move.covers (m : Move) (n : Nat) : Bool := inFrame m.src m.g1 n || inFrame m.dst m.g1 n

/-- Step 4: the homes recall every COHERENT line of the page, and of the frame it goes to (R184, R222). -/
def moveRecall (m : Move) (s : State) : State :=
  let ls := (s.lines.filter fun e => m.covers e.1 && e.2.dir.isSome && e.2.tx.isNone).map (·.1)
  exchange (fun s => foldS ls recallAll s) s

/-- Every recall is answered. -/
def moveRecalled (m : Move) (s : State) : Bool := !(s.lines.any fun e => m.covers e.1 && (e.2.dir.isSome || e.2.tx.isSome))

/-- Bytes of the page moved to the destination, in order. -/
def moveBytes (m : Move) (s : State) : Mem :=
  let page := s.mem.filter fun c => m.src ≤ c.1 && c.1 < m.src + frameSize m.g1
  page.foldl (fun t c => mset t (m.dst + (c.1 - m.src)) c.2) (mdrop s.mem m.dst (frameSize m.g1))

/-- Transfers of the copy at the homes of both frames (R250): lines that a memory-side cache holds are not read. -/
def moveHeat (m : Move) (s : State) : State :=
  let add (h : KV Nat) (k n : Nat) : KV Nat := kset k (satAdd 16 ((kget k h).getD 0) n) h
  let held (g q : Nat) : Nat := s.msc.foldl (fun n e =>
    if granOf (128 * e.1) = g && homeOf (128 * e.1) = q then n + b2n e.2.lo.isSome + b2n e.2.hi.isSome else n) 0
  let h := (frameGrans m.src m.g1).foldl (fun h g => (List.range 8).foldl (fun h q => add h (g * 8 + q) (4096 - held g q)) h) s.heat
  { s with heat := (frameGrans m.dst m.g1).foldl (fun h g => (List.range 8).foldl (fun h q => add h (g * 8 + q) 4096) h) h }

/-- The destination line of a source line. -/
def Move.to (m : Move) (n : Nat) : Nat := m.dst / 64 + (n - m.src / 64)

/-- What the copy's reads of DRAM find: corrected lines count, an uncorrectable one arrives poisoned and its granule goes on
the offline list (R238, R249). DESIGN CHOICE (log 95): a line whose integrity fails arrives poisoned as well. -/
def moveErrors (m : Move) (s : State) : List Nat × State :=
  let ls := (s.media.map (·.1) ++ s.sealed.map (·.1)).eraseDups.filter fun n => inFrame m.src m.g1 n && (s.mscSector n).isNone
  ls.foldl (fun (a : List Nat × State) n =>
    let (r, s) := mediaRead n a.2
    (if r = 2 then a.1 ++ [n] else a.1, s)) ([], s)

/-- Step 2: the copy. Lines poisoned at the source arrive poisoned (R248); the destination is sealed under the partition's key. -/
def moveCopy (m : Move) (s : State) : State :=
  let (failed, s) := moveErrors m (moveHeat m s)
  let bad := (s.lines.filter fun e => inFrame m.src m.g1 e.1 && e.2.poison).map (·.1) ++ failed
  let s := mscDrop (fun n => inFrame m.dst m.g1 n) false s
  let s := { s with mem := moveBytes m s
                    lines := kmap (fun n l => if inFrame m.dst m.g1 n then { l with poison := false } else l) s.lines
                    sealed := kfilter (fun n _ => !inFrame m.dst m.g1 n) s.sealed }
  let s := foldS (frameGrans m.dst m.g1) (fun g s => s.setGran g { s.gran g with sealNo := granKeyNo g s }) s
  foldS bad (fun n s => poisonLine (m.to n) s) s

/-- Step 5 for the mappings: every one leads to the destination, in one step, and its generation rises; then step 6 sends the
shootdowns. The clusters still to acknowledge. -/
def moveSwitch (m : Move) (s : State) : List Nat × State :=
  m.maps.foldl (fun (a : List Nat × State) e =>
    let s := a.2
    match (s.ctx e.1).bind fun c => (kget e.2.1 c.segs).map fun g => (c, g) with
    | none => a
    | some (c, g) =>
      if kget e.2.2 g.frames ≠ some m.src then a
      else
        let s := s.setCtx e.1 { c with segs := kset e.2.1 { g with frames := kset e.2.2 m.dst g.frames, gen := g.gen + 1 } c.segs }
        let s := mapCount [m.dst] m.g1 true (mapCount [m.src] m.g1 false s)
        let (waiting, s) := shootStart e.1 e.2.1 g.gen s
        ((a.1 ++ waiting).eraseDups, s.touch (objSeg e.1 e.2.1))) ([], s)

/-- Replaces a move in hand. -/
def moveSet (m k : Move) (s : State) : State := { s with moves := s.moves.map fun x => if x = m then k else x }

/-- Requests held in step 4 are forwarded (step 5). -/
def moveForward (m : Move) (s : State) : State :=
  let ls := s.lines.filter fun e => inFrame m.src m.g1 e.1 && e.2.hold == some Hold.page
  let held := (ls.map fun e => e.2.queue).flatten
  let s := foldS (ls.map (·.1)) (fun n s => s.setLine n { s.line n with hold := none, queue := [] }) s
  exchange (fun s => foldS held homeAccept s) s

/-- Step 7: forwarding ends; the source becomes needs-scrub; the destination loses its marks. An auto-tier move returns the
source to the pool of its tier and is reported (R251). -/
def moveEnd (m : Move) (s : State) : State :=
  let s := foldS (frameGrans m.src m.g1) (fun g s =>
    (dropCopies g (s.setGran g { s.gran g with inMotion := false, needsScrub := true })).touch (objGran g)) s
  let s := foldS (frameGrans m.dst m.g1) (fun g s =>
    (s.setGran g { s.gran g with inMotion := false, needsScrub := false }).touch (objGran g)) s
  let s := { s with mem := mdrop s.mem m.src (frameSize m.g1), moves := s.moves.filter (· ≠ m)
                    lines := kmap (fun n l => if inFrame m.src m.g1 n then { l with poison := false } else l) s.lines }
  match m.from_ with
  | some (q, i) => flightDone q i stOk s
  | none =>
    let s := { s with pool := kset (granOf m.src) m.part s.pool, moved := kdel (granOf m.src) s.moved }
    partEvent 0x11 m.part (put 0 64 m.src + put 64 64 m.dst) s

/-- Goes on with a move: steps 4, 2 and 5 once every recall is answered, step 7 once every cluster has acknowledged. The copy and
its mirrors of steps 2 and 3 are made together, while the homes hold the page (DEDUCED, log 96: R248). -/
def moveRun (m : Move) (s : State) : State :=
  if m.forwards then (if m.waiting.isEmpty then moveEnd m s else s)
  else
    let r := { m with recalling := true }
    let s := moveRecall m (moveSet m r s)
    if !moveRecalled m s then s
    else
      let (waiting, s) := moveSwitch m (moveCopy m s)
      let k := { r with forwards := true, waiting }
      let s := moveForward m (moveSet r k s)
      if waiting.isEmpty then moveEnd k s else s

/-- Starts a move: its step 1. Its other steps follow as soon as the block goes on. -/
def moveStart (m : Move) (s : State) : State := moveMark m { s with moves := s.moves ++ [m] }

/-- Goes on with every move in hand, the writes already accepted first. -/
def settleMoves (s : State) : State :=
  if s.moves.isEmpty then s
  else
    let s := settlePosted s
    homeWake (foldS s.moves (fun m s => if s.moves.contains m then moveRun m s else s) s)

/-- Abandons the moves that a test picks, up to their step 3 (R249): the source stays, the destination returns to needs-scrub,
and requests that were held go on. -/
def abandonMoves (pick : Move → Bool) (st : Nat) (s : State) : State :=
  homeWake (foldS (s.moves.filter fun m => pick m && !m.recalling) (fun m s =>
    let s := foldS (frameGrans m.src m.g1) (fun g s => s.setGran g { s.gran g with inMotion := false }) s
    let s := foldS (frameGrans m.dst m.g1) (fun g s => s.setGran g { s.gran g with inMotion := false, needsScrub := true }) s
    let s := { s with moves := s.moves.filter (· ≠ m) }
    match m.from_ with
    | some (q, i) => flightDone q i st s
    | none => { s with pool := kset (granOf m.dst) m.part s.pool, moved := kdel (granOf m.dst) s.moved,
                       autos := kdel m.part s.autos }) s)

/-! ### Acknowledgements of shootdowns -/

/-- SHOOTDOWN_ACKNOWLEDGE (R247 step 6, R271 step 3): a cluster whose engines have nothing in flight under the old generation
acknowledges the shootdowns of a segment; none is taken while L5 halts them (R273). -/
def execShootdownAcknowledge (cluster : Fin 200) (ctx : BitVec 20) (seg : BitVec 6) (s : State) :
    Host.Outcome State Fault Refusal :=
  let g := cluster.val
  let c := ctx.toNat
  let i := seg.toNat
  let mine (u : Shoot) : Bool := u.ctx == c && u.seg == i && u.waiting.contains g && !(busyClusters c i u.gen s).contains g
  let gen := ((s.ctx c).bind fun k => kget i k.segs).map fun x => x.gen - 1
  let moved (m : Move) : Bool := (m.maps.any fun e => e.1 == c && e.2.1 == i) && m.waiting.contains g &&
    !((gen.map fun v => (busyClusters c i v s).contains g).getD false)
  if s.halted || !(s.shoots.any mine || s.moves.any moved) then .next s
  else
    .next (settleMoves (shootAck g { s with
      shoots := s.shoots.map fun u => if mine u then { u with waiting := u.waiting.filter (· ≠ g) } else u
      moves := s.moves.map fun m => if moved m then { m with waiting := m.waiting.filter (· ≠ g) } else m }))

end Sys2Proof.Machine
end

