-- ==== Sys2Proof/Machine/PartReset.lean ====
section
/-!
DEFINITION. What a reset does to caches, contexts, queues and sidings (R33, R34, R222, R384), and the partition reset.
-/
namespace Sys2Proof.Machine

/-! ### Caches -/

/-- Homes write back and drop the lines of a partition's granules in their memory-side caches (R384). -/
def dropMsc (p : Nat) (s : State) : State :=
  mscDrop (fun n => let g := s.gran (granOf (64 * n)); g.owned && g.owner.val == p) true s

/-- The clusters of a partition. -/
def partClusters (p : Nat) (s : State) : List Nat :=
  (List.range 200).filter fun g => (s.part p).laidOut && bit (s.part p).clusters g

/-! ### Contexts, queues, sidings -/

/-- A context becomes LOST with cause RESET, without a fault record (R34, R330); CONTEXT_LOST is stamped in the
management domain (R520). -/
def loseByReset (c : Nat) (s : State) : State :=
  match s.ctx c with
  | none => s
  | some k =>
    if ctxLost k then s
    else
      let s := (s.setCtx c { k with state := if k.state = 0 then 1 else k.state, cause := fcReset }).touch (objCtx c)
      lostEvent { cause := fcReset, engine := 7, first := true, ctx := c, part := k.part, domain := 1,
                  count := s.count 1 } false true 0xFFFFFFFF s

/-- A direct change of configuration that a reset cuts off ends with ST_BUSY and no effect (R37); one of a commit goes on. -/
def changeCut (p : Pkt) (s : State) : State :=
  match s.changes.find? fun c => samePkt c.pkt p && c.txn = 0 with
  | none => s
  | some c => reply c.pkt c.opcode (bad stBusy) (unprep c.pkt { s with changes := s.changes.filter fun k => !samePkt k.pkt p })

/-- Empties a queue (R34, R384 step 4): its descriptors are discarded with their pending waits; a stopping
QUEUE_DISABLE is cut off. -/
def emptyQueue (q : Nat) (s : State) : State :=
  match s.queue q with
  | none => s
  | some k =>
    let flight := k.flight
    let s := s.setQueue q { k with head := k.tail, done := k.tail, state := if k.state = 3 then 3 else 0, fetched := [],
                                   flight := [], finished := [], stopping := none }
    let s := match k.stopping with
      | some p => changeCut p s
      | none => s
    let s := queueWord q (s.touch (objQueue q))
    flight.foldl (fun s d => flightUnref q d s) s

/-- The siding is emptied (R384 step 4). -/
def emptySiding (p : Nat) (s : State) : State :=
  let g := s.fring p
  if g.siding.isEmpty then s
  else
    let s := s.setFring p { g with siding := [], droppedFirst := satAdd 16 g.droppedFirst g.siding.length }
    partEvent 0x04 p (put 0 32 (s.fring p).droppedFirst) s

/-! ### PARTITION_RESET (R384) -/

/-- Something of the partition is still in flight: a Sloyth request of one of its flows, a move that completes (R249), or a
write that was accepted and not answered. -/
def partInFlight (p : Nat) (s : State) : Bool :=
  (s.part p).commitWait || (s.moves.any fun m => m.part == p) || (s.posted.any fun w => w.2.part.val == p && w.2.target != 1) ||
  (slReqs s).any fun e => e.2.2.part == p

/-- Steps 3 to 5. DEDUCED (log 90): R33 lists the fault ring among what a partition reset resets, R384 and R521 empty only
its siding; the ring's registers keep their values and the siding is emptied. -/
def partResetEnd (p : Nat) (s : State) : State :=
  let x := s.part p
  let s := foldS (partClusters p s) clusterGone s
  let s := dropMsc p s
  let s := foldS ((s.queues.filter fun e => e.2.part.val == p).map (·.1)) emptyQueue s
  let s := { s with launches := kfilter (fun _ l => l.part.val != p) s.launches, resv := kdel p s.resv }
  let s := emptySiding p (postedGone (fun w => w.part.val == p && w.target != 1) s)
  let y := s.part p
  let s := (s.setPart p { y with resetting := none, resets := satAdd 16 y.resets 1 }).touch (objPart p)
  match x.resetting with
  | some (some pkt) => reply pkt 0x400 {} s
  | _ => s

/-- A started commit names an object of the partition (R384 step 1). -/
def commitNames (p : Nat) (s : State) : Bool :=
  s.changes.any fun c => c.txn ≠ 0 && c.objs.any fun o =>
    let i := o % 0x1000000000000
    o == objPart p || (o == objCtx i && ((s.ctx i).map fun k => k.part.val == p).getD false) ||
    (o == 0x2000000000000 + i && ((s.ctx (i / 64)).map fun k => k.part.val == p).getD false) ||
    (o == objGran i && (s.gran i).owned && (s.gran i).owner.val == p) ||
    (o == objQueue i && ((s.queue i).map fun k => k.part.val == p).getD false) ||
    (o == objFence i && ((s.fence i).map fun k => k.part.val == p).getD false) ||
    (o == objInst i && ((kget i s.insts).map fun k => k.part.val == p).getD false)

/-- Step 2: the cores stop, every context of the partition is LOST, moves follow R249, and the shootdowns of its contexts are
acknowledged (R273); a FENCE goes out on every flow of the partition (R441). It goes on to its end when nothing is in flight. -/
def partResetStop (p : Nat) (s : State) : State :=
  let s := s.setPart p { s.part p with commitWait := false }
  let s := foldS (s.cores.filter fun e => e.2.run && e.2.part.val == p) (fun e s => stopCore e.1 true s) s
  let s := foldS ((s.ctxs.filter fun e => e.2.part.val == p).map (·.1)) loseByReset s
  let s := abandonMoves (fun m => m.part == p) stShed s
  let mine (u : Shoot) : Bool := ((s.ctx u.ctx).map fun k => k.part.val == p).getD false
  let acks := ((s.shoots.filter mine).map (·.waiting)).flatten ++
    ((s.moves.filter fun m => m.part == p).map (·.waiting)).flatten
  let s := foldS acks shootAck { s with
    shoots := s.shoots.map fun u => if mine u then { u with waiting := [] } else u
    moves := s.moves.map fun m => if m.part = p then { m with waiting := [] } else m }
  let s := slFenceAll (fun k => k.1 == p) (settleMoves s)
  if partInFlight p s then s else partResetEnd p s

/-- Step 1: dispatch stops; a started commit that names an object of the partition is waited for. -/
def partResetStart (p : Nat) (pkt : Option Pkt) (s : State) : State :=
  let s := s.setPart p { s.part p with resetting := some pkt, commitWait := true }
  if commitNames p s then s else partResetStop p s

/-- Goes on with the partition resets: from step 1, and to their end when their in-flight counters have reached zero. -/
def partResetSettle (s : State) : State :=
  foldS ((s.parts.filter fun e => e.2.resetting.isSome).map (·.1)) (fun p s =>
    if (s.part p).commitWait then (if commitNames p s then s else partResetStop p s)
    else if partInFlight p s then s else partResetEnd p s) s

/-- A partition reset that the hub itself asks for (R221, R238): not at L4 or deeper, nor during another reset. -/
def partResetByHub (p : Nat) (s : State) : State :=
  if s.power.shed ≥ 4 || s.rst.inProgress || (s.part p).resetting.isSome then s else partResetStart p none s

end Sys2Proof.Machine
end

