-- ==== Sys2Proof/Machine/Queues.lean ====
section
/-!
DEFINITION. Queues: their commands, doorbells, fetch, dispatch and the completion of descriptors (R304 to R313, R335).
-/
namespace Sys2Proof.Machine

/-! ### QUEUE_CREATE, QUEUE_ENABLE, QUEUE_DISABLE, QUEUE_DESTROY (R305, R335) -/

/-- The whole of [a, a + n) lies in one segment that `ok` accepts. -/
def inSegment (k : Ctx) (a n : Nat) (ok : Segment → Bool) : Option Nat :=
  (k.segs.find? fun e => e.2.base ≤ a && a + n ≤ e.2.base + e.2.len * 0x200000 && ok e.2).map (·.1)

/-- The field rules of QUEUE_CREATE that no other state bears on (R305, R352). -/
def queueForm (cls site : Nat) (log2 ring headAddr class_ : Nat) : Option OpRes :=
  if cls = 3 then some (bad stBadParam 32)
  else if cls ≠ 2 && site ≠ 0 then some (bad stBadParam 32)
  else if log2 < 6 || 16 < log2 then some (bad stBadParam 33)
  else if class_ = 0 || class_ > 3 || (class_ = 1 && cls ≠ 2) then some (bad stBadParam 34)
  else if ring % (64 * 2 ^ log2) ≠ 0 then some (bad stBadParam 40)
  else if headAddr % 8 ≠ 0 then some (bad stBadParam 48) else none

/-- QUEUE_CREATE (R305): the lowest free id, its descriptor, DISABLED with its indices 0. -/
def actQueueCreate (p : Pkt) (cls site : Nat) (priv : Bool) (log2 class_ c ring headAddr : Nat) (id : Option Nat)
    (s : State) : OpRes × State :=
  match ctxOf p c 36 s with
  | .error r => (r, s)
  | .ok k =>
    let rseg := inSegment k ring (64 * 2 ^ log2) (·.r)
    let hseg := inSegment k headAddr 8 (·.w)
    if rseg.isNone then (bad stBadParam 40, s)
    else if headAddr ≠ 0 && hseg.isNone then (bad stBadParam 48, s)
    else if k.state ≠ 0 then (bad stContextLost, s)
    else if cls = 2 && ((s.site site).state ≠ 4 || !bit (s.site site).reqMask (pnum p)) then (bad stNotPermitted 32, s)
    else if k.inst.isSome && cls ≠ 1 then (bad stNotPermitted 32, s)
    else match (match id with
      | some i => some (i % 2 ^ 32)
      | none => lowestId 2 16384 (fun i => (s.queue i).isSome) s) with
    | none => (bad stNoResource, s)
    | some q => match alloc (pnum p) 64 64 s with
      | none => (bad stNoResource, s)
      | some (d, s1) =>
        let s1 := s1.setQueue q { part := Fin.ofNat 8 (pnum p), ownerClass := cls, site, privileged := priv, log2,
                                  cls := class_, ctx := c, ring, headAddr, desc := d }
        let s1 := ctxRef c 1 s1
        let s1 := foldS ((rseg.toList ++ (if headAddr = 0 then [] else hseg.toList)).eraseDups) (fun i s => segRef c i s) s1
        ({ len := 4, data := q }, s1)

def execQueueCreate (p : Pkt) (ownerClass site : BitVec 2) (priv : Bool) (log2 cls : BitVec 8) (ctx : BitVec 20)
    (ring headAddr : BitVec 64) (s : State) : Host.Outcome State Fault Refusal :=
  .next (stagePacket p { code := 0x200, col := .p, stageable := true } (p.paramLen = 24)
    (fun _ => queueForm ownerClass.toNat site.toNat log2.toNat ring.toNat headAddr.toNat cls.toNat)
    (.queueCreate p ownerClass site priv log2 cls ctx ring headAddr) 24
    (fun s => (lowestId 2 16384 (fun i => (s.queue i).isSome) s).map fun i => some (2 * 2 ^ 32 + i))
    (fun _ => [objCtx ctx.toNat])
    (actQueueCreate p ownerClass.toNat site.toNat priv log2.toNat cls.toNat ctx.toNat ring.toNat headAddr.toNat) s)

/-- QUEUE_ENABLE (R305): a DISABLED or ERROR queue becomes ENABLED. -/
def actQueueEnable (p : Pkt) (q : Nat) (s : State) : OpRes × State :=
  match queueOf p q 32 s with
  | .error r => (r, s)
  | .ok k =>
    if k.state = 3 then (bad stNotPermitted 32, s)
    else if k.stopping.isSome then (bad stBusy, s)
    else if ((s.ctx k.ctx).map ctxLost).getD true then (bad stContextLost, s)
    else ({}, s.setQueue q { k with state := 1 })

def execQueueEnable (p : Pkt) (queue : BitVec 14) (s : State) : Host.Outcome State Fault Refusal :=
  .next (stagePacket p { code := 0x201, col := .p, stageable := true } (p.paramLen = 8) (fun _ => none)
    (.queueEnable p queue) 8 noReserve (fun _ => [objQueue queue.toNat]) (fun _ => actQueueEnable p queue.toNat) s)

/-- QUEUE_DISABLE (R305): the queue becomes DISABLED. -/
def actQueueDisable (p : Pkt) (q : Nat) (s : State) : OpRes × State :=
  match queueOf p q 32 s with
  | .error r => (r, s)
  | .ok k =>
    if k.state = 3 then (bad stNotPermitted 32, s)
    else if k.stopping.isSome then (bad stBusy, s)
    else ({}, s.setQueue q { k with state := 0 })

/-- Until its last dispatched descriptor completes, the queue is stopping. -/
def prepQueueDisable (q : Nat) (p : Pkt) (s : State) : State :=
  match s.queue q with
  | some k => if k.flight.isEmpty then s else s.setQueue q { k with stopping := some p }
  | none => s

/-- A QUEUE_DISABLE of a queue with dispatched descriptors replies at QUEUE_DISABLED. -/
def execQueueDisable (p : Pkt) (queue : BitVec 14) (s : State) : Host.Outcome State Fault Refusal :=
  let q := queue.toNat
  let direct := p.txn = 0 && (match s.queue q with
    | some k => k.stopping.isSome
    | none => false) && !(samePktOf q p s)
  .next (if direct then directPacket p { code := 0x202, col := .p, stageable := true } (p.paramLen = 8)
      (actQueueDisable p q) s
    else stagePacket p { code := 0x202, col := .p, stageable := true } (p.paramLen = 8) (fun _ => none)
      (.queueDisable p queue) 8 noReserve (fun _ => [objQueue q]) (fun _ => actQueueDisable p q) s (prepQueueDisable q))
where
  /-- The queue is stopping for this packet. -/
  samePktOf (q : Nat) (p : Pkt) (s : State) : Bool := ((s.queue q).bind (·.stopping)).any fun k => samePkt k p

/-- QUEUE_DESTROY (R334, R335): BIND_OFF, and the creation reference is released; once. -/
def actQueueDestroy (p : Pkt) (q : Nat) (s : State) : OpRes × State :=
  match queueOf p q 32 s with
  | .error r => (r, s)
  | .ok k =>
    if k.state = 3 then ({}, s) else ({}, queueUnref q 1 (s.setQueue q { k with state := 3, created := false }))

def execQueueDestroy (p : Pkt) (queue : BitVec 14) (s : State) : Host.Outcome State Fault Refusal :=
  .next (stagePacket p { code := 0x203, col := .p, stageable := true, atL4 := true, inReset := true } (p.paramLen = 8)
    (fun _ => none) (.queueDestroy p queue) 8 noReserve (fun _ => [objQueue queue.toNat])
    (fun _ => actQueueDestroy p queue.toNat) s)

/-! ### Doorbells (R306) -/

/-- A producer index for an ENABLED queue; QUEUE_OVERRUN when it passes the ring (R306). -/
def doorbell (q : Nat) (t : BitVec 32) (s : State) : State :=
  match s.queue q with
  | none => s
  | some k =>
    if (t - k.tail).toNat ≥ 2 ^ 31 then s.setQueue q { k with staleDb := satAdd 16 k.staleDb 1 }
    else if (t - k.head).toNat > 2 ^ k.log2 then
      agentFault k.ctx 4 fcQueueOverrun (s.setQueue q { k with state := 2 }) (detail := queueDetail q t.toNat)
    else s.setQueue q { k with tail := t }

/-! ### Fetch (R308) -/

/-- Requester code of the fetch agent of a queue, of a descriptor's agent, and of its loader. -/
def whoFetch (q : Nat) : Nat := 0x20000 + q
def whoDesc (q index : Nat) : Nat := 0x100000 + 64 * q + index % 64
def whoLoader (q index : Nat) : Nat := 0x200000 + 64 * q + index % 64

/-- The instance of a queue stops its dispatch (R388). -/
def instStops (k : Queue) (s : State) : Bool :=
  match (s.ctx k.ctx).bind (·.inst) with
  | some i => ((kget i s.insts).map fun x => x.state != 0).getD false
  | none => false

/-- The queue may fetch: ENABLED and not stopping, or of a LOST owner; host and guest queues only while the port is not frozen
(R295, R312, R330); behind the host's BAR4 writes that are not performed (R287). An instance that is not ACTIVE fetches
nothing, so that its queues resume from HEAD (R388). -/
def mayFetch (k : Queue) (s : State) : Bool :=
  let lost := ((s.ctx k.ctx).map ctxGone).getD false
  (lost || (k.state = 1 && !instStops k s && k.stopping.isNone)) && k.head != k.tail && k.fetched.length < 16 &&
    (k.ownerClass = 2 || hostOpen s) && s.port.writes.isEmpty && s.co.ready && !s.rst.inProgress

/-- Fetches entries one after another; a failure puts the queue in ERROR and loses its owner (R308), and a line found
uncorrectable resets the owning partition too (R238). An entry that a LOST owner's queue cannot read is passed over,
so that DONE reaches TAIL (R330). -/
def fetchRun (q : Nat) : Nat → State → State
  | 0, s => s
  | n + 1, s =>
    match s.queue q with
    | none => s
    | some k =>
      if !mayFetch k s then s
      else
        let va := k.ring + 64 * (k.head.toNat % 2 ^ k.log2)
        let lost := ((s.ctx k.ctx).map ctxGone).getD false
        let take (v : Nat) (s : State) : State := match s.queue q with
          | some k => s.setQueue q { k with head := k.head + 1,
                                            fetched := k.fetched ++ [{ index := k.head, word := BitVec.ofNat 512 v }] }
          | none => s
        match readRange { code := whoFetch q, cluster := none, ctx := k.ctx, part := k.part } .read va 64 s with
        | (.ok v, s) => fetchRun q n (take v s)
        | (.wait, s) => s
        | (.fault cause d va, s) =>
          let s := vaFault k.ctx 4 cause va .read
            (if cause = fcSiteUnavailable then d else queueDetail q k.head.toNat) s
          -- DESIGN CHOICE (log 98): the TAG of an entry that cannot be read is open
          if lost then fetchRun q n (take ((Config.free64 s.free).toNat % 2 ^ 32 * 2 ^ 32) s.bump)
          else
            let s := match s.queue q with
              | some k => s.setQueue q { k with state := 2 }
              | none => s
            if cause = fcMemUncorrectable then makeDue k.part.val s else s

/-- What a hub agent's reads of structures find in the step (R238): an error in a context's, a queue's or a fence's structure
makes a reset of its partition due, one in the hub region a warm reset. -/
def agentReads (s : State) : State :=
  foldS s.media (fun e s =>
    let g := s.gran (granOf (64 * e.1))
    match e.2 with
    | .symbols a b _ =>
      if !s.populated (64 * e.1) || !(g.struct || g.hub) then s
      else if beyond e.1 a b s then makeDue (if g.hub then 8 else g.owner.val) (lineBad e.1 s)
      else if a + b = 0 then s else corrected (64 * e.1) (a + b) s
    | _ => s) s

/-- QUEUE_FETCH (R308): up to 16 entries ahead of dispatch. -/
def execQueueFetch (queue : BitVec 14) (media : MediaList) (s : State) : Host.Outcome State Fault Refusal :=
  .next { fetchRun queue.toNat 17 (agentReads { s with media }) with media := [] }

/-! ### Dispatch (R307, R309, R312, R313) -/

/-- The next descriptor of the queue may be dispatched, apart from what its type and its context need (R309, R312). -/
def dispatchOpen (k : Queue) (s : State) : Bool :=
  k.state = 1 && k.stopping.isNone && k.flight.length < 64 &&
    !(k.flight.any fun d => dType d.word = 5 || dType d.word = 6) &&
    !shedStops k.part.val s && !instStops k s && (s.part k.part.val).resetting.isNone &&
    s.co.ready && !s.rst.inProgress

/-- The next descriptor of the queue may be dispatched, apart from what its type needs (R309, R312, R335). -/
def mayDispatch (k : Queue) (s : State) : Bool :=
  dispatchOpen k s && ((s.ctx k.ctx).map fun c => !ctxGone c && c.state = 0).getD false

/-- The head of the fetched entries, if it has this index. -/
def headIs (k : Queue) (index : BitVec 32) : Option Desc :=
  match k.fetched with
  | d :: _ => if d.index = index then some d else none
  | [] => none

/-- Moves the head of the fetched entries to the dispatched ones, with its references (R334). -/
def dispatchHead (q : Nat) (segs : List Nat) (done : Option Nat) (s : State) : State :=
  match s.queue q with
  | none => s
  | some k => match k.fetched with
    | [] => s
    | d :: t =>
      let s := dropWho (whoDesc q d.index.toNat) (dropWho (whoLoader q d.index.toNat) s)
      let s := s.setQueue q { k with fetched := t, refc := k.refc + 1, since := none,
                                     flight := k.flight ++ [{ index := d.index, word := d.word, done, segs }] }
      foldS segs (fun i s => segRef k.ctx i s) (ctxRef k.ctx 1 s)

/-- The dispatched, incomplete descriptor of an index whose own effects are not all performed. -/
def openFlight (k : Queue) (index : BitVec 32) : Option Flight :=
  k.flight.find? fun d => d.index = index && d.done.isNone

/-- No earlier descriptor of the queue is incomplete. -/
def noEarlier (k : Queue) (index : BitVec 32) : Bool :=
  k.flight.all fun d => d.index == index || (d.index - index).toNat < 2 ^ 31

/-- Changes a dispatched descriptor. -/
def setFlight (q : Nat) (index : BitVec 32) (f : Flight → Flight) (s : State) : State :=
  match s.queue q with
  | none => s
  | some k => s.setQueue q { k with flight := k.flight.map fun d => if d.index = index then f d else d }

/-- The header rules of R313: reserved bits are 0. -/
def dHeaderOk (w : BitVec 512) : Bool := bits w.toNat 15 10 = 0 && bits w.toNat 31 16 = 0

/-- Ends a run of a descriptor agent with a fault of engine 4, which completes it with ST_CONTEXT_LOST (R317, R330). -/
def agentEnds (q : Nat) (index : BitVec 32) (cause d va : Nat) (need : Need) (s : State) : State :=
  match s.queue q with
  | none => s
  | some k =>
    flightDone q index stContextLost (vaFault k.ctx 4 cause va need
      (if cause = fcSiteUnavailable then d else queueDetail q index.toNat) s)

/-- The shared shape of a descriptor row: the head of the fetched entries, of this type and dispatchable, is checked
and dispatched; `start` gives its segments, or the status it completes with at once; then `run` acts on it. A
descriptor of this type already dispatched goes on. -/
def descriptorRow (ty q : Nat) (index : BitVec 32) (start : Queue → BitVec 512 → State → Except Nat (List Nat))
    (run : Queue → Flight → State → State) (s : State) : State :=
  match s.queue q with
  | none => s
  | some k =>
    let go (s : State) : State := match s.queue q with
      | some k => match openFlight k index with
        | some d => if dType d.word = ty && d.ending.isNone then run k d s else s
        | none => s
      | none => s
    match headIs k index with
    | some d =>
      if dType d.word ≠ ty || !mayDispatch k s || isHeld (objQueue q) s then s
      else match start k d.word s with
        | .error st => dispatchHead q [] (some st) s
        | .ok segs => go (dispatchHead q segs none s)
    | none => go s

/-! ### Completion (R310, R311) -/

/-- Advances DONE over completed entries. -/
def doneRun : Nat → Queue → Queue
  | 0, k => k
  | n + 1, k => match kget k.done.toNat k.finished with
    | some _ => doneRun n { k with finished := kdel k.done.toNat k.finished, done := k.done + 1 }
    | none => k

/-- The effects of a completion on its queue: counts, ERR fields, DONE with its completion word, and the events
(R304, R310, R311, R313). -/
def completeIn (q : Nat) (index : BitVec 32) (word : BitVec 512) (st : Nat) (s : State) : State :=
  match s.queue q with
  | none => s
  | some k =>
    let k' := { k with finished := kset index.toNat true k.finished, completed := (k.completed + 1) % 2 ^ 64,
                       errIndex := if st = stOk then k.errIndex else index,
                       errStatus := if st = stOk then k.errStatus else st,
                       state := if st ≠ stOk && bit word.toNat 9 && k.state = 1 then 2 else k.state }
    let k' := doneRun 65536 k'
    let s := s.setQueue q k'
    let s := match s.ctx k.ctx with
      | some c => if dType word = 1 then s.setCtx k.ctx { c with launches := c.launches + 1 } else s
      | none => s
    let s := if k'.done ≠ k.done then queueWord q s else s
    let payload := complPayload q st index.toNat (dTag word)
    if st ≠ stOk then partEvent 0x02 k.part.val payload s
    else if bit word.toNat 8 then partEvent 0x01 k.part.val payload s else s

/-- Completes a dispatched descriptor whose effects are performed. -/
def completeFlight (q : Nat) (d : Flight) (st : Nat) (s : State) : State :=
  match s.queue q with
  | none => s
  | some k =>
    let s := s.setQueue q { k with flight := k.flight.filter fun e => e.index != d.index }
    let s := foldTraffic k.ctx s
    flightUnref q { d with done := some st } (completeIn q d.index d.word st s)

/-- Completes the head of the fetched entries without dispatching it. -/
def completeHead (q : Nat) (st : Nat) (s : State) : State :=
  match s.queue q with
  | none => s
  | some k => match k.fetched with
    | [] => s
    | d :: t => completeIn q d.index d.word st
        { s.setQueue q { k with fetched := t } with resv := kfilter (fun _ r => r != q * 2 ^ 32 + d.index.toNat) s.resv }

/-- DESCRIPTOR_COMPLETE (R309 to R311, R313, R330): a descriptor whose effects are performed completes; a BARRIER
once every earlier one has; a descriptor of a LOST context that is not dispatched with ST_CONTEXT_LOST; one of a BIND_OFF
context with ST_NOT_PERMITTED (R335); one of an unknown TYPE with ST_BAD_PARAM. -/
def execDescriptorComplete (queue : BitVec 14) (index : BitVec 32) (s : State) :
    Host.Outcome State Fault Refusal :=
  let q := queue.toNat
  match s.queue q with
  | none => .next s
  | some k => match k.flight.find? fun d => d.index = index with
    | some d => match d.done with
      | some st => .next (completeFlight q d st s)
      | none => if dType d.word = 6 && noEarlier k index then .next (completeFlight q d stOk s) else .next s
    | none => match headIs k index with
      | some d =>
        if ((s.ctx k.ctx).map ctxGone).getD false then .next (completeHead q stContextLost s)
        else if dispatchOpen k s && ((s.ctx k.ctx).map fun c => decide (c.state = 2)).getD false then
          .next (completeHead q stNotPermitted s)
        else if (dType d.word = 0 || 8 < dType d.word) && mayDispatch k s then .next (completeHead q stBadParam s)
        else .next s
      | none => .next s

end Sys2Proof.Machine
end

