-- ==== Sys2Proof/Machine/Launch.lean ====
section
/-!
DEFINITION. LAUNCH: its fields, its cores, its image, and the start of its cores (R6, R46, R87 to R91, R118, R119, R155,
R175, R314 to R316, R370, R371).
-/
namespace Sys2Proof.Machine

/-! ### Fields (R314) -/

def lImage (w : BitVec 512) : Nat := bytesAt w.toNat 8 8
def lArgs (w : BitVec 512) : Nat := bytesAt w.toNat 16 8
def lFirst (w : BitVec 512) : Nat := bits (bytesAt w.toNat 24 2) 11 0
def lCount (w : BitVec 512) : Nat := bits (bytesAt w.toNat 26 2) 11 0
def lDet (w : BitVec 512) : Bool := bit (bytesAt w.toNat 28 1) 0
def lKeep (w : BitVec 512) : Bool := bit (bytesAt w.toNat 28 1) 1
def lCensus (w : BitVec 512) : Nat := bytesAt w.toNat 32 8
def lCensusBytes (w : BitVec 512) : Nat := bytesAt w.toNat 40 4
def lReport (w : BitVec 512) : Nat := bytesAt w.toNat 48 8

/-- The rules of R313 and R314 on a LAUNCH's fields, its REPORT field apart. -/
def launchFieldsOk (w : BitVec 512) : Bool :=
  dHeaderOk w && bits (bytesAt w.toNat 24 2) 15 12 = 0 && bits (bytesAt w.toNat 26 2) 15 12 = 0 &&
  bits (bytesAt w.toNat 28 1) 7 2 = 0 && bytesAt w.toNat 29 3 = 0 && bytesAt w.toNat 44 4 = 0 &&
  bytesAt w.toNat 56 8 = 0 && lImage w % 64 = 0 && lCensus w % 64 = 0 && lCensusBytes w % 64 = 0 &&
  lFirst w + lCount w ≤ 4000

/-- REPORT is a multiple of 64, so that a report can be written (R314, R316). -/
def launchReportOk (w : BitVec 512) : Bool := lReport w % 64 = 0

def lCores (w : BitVec 512) : List Nat := (List.range (lCount w)).map fun i => lFirst w + i

/-! ### Cores (R155, R366, R370, R371) -/

/-- Every core of the launch lies in the partition's clusters. -/
def coresOwned (p : Nat) (w : BitVec 512) (s : State) : Bool :=
  (lCores w).all fun c => s.clusterPart (coreCluster c) == some p

/-- The cores a launch's descriptor names, for a launch that reserves them. -/
def reservedCores (p : Nat) (key : Nat) (s : State) : List Nat :=
  match kget p s.resv with
  | none => []
  | some r =>
    if r = key then []
    else match s.queue (r / 2 ^ 32) with
      | none => []
      | some k => match headIs k (BitVec.ofNat 32 r) with
        | some d => if dType d.word = 1 then lCores d.word else []
        | none => []

/-- The cores of launches that are dispatched and whose image is still being loaded. -/
def loadingCores (p key : Nat) (s : State) : List Nat :=
  (s.queues.filter fun e => e.2.part.val == p).flatMap fun e => e.2.flight.flatMap fun d =>
    let k := e.1 * 2 ^ 32 + d.index.toNat
    if dType d.word = 1 && d.done.isNone && k != key && (kget k s.launches).isNone then lCores d.word else []

/-- Every core of the launch is free, not held and not reserved by another launch. -/
def coresFree (p key : Nat) (w : BitVec 512) (s : State) : Bool :=
  let r := reservedCores p key s ++ loadingCores p key s
  (lCores w).all fun c => !(s.core c).run && !s.coreHeld c && !r.contains c

/-- The position of queue q in the service order of its partition: its class, then its distance from the queue of the
class served last (R371). -/
def servicePlace (p : Nat) (q : Nat) (k : Queue) (s : State) : Nat × Nat :=
  let last := (kget (4 * p + k.cls) s.served).getD 16383
  (k.cls, (q + 16384 - last - 1) % 16384)

/-- The next descriptor of the queue is a LAUNCH of sound fields that waits for cores of its partition. -/
def waitsForCores (p : Nat) (k : Queue) (s : State) : Option Desc :=
  match k.fetched with
  | d :: _ => if dType d.word = 1 && mayDispatch k s && launchFieldsOk d.word && launchReportOk d.word &&
      lCount d.word ≠ 0 && coresOwned p d.word s then some d else none
  | [] => none

/-- No other queue of the partition has a LAUNCH that could start now and stands before q in the service order. -/
def isServed (p q : Nat) (k : Queue) (s : State) : Bool :=
  let me := servicePlace p q k s
  s.queues.all fun e =>
    e.1 == q || e.2.part.val != p ||
    (match waitsForCores p e.2 s with
      | none => true
      | some d =>
        let pl := servicePlace p e.1 e.2 s
        !(coresFree p (e.1 * 2 ^ 32 + d.index.toNat) d.word s) || me.1 < pl.1 || (me.1 = pl.1 && me.2 < pl.2))

/-! ### The image (R87 to R89) -/

structure Image where
  detRequired : Bool
  codeSize : Nat
  entry : Nat
  codeOffset : Nat
  initOffset : Nat
  initSize : Nat
  initDest : Nat
  deriving DecidableEq, Repr, Inhabited

/-- The header of a kernel image, if its fields keep R87. -/
def imageOf (v : Nat) : Option Image :=
  let i : Image := { detRequired := bit (bytesAt v 6 2) 0, codeSize := bytesAt v 8 4, entry := bytesAt v 12 4,
                     codeOffset := bytesAt v 16 8, initOffset := bytesAt v 24 8, initSize := bytesAt v 32 4,
                     initDest := bytesAt v 36 4 }
  if bytesAt v 0 4 = 0x4E524B49 && bytesAt v 4 2 = 1 && bits (bytesAt v 6 2) 15 1 = 0 && i.codeSize % 4 = 0 &&
      4 ≤ i.codeSize && i.codeSize ≤ 65536 && i.entry % 4 = 0 && i.entry < i.codeSize && i.codeOffset % 64 = 0 &&
      i.initOffset % 64 = 0 && i.initSize % 32 = 0 && i.initSize ≤ 1048576 && i.initDest % 32 = 0 &&
      i.initDest + i.initSize ≤ 0x100000 && bytesAt v 40 24 = 0 then some i else none

/-- The status a launch gets when its loader meets a cause (R276). -/
def loaderStatus (cause : Nat) : Nat :=
  if cause = fcNotMapped || cause = fcNoFrame then stBadParam else stNotPermitted

/-- The causes of R276, which give a status; any other cause is a fault of the launch loader (R238, R290, R295, R407). -/
def isTranslationCause (cause : Nat) : Bool :=
  cause = fcNotMapped || cause = fcNoFrame || cause = fcPermission || cause = fcOwnership || cause = fcHostTranslation

/-- What loading an image came to: nothing yet, a status, a fault, or the image with its code and its stall
contents. -/
inductive Load where
  | wait
  | status (st : Nat)
  | fault (cause detail va : Nat)
  | ok (i : Image) (code init : Nat)
  deriving DecidableEq, Repr, Inhabited

def loadPart (w : Who) (need : Need) (va len : Nat) (s : State) : Except Load Nat × State :=
  match readRange w need va len s with
  | (.ok v, s) => (.ok v, s)
  | (.wait, s) => (.error .wait, s)
  | (.fault c d va, s) => (.error (if isTranslationCause c then .status (loaderStatus c) else .fault c d va), s)

/-- The loader reads the header, the code and the stall contents; answers that come one by one are kept until all are
there. -/
def loadImage (w : Who) (image : Nat) (det : Bool) (seen : Image → State → State) (s0 : State) : Load × State :=
  let keep (s : State) : State := putBack w.code s0 s
  match loadPart w .read image 64 s0 with
  | (.error .wait, s) => (.wait, keep s)
  | (.error e, s) => (e, s)
  | (.ok h, s) => match imageOf h with
    | none => (.status stBadParam, s)
    | some i =>
      if i.detRequired && !det then (.status stBadParam, s)
      else
      let s := seen i s
      match loadPart w .code (image + i.codeOffset) i.codeSize s with
        | (.error .wait, s) => (.wait, keep s)
        | (.error e, s) => (e, s)
        | (.ok code, s) => match loadPart w .read (image + i.initOffset) i.initSize s with
          | (.error .wait, s) => (.wait, keep s)
          | (.error e, s) => (e, s)
          | (.ok init, s) => (.ok i code init, s)

/-! ### The start of a core (R46, R90, R118, R119, R148, R175) -/

/-- The array runs the launch in chain mode (R118). -/
def chainFor (c : Nat) (s : State) : Bool :=
  (kget c s.fuseSeg).getD 0 != 0 || bit (s.reg (clBase (coreCluster c) + 0x100 + 0x10 * (c % 20)) 0) 1

/-- Starts core number `index` of a launch: an acquire at DEV (R175), then the state of R90. -/
def startCore (key part ctx : Nat) (det keep : Bool) (args n : Nat) (i : Image) (code init : Nat) (c index : Nat)
    (s : State) : State :=
  let s := dropAsked c (epochAdvance (coreCluster c) s)
  let x := s.core c
  let kept := keep && x.prevCtx == some ctx && !x.dirty
  let stall := mwrite (if kept then x.stall else []) i.initDest i.initSize init
  let reg (m : KV W64) (r v : Nat) : KV W64 := if v % 2 ^ 64 = 0 then m else kset r (BitVec.ofNat 64 v) m
  s.setCore c
    { run := true, pc := i.entry, codeSize := i.codeSize, imem := mwrite [] 0 i.codeSize code,
      g := reg (reg (reg (reg [] 1 args) 2 index) 3 n) 4 c, stall, ctx, part := Fin.ofNat 8 part, det, link := key,
      index, cores := n, startCount := s.count (0x10 + coreQuad c), prevCtx := some ctx, dirty := false,
      chain := chainFor c s, swDone := x.swDone, swAband := x.swAband }

/-- Starts every core of a launch. -/
def startLaunch (q : Nat) (k : Queue) (d : Flight) (i : Image) (code init : Nat) (s : State) : State :=
  let key := q * 2 ^ 32 + d.index.toNat
  let w := d.word
  let l : Launch := { queue := q, index := d.index, part := k.part, ctx := k.ctx, first := lFirst w, count := lCount w,
                      report := lReport w, census := lCensus w, censusBytes := lCensusBytes w, start := s.aon,
                      left := lCount w }
  let s := { s with launches := kset key l s.launches, resv := kfilter (fun _ r => r != key) s.resv,
                    served := kset (4 * k.part.val + k.cls) q s.served }
  foldS (List.range (lCount w)) (fun j s =>
    startCore key k.part.val k.ctx (lDet w) (lKeep w) (lArgs w) (lCount w) i code init (lFirst w + j) j s) s

/-- A launch of which no core runs: its report is written with its status (R316). -/
def launchFails (q : Nat) (k : Queue) (d : Flight) (st : Nat) (s : State) : State :=
  let (st, s) := launchReport (q * 2 ^ 32 + d.index.toNat) k.ctx (lReport d.word) st (reportWord st 0 0 0 0 0 0) s
  flightEnds q d.index st { s with resv := kfilter (fun _ r => r != q * 2 ^ 32 + d.index.toNat) s.resv }

/-- The ranges a LAUNCH addresses: its image's header, its census area and its report. -/
def launchRanges (w : BitVec 512) : List (Nat × Nat) :=
  [(lImage w, 64)] ++ (if lCensusBytes w = 0 then [] else [(lCensus w, lCensusBytes w)]) ++
    (if lReport w = 0 then [] else [(lReport w, 64)])

/-- Segments of a context that ranges meet. -/
def rangeSegs (c : Ctx) (l : List (Nat × Nat)) : List Nat :=
  (c.segs.filter fun e => l.any fun r => overlaps e.2.base (e.2.len * 0x200000) r.1 r.2).map (·.1)

/-- Segments a LAUNCH addresses (R334); those of its code and its stall contents follow when its header is read. -/
def launchSegs (k : Queue) (w : BitVec 512) (s : State) : List Nat :=
  ((s.ctx k.ctx).map fun c => rangeSegs c (launchRanges w)).getD []

/-- The segments of the image's code and stall contents are referenced too (R334). -/
def imageSegs (q : Nat) (k : Queue) (d : Flight) (i : Image) (s : State) : State :=
  let more := (((s.ctx k.ctx).map fun c => rangeSegs c [(lImage d.word + i.codeOffset, i.codeSize),
    (lImage d.word + i.initOffset, i.initSize)]).getD []).filter fun g => !d.segs.contains g
  foldS more (fun g s => segRef k.ctx g s) (setFlight q d.index (fun d => { d with segs := d.segs ++ more }) s)

/-- What a LAUNCH does once it is dispatched: it is refused, or its image is loaded and its cores start. -/
def launchRun (q : Nat) (k : Queue) (d : Flight) (s : State) : State :=
  let w := d.word
  if (kget (q * 2 ^ 32 + d.index.toNat) s.launches).isSome then s
  else if ((s.ctx k.ctx).map ctxGone).getD true then launchFails q k d stContextLost s
  else if !launchFieldsOk w then launchFails q k d stBadParam s
  else if lCount w = 0 then launchFails q k d stOk s
  else if !coresOwned k.part.val w s then launchFails q k d stNotPermitted s
  else if lDet w && s.fuse.profile = 0 then launchFails q k d stNotPermitted s
  else
    match loadImage { code := whoLoader q d.index.toNat, cluster := none, ctx := k.ctx, part := k.part } (lImage w)
        (lDet w) (imageSegs q k d) s with
    | (.wait, s) => s
    | (.status st, s) => launchFails q k d st s
    | (.fault cause det va, s) =>
      launchFails q k d stContextLost
        (vaFault k.ctx 5 cause va .read (if cause = fcSiteUnavailable then det else queueDetail q d.index.toNat) s)
    | (.ok i code init, s) =>
      if coresFree k.part.val (q * 2 ^ 32 + d.index.toNat) w s then startLaunch q k d i code init s else s

/-- LAUNCH (R314, R371): dispatched when it is malformed or refused, or when it is the one to be served and all its
cores are free. -/
def execLaunch (queue : BitVec 14) (index : BitVec 32) (media : MediaList) (s : State) :
    Host.Outcome State Fault Refusal :=
  let q := queue.toNat
  let ready : Bool := match s.queue q with
    | none => false
    | some k => match headIs k index with
      | none => true
      | some d => (waitsForCores k.part.val k s).isNone ||
          (coresFree k.part.val (q * 2 ^ 32 + index.toNat) d.word s && isServed k.part.val q k s)
  if !ready then .next s
  else .next { descriptorRow 1 q index
    (fun k w s => if launchReportOk w then .ok (launchSegs k w s) else .error stBadParam) (launchRun q) (agentReads { s with media })
    with media := [] }

/-- No other launch of the partition has waited for cores for longer than the one of queue q (R371). -/
def longestWaiting (p q : Nat) (s : State) : Bool :=
  let mine := ((s.queue q).bind (·.since)).getD s.aon
  s.queues.all fun e => e.1 == q || e.2.part.val != p || (waitsForCores p e.2 s).isNone || mine ≤ (e.2.since).getD s.aon

/-- Launches that have begun to wait for cores are stamped, and those that wait no more lose their stamp. -/
def stampWaits (s : State) : State :=
  let since (k : Queue) : Option Nat := if (waitsForCores k.part.val k s).isSome then some (k.since.getD s.aon) else none
  { s with queues := kmap (fun _ k => { k with since := since k }) s.queues }

/-- LAUNCH_RESERVE (R371): the launch that has waited longest for cores reserves them, one a partition. -/
def execLaunchReserve (queue : BitVec 14) (index : BitVec 32) (s : State) : Host.Outcome State Fault Refusal :=
  let q := queue.toNat
  match s.queue q with
  | none => .next s
  | some k =>
    let key := q * 2 ^ 32 + index.toNat
    match headIs k index with
    | none => .next s
    | some d =>
      if (waitsForCores k.part.val k s).isSome && !coresFree k.part.val key d.word s &&
          (kget k.part.val s.resv).isNone && longestWaiting k.part.val q s then
        .next { s with resv := kset k.part.val key s.resv }
      else .next s

end Sys2Proof.Machine
end

