-- ==== Sys2Proof/Machine/Work.lean ====
section
/-!
DEFINITION. The descriptors of the queue agents: COPY, FILL, CENSUS_READ, SIGNAL, WAIT and BARRIER (R309, R317 to R319,
R321, R78).
-/
namespace Sys2Proof.Machine

/-! ### Rows of bytes (R78, R317) -/

/-- A COPY or FILL over rows: source (none for FILL), destination, and their strides. -/
structure Rows where
  src : Option Nat
  pattern : Nat
  dst : Nat
  rowBytes : Nat
  rows : Nat
  srcStride : Nat
  dstStride : Nat
  deriving DecidableEq, Repr, Inhabited

/-- A byte range [a, a + n) meets some source row. -/
def Rows.meetsSrc (r : Rows) (a n : Nat) : Bool :=
  match r.src with
  | none => false
  | some b => (List.range r.rows).any fun i => overlaps a n (b + i * r.srcStride) r.rowBytes

/-- A byte range meets some destination row. -/
def Rows.meetsDst (r : Rows) (a n : Nat) : Bool :=
  (List.range r.rows).any fun i => overlaps a n (r.dst + i * r.dstStride) r.rowBytes

/-- `n` bytes of a repeated 32-bit pattern from byte i of a row (R78). -/
def patternBytes (pattern i : Nat) : Nat → Nat
  | 0 => 0
  | n + 1 => bytesAt pattern (i % 4) 1 + 256 * patternBytes pattern (i + 1) n

/-- The rows make no access (R16). -/
def Rows.empty (r : Rows) : Bool := r.rows = 0 || r.rowBytes = 0

/-- What a run of pieces came to: how far it got, and whether it ended. -/
inductive Run where
  | done
  | wait (pos : Nat)
  | fault (cause detail va : Nat) (need : Need)
  deriving DecidableEq, Repr, Inhabited

/-- One piece: the bytes of row i from offset o up to the end of the destination line, read and written. Where source
and destination overlap the value is free (R78). -/
def copyPiece (w : Who) (r : Rows) (i o n : Nat) (s : State) : Rng × Need × State :=
  let d := r.dst + i * r.dstStride + o
  let wr (v : Nat) (s0 s : State) : Rng × Need × State :=
    match writeVa w d n v s with
    | (.wait, s) => (.wait, .write, putBack w.code s0 s)
    | (x, s) => (x, .write, s)
  match r.src with
  | none => wr (patternBytes r.pattern o n) s s
  | some b =>
    let a := b + i * r.srcStride + o
    match readRange w .read a n s with
    | (.ok v, t) =>
      if r.meetsSrc d n || r.meetsDst a n then wr (Config.freeLine t.free).toNat s t.bump else wr v s t
    | (x, t) => (x, .read, t)

/-- Runs pieces from a position, row by row in ascending order (R78). -/
def copyRun (w : Who) (r : Rows) : Nat → Nat → Nat → State → Run × State
  | 0, _, _, s => (.done, s)
  | fuel + 1, i, o, s =>
    if i ≥ r.rows then (.done, s)
    else if o ≥ r.rowBytes then copyRun w r fuel (i + 1) 0 s
    else
      let d := r.dst + i * r.dstStride + o
      let n := min (r.rowBytes - o) (64 - d % 64)
      match copyPiece w r i o n s with
      | (.ok _, _, s) => copyRun w r fuel i (o + n) s
      | (.wait, _, s) => (.wait (i * 2 ^ 32 + o), s)
      | (.fault c det va, need, s) => (.fault c det va need, s)

/-- Runs the rows from a kept position. -/
def copyFrom (w : Who) (r : Rows) (pos : Nat) (s : State) : Run × State :=
  if r.empty then (.done, s)
  else copyRun w r (r.rows * (r.rowBytes + 1) + 1) (pos / 2 ^ 32) (pos % 2 ^ 32) s

/-- Segments of a context that rows address. -/
def Rows.segs (r : Rows) (c : Ctx) : List Nat :=
  if r.empty then []
  else (c.segs.filter fun e => r.meetsSrc e.2.base (e.2.len * 0x200000) || r.meetsDst e.2.base (e.2.len * 0x200000)).map
    (·.1)

/-- Some byte of some row lies in a TARGET 1 segment (R317). -/
def Rows.touchesHost (r : Rows) (c : Ctx) : Bool :=
  !r.empty && c.segs.any fun e => e.2.target == 1 &&
    (r.meetsSrc e.2.base (e.2.len * 0x200000) || r.meetsDst e.2.base (e.2.len * 0x200000))

/-! ### COPY, FILL (R317) -/

def copyRows (w : BitVec 512) : Rows :=
  { src := some (bytesAt w.toNat 8 8), pattern := 0, dst := bytesAt w.toNat 16 8, rowBytes := bytesAt w.toNat 24 4,
    rows := bytesAt w.toNat 28 2, srcStride := bytesAt w.toNat 32 4, dstStride := bytesAt w.toNat 36 4 }

def fillRows (w : BitVec 512) : Rows :=
  { src := none, pattern := bytesAt w.toNat 8 4, dst := bytesAt w.toNat 16 8, rowBytes := bytesAt w.toNat 24 4,
    rows := bytesAt w.toNat 28 2, srcStride := 0, dstStride := bytesAt w.toNat 36 4 }

def copyOk (w : BitVec 512) : Bool := dHeaderOk w && bytesAt w.toNat 30 2 = 0 && bytesAt w.toNat 40 24 = 0

def fillOk (w : BitVec 512) : Bool := copyOk w && bytesAt w.toNat 12 4 = 0 && bytesAt w.toNat 32 4 = 0

def rowsStart (ok : BitVec 512 → Bool) (rows : BitVec 512 → Rows) (k : Queue) (w : BitVec 512) (s : State) :
    Except Nat (List Nat) :=
  if !ok w then .error stBadParam
  else match s.ctx k.ctx with
    | none => .error stContextLost
    | some c =>
      if (rows w).touchesHost c && !hostOpen s then .error stFrozen else .ok ((rows w).segs c)

/-- The mark of a transfer whose every piece is out. -/
def allOut : Nat := 2 ^ 128

/-- A transfer has made its last access: it is done once its writes to windows are performed at SYS (R171, R176, R310). -/
def transferEnds (q : Nat) (index : BitVec 32) (s : State) : State :=
  match sysRelease (whoDesc q index.toNat) s with
  | (true, s) => flightDone q index stOk s
  | (false, s) => setFlight q index (fun d => { d with pos := allOut }) s

def rowsRun (rows : BitVec 512 → Rows) (q : Nat) (k : Queue) (d : Flight) (s : State) : State :=
  if d.pos = allOut then transferEnds q d.index s
  else match copyFrom { code := whoDesc q d.index.toNat, cluster := none, ctx := k.ctx, part := k.part } (rows d.word)
      d.pos s with
  | (.done, s) => transferEnds q d.index s
  | (.wait pos, s) => setFlight q d.index (fun d => { d with pos }) s
  | (.fault cause det va need, s) =>
    if cause = fcHostFrozen then flightDone q d.index stFrozen s else agentEnds q d.index cause det va need s

def execWorkCopy (queue : BitVec 14) (index : BitVec 32) (media : MediaList) (s : State) :
    Host.Outcome State Fault Refusal :=
  .next { descriptorRow 2 queue.toNat index (rowsStart copyOk copyRows) (rowsRun copyRows queue.toNat)
    (agentReads { s with media })
    with media := [] }

def execFill (queue : BitVec 14) (index : BitVec 32) (media : MediaList) (s : State) :
    Host.Outcome State Fault Refusal :=
  .next { descriptorRow 3 queue.toNat index (rowsStart fillOk fillRows) (rowsRun fillRows queue.toNat)
    (agentReads { s with media })
    with media := [] }

/-! ### CENSUS_READ (R321) -/

def cSrc (w : BitVec 512) : Nat := bytesAt w.toNat 8 8
def cSrcRecords (w : BitVec 512) : Nat := bytesAt w.toNat 16 4
def cDstRecords (w : BitVec 512) : Nat := bytesAt w.toNat 20 4
def cDst (w : BitVec 512) : Nat := bytesAt w.toNat 24 8
def cCount (w : BitVec 512) : Nat := bytesAt w.toNat 32 8
def cFilter (w : BitVec 512) : Nat := bytesAt w.toNat 40 1

def censusOk (w : BitVec 512) : Bool :=
  dHeaderOk w && cSrc w % 64 = 0 && cDst w % 64 = 0 && cCount w % 8 = 0 && bytesAt w.toNat 41 23 = 0

def censusEmpty (w : BitVec 512) : Bool := cSrcRecords w = 0 || cDstRecords w = 0

/-- Examines records from number i with `copied` and `selected` so far. -/
def censusRun (ww : Who) (w : BitVec 512) : Nat → Nat → Nat → Nat → State → Run × State
  | 0, _, _, _, s => (.done, s)
  | fuel + 1, i, copied, selected, s =>
    let pos := i + 2 ^ 32 * copied + 2 ^ 64 * selected
    if i ≥ cSrcRecords w then
      if cCount w = 0 then (.done, s)
      else match writeVa ww (cCount w) 8 (copied + 2 ^ 32 * selected) s with
        | (.ok _, s) => (.done, s)
        | (.wait, s) => (.wait pos, s)
        | (.fault c d va, s) => (.fault c d va .write, s)
    else match readRange ww .read (cSrc w + 64 * i) 64 s with
      | (.wait, t) => (.wait pos, t)
      | (.fault c d va, t) => (.fault c d va .read, t)
      | (.ok v, t) =>
        if cFilter w = 0 || (bytesAt v 29 1 &&& cFilter w) ≠ 0 then
          if copied < cDstRecords w then
            match writeVa ww (cDst w + 64 * copied) 64 v t with
            | (.ok _, t) => censusRun ww w fuel (i + 1) (copied + 1) (selected + 1) t
            | (.wait, t) => (.wait pos, putBack ww.code s t)
            | (.fault c d va, t) => (.fault c d va .write, t)
          else censusRun ww w fuel (i + 1) copied (selected + 1) t
        else censusRun ww w fuel (i + 1) copied selected t

/-- Segments of the addresses of a CENSUS_READ. -/
def censusSegs (c : Ctx) (w : BitVec 512) : List Nat :=
  if censusEmpty w then []
  else (c.segs.filter fun e =>
    overlaps e.2.base (e.2.len * 0x200000) (cSrc w) (64 * cSrcRecords w) ||
    overlaps e.2.base (e.2.len * 0x200000) (cDst w) (64 * cDstRecords w) ||
    (cCount w ≠ 0 && overlaps e.2.base (e.2.len * 0x200000) (cCount w) 8)).map (·.1)

def execCensusRead (queue : BitVec 14) (index : BitVec 32) (media : MediaList) (s : State) :
    Host.Outcome State Fault Refusal :=
  let q := queue.toNat
  .next { descriptorRow 8 q index
    (fun k w s => if !censusOk w then .error stBadParam else match s.ctx k.ctx with
      | none => .error stContextLost
      | some c => .ok (censusSegs c w))
    (fun k d s =>
      if censusEmpty d.word then flightDone q d.index stOk s
      else if d.pos = allOut then transferEnds q d.index s
      else match censusRun { code := whoDesc q d.index.toNat, cluster := none, ctx := k.ctx, part := k.part } d.word
          (cSrcRecords d.word + 1) (d.pos % 2 ^ 32) (d.pos / 2 ^ 32 % 2 ^ 32) (d.pos / 2 ^ 64) s with
        | (.done, s) => transferEnds q d.index s
        | (.wait pos, s) => setFlight q d.index (fun d => { d with pos }) s
        | (.fault cause det va need, s) => agentEnds q d.index cause det va need s) (agentReads { s with media })
    with media := [] }

/-! ### SIGNAL, WAIT, BARRIER (R309, R318, R319, R324) -/

/-- The rules of R318 on the fields. -/
def fenceFieldsOk (signal : Bool) (w : BitVec 512) : Bool :=
  dHeaderOk w && dCount w ≤ 5 && bytesAt w.toNat 9 7 = 0 && bytesAt w.toNat 56 8 = 0 &&
  (List.range 5).all fun i =>
    let e := dEntry w i
    if i < dCount w then
      bits e 31 23 = 0 && (if signal then !bit e 22 || bits e 63 32 = 0 else !bit e 22)
    else e = 0

/-- The refusal of an entry's fence: not VALID, of another partition, or in BIND_OFF (R318, R335). DEDUCED (log 97): every wait
on an ABANDONED fence is satisfied (R325), also in BIND_OFF. -/
def entryRefusal (signal : Bool) (p : Nat) (e : Nat) (s : State) : Option Nat :=
  match s.fence (bits e 21 0) with
  | none => some stBadParam
  | some x => if x.part.val ≠ p then some stNotPermitted
      else if x.bindOff && (signal || !x.abandoned) then some stNotPermitted else none

def fencesStart (signal : Bool) (k : Queue) (w : BitVec 512) (s : State) : Except Nat (List Nat) :=
  if !fenceFieldsOk signal w then .error stBadParam
  else match firstSome (fun i => entryRefusal signal k.part.val (dEntry w i) s) (List.range (dCount w)) with
    | some st => .error st
    | none => .ok []

/-- A fence of the SIGNAL or WAIT of an index is held by a change (R359): the row leaves everything as it is. -/
def fencesHeld (q : Nat) (index : BitVec 32) (s : State) : Bool :=
  match s.queue q with
  | none => false
  | some k =>
    let w := match headIs k index with
      | some d => some d.word
      | none => (openFlight k index).map (·.word)
    match w with
    | some w => (List.range (dCount w)).any fun i => isHeld (objFence (bits (dEntry w i) 21 0)) s
    | none => false

/-- References of a dispatched SIGNAL on its fences (R334). -/
def signalRef (w : BitVec 512) (s : State) : State :=
  foldS (List.range (dCount w)) (fun i s =>
    let f := bits (dEntry w i) 21 0
    match s.fence f with
    | some x => s.setFence f { x with refc := x.refc + 1 }
    | none => s) s

/-- A SIGNAL whose earlier descriptors have all completed applies its entries in order (R309, R318). -/
def signalRun (q : Nat) (k : Queue) (d : Flight) (s : State) : State :=
  if !noEarlier k d.index then s
  else
    let s := foldS (List.range (dCount d.word)) (fun i s =>
      let e := dEntry d.word i
      let f := bits e 21 0
      fenceUnref f 1 (if bit e 22 then fenceReset f s else fenceSignal f (BitVec.ofNat 32 (bits e 63 32)) s)) s
    flightDone q d.index stOk s

def execSignal (queue : BitVec 14) (index : BitVec 32) (s : State) : Host.Outcome State Fault Refusal :=
  let q := queue.toNat
  let fresh := match s.queue q with
    | some k => (openFlight k index).isNone
    | none => false
  if fencesHeld q index s then .next s
  else .next (descriptorRow 4 q index (fencesStart true)
    (fun k d s => signalRun q k d (if fresh then signalRef d.word s else s)) s)

/-- A WAIT is evaluated when it is dispatched (R324): entries met at once, and pending ones with their references. -/
def waitRun (q : Nat) (d : Flight) (s : State) : State :=
  let n := dCount d.word
  let (met, s) := (List.range n).foldl (fun (acc : KV Nat × State) i =>
    let e := dEntry d.word i
    let f := bits e 21 0
    match acc.2.fence f with
    | none => acc
    | some x => match waitResult x (BitVec.ofNat 32 (bits e 63 32)) with
      | some st => (kset i st acc.1, acc.2)
      | none => (acc.1, acc.2.setFence f { x with refc := x.refc + 1, waiters := x.waiters + 1 })) ([], s)
  setFlight q d.index (fun d => { d with met, done := if met.length = n then some (waitStatus met n) else none }) s

/-- WAIT (R318, R324): a WAIT already dispatched is met only by changes of its fences. -/
def execWait (queue : BitVec 14) (index : BitVec 32) (s : State) : Host.Outcome State Fault Refusal :=
  let q := queue.toNat
  let fresh := match s.queue q with
    | some k => (openFlight k index).isNone
    | none => false
  if fencesHeld q index s then .next s
  else .next (descriptorRow 5 q index (fencesStart false) (fun _ d s => if fresh then waitRun q d s else s) s)

/-- BARRIER (R309, R319): its own part is done when every earlier descriptor has completed. -/
def execBarrier (queue : BitVec 14) (index : BitVec 32) (s : State) : Host.Outcome State Fault Refusal :=
  let q := queue.toNat
  .next (descriptorRow 6 q index
    (fun _ w _ => if dHeaderOk w && bytesAt w.toNat 8 56 = 0 then .ok [] else .error stBadParam)
    (fun k d s => if noEarlier k d.index then flightDone q d.index stOk s else s) s)

end Sys2Proof.Machine
end

