-- ==== Sys2Proof/Machine/HostPort.lean ====
section
/-!
DEFINITION. The PCIe host port: ATS, the BAR4 aperture, doorbells, completions, INTx and the containment freeze (R274, R275,
R278 to R302).
-/
namespace Sys2Proof.Machine

/-! ### The freeze (R294, R295) -/

/-- FREEZE (R294, R295): the first trigger freezes the port and empties the address translation cache, and what waits in the
port is held in its order; a further one sets MULTIPLE, and one between steps 4 and 5 of a release makes it fail (R297). -/
def freeze (cause : Nat) (s : State) : State :=
  let p := s.port
  if p.frozen then
    { s with port := { p with multiple := true, releasing := false, relErr := if p.releasing then 5 else p.relErr } }
  else
    let s := { s with port := { p with frozen := true, cause, freezeCount := satAdd 16 p.freezeCount 1, atc := [],
                                       atsAsked := [], atsBad := [], parked := [], held := [] } }
    smbSet 0 ((p.parked ++ p.held).foldl (fun s h => report h s) s)

/-- Sets a bit of AER Uncorrectable Error Status. -/
def aerSet (i : Nat) (s : State) : State :=
  { s with port := { s.port with aer := s.port.aer ||| BitVec.ofNat 32 (2 ^ i) } }

/-- AER Uncorrectable Error Status bits of the PCI Express specification. PRESUMED (log 12). -/
def aerPoisoned : Nat := 12
def aerTimeout : Nat := 14

/-! ### Failed host accesses (R290) -/

/-- The address that a host-space address has in a context: the first TARGET 1 segment that reaches it. -/
def vaOfHost (s : State) (ctx pa : Nat) : Option (Nat × Nat) :=
  match s.ctx ctx with
  | none => none
  | some c => (c.segs.find? fun e => e.2.target = 1 && 0x800000000000 + e.2.list ≤ pa &&
      pa < 0x800000000000 + e.2.list + e.2.len * 0x200000).map fun e => (e.1, e.2.base + (pa - 0x800000000000 - e.2.list))

/-- An access of requester `who` to host space failed: an engine that runs faults at once; an agent of the hub finds
the cause when its own step goes on. -/
def hostFail (who pa cause : Nat) (s : State) : State :=
  let key := ansKey who pa
  if 0 < who && who ≤ 16000 then
    let c := (who - 1) / 4
    let s := { s with asked := kdel key s.asked }
    if !(s.core c).run then s
    else
      let (seg, va) := match vaOfHost s (s.core c).ctx pa with
        | some (i, a) => (i, some a)
        | none => (0, none)
      engineFault c ((who - 1) % 4) cause s (va := va) (pa := some pa) (seg := seg)
  else { s with ans := kset key { status := cause, data := 0, poison := false } s.ans, asked := kdel key s.asked }

/-! ### ATS (R274, R275) -/

/-- A request to host space on one of the pages is outstanding under a PASID word. -/
def hostOutstanding (v : Inval) (s : State) : Bool :=
  s.asked.any fun e =>
    let pa := 64 * (e.1 % 2 ^ 48)
    let pg := (pa - 0x800000000000) / 4096
    0x800000000000 ≤ pa && v.page ≤ pg && pg < v.page + v.pages && ctxPasid ((e.2 - 1) / 2 ^ 22) s == v.pasid

/-- Sends the Invalidation Completions that nothing holds back (R275 steps 2 and 3, R300). -/
def settleInval (s : State) : State :=
  if !hostOpen s then s
  else
    let l := s.port.inval
    let s := { s with port := { s.port with inval := [] } }
    foldS l (fun v s =>
      if hostOutstanding v s then { s with port := { s.port with inval := s.port.inval ++ [v] } }
      else emit (.atsInvalDone v.tag) { s with port := { s.port with atcInvals := satAdd 16 s.port.atcInvals 1 } }) s

/-- ATS_INVALIDATION_REQUEST (R275): matching entries go; the completion follows the outstanding requests, and waits
for the release while frozen. -/
def execAtsInvalidationRequest (tag : BitVec 16) (pasid : BitVec 22) (page : BitVec 52) (pages : BitVec 32) (s : State) :
    Host.Outcome State Fault Refusal :=
  let lo := pasid.toNat * 2 ^ 52 + page.toNat
  let hit (k : Nat) : Bool := lo ≤ k && k < lo + pages.toNat
  .next (settleInval { s with port := { s.port with
    atc := kfilter (fun k _ => !hit k) s.port.atc,
    inval := s.port.inval ++ [{ tag := tag.toNat, pasid := pasid.toNat, page := page.toNat, pages := pages.toNat }] } })

/-- TRANSLATION_COMPLETION (R274, R290): the pages' permissions and translated addresses, from page `tpage` on, enter the address
translation cache; a status other than Successful Completion is HOST_COMPLETION for the requester, which meets it when its
step goes on. -/
def execTranslationCompletion (pasid : BitVec 22) (page : BitVec 52) (pages : BitVec 16) (read write : Bool)
    (success : Bool) (tpage : BitVec 52) (s : State) : Host.Outcome State Fault Refusal :=
  let k := pasid.toNat * 2 ^ 52 + page.toNat
  match kget k s.port.atsAsked with
  | none => .next s
  | some who =>
    let s := { s with port := { s.port with atsAsked := kdel k s.port.atsAsked } }
    if success then
      let perm := b2n read + 2 * b2n write
      .next (releaseParked (foldS (List.range pages.toNat) (fun i s =>
        { s with port := { s.port with atc := kset (k + i) ((tpage.toNat + i) * 4 + perm) s.port.atc } }) s))
    else if who = 0 then .next s
    else .next (releaseParked { s with port := { s.port with atsBad := kset who k s.port.atsBad } })

/-! ### The BAR4 aperture (R283, R284) -/

def State.bar4Win (s : State) : Nat := s.reg 0x3008 0

/-- Counts a case of R284 and logs the first. -/
def bar4Err (off reason : Nat) (s : State) : State :=
  let p := s.port
  let p := if reason ≤ 4 then { p with refused := satAdd 32 p.refused 1 } else { p with poisoned := satAdd 16 p.poisoned 1 }
  { s with port := if p.errValid then p else { p with errValid := true, errOffset := off, errReason := reason } }

/-- The port takes no request (R284, reason 4): frozen, not ready, or at level L5. -/
def bar4Shut (s : State) : Bool := !hostOpen s || s.power.shed ≥ 5

/-- The reasons 1 to 3 of R284 for a request of the host agent. -/
def bar4Refusal (m : Msg) (s : State) : Option Nat :=
  if !bit s.bar4Win 0 then some 1
  else if !s.populated m.addr.toNat then some 2
  else if (homeRefusal m s).isSome then some 3 else none

def bar4Pa (off : Nat) (s : State) : Nat := bits s.bar4Win 39 30 * 2 ^ 30 + off

def bar4Msg (op : MOp) (off : Nat) (s : State) : Msg :=
  { homeMsg op (bar4Pa off s) false with src := 0xFF, part := Fin.ofNat 8 (bits s.bar4Win 3 1), who := whoHost }

def onesOf (n : Nat) : Nat := 2 ^ (8 * n) - 1

def whoRead : Who := { code := whoHost, cluster := none, ctx := 0, part := 0 }

/-- A completion to the host: discarded where the link is down (R295). -/
def hostAnswer (v : Nat) (ep : Bool) (s : State) : State :=
  if s.port.frozen && !s.port.dlActive then s else emit (.completion v ep) s

/-- Reads one line's part; true when the read waits for the line's holders. -/
def bar4ReadLine (off n : Nat) (s : State) : Bool × State :=
  let m := bar4Msg .rdOnce off s
  match bar4Refusal m s with
  | some r => (false, hostAnswer (onesOf n) false (bar4Err off r s))
  | none => match once { whoRead with part := m.part } m s with
    | (none, s) => (true, s)
    | (some a, s) =>
      (false, if a.status = 0x100 then hostAnswer (onesOf n) true (bar4Err off 6 s)
      else if a.status ≠ stOk then hostAnswer (onesOf n) false (bar4Err off 3 s)
      else if a.poison then hostAnswer (onesOf n) true (bar4Err off 5 s)
      else hostAnswer (bytesAt a.data.toNat (off % 64) n) false s)

/-- Reads lines until one waits. -/
def bar4ReadLines : List (Nat × Nat) → State → Bool × State
  | [], s => (false, s)
  | e :: t, s => match bar4ReadLine e.1 e.2 s with
    | (true, s) => (true, s)
    | (false, s) => bar4ReadLines t s

/-- A read of which a line waits has sent no completion and counted nothing yet; its answers are kept. -/
def bar4Undo (s0 s : State) : State :=
  let sent := (s.out.drop s0.out.length).filter fun o => match o with
    | .completion _ _ => false
    | _ => true
  putBack whoHost s0 { s with port := s0.port, out := s0.out ++ sent }

/-- Lines of a TLP in ascending order: offset and bytes of each part. -/
def lineParts : Nat → Nat → Nat → List (Nat × Nat)
  | 0, _, _ => []
  | k + 1, off, len =>
    if len = 0 then []
    else
      let n := min len (64 - off % 64)
      (off, n) :: lineParts k (off + n) (len - n)

/-- A request of the host on a line at an offset is at its home, or its answer is there. -/
def bar4Begun (off : Nat) (s : State) : Bool :=
  let key := ansKey whoHost (bar4Pa off s)
  (kget key s.asked).isSome || (kget key s.ans).isSome

/-! ### BAR4 writes (R182, R283, R284, R287) -/

/-- Requester code of the host's writes. -/
def whoBar4 : Nat := 0x5FFFE

/-- Performs the host's writes in the order they arrived, up to one that waits for the holders of its line. -/
def bar4Run : Nat → State → State
  | 0, s => s
  | n + 1, s => match s.port.writes with
    | [] => s
    | (off, mask, data) :: t =>
      let next (s : State) : State := bar4Run n { s with port := { s.port with writes := t } }
      let m := { bar4Msg (if mask = 2 ^ 64 - 1 then .wrFull else .wrPartial) off s with
        data := BitVec.ofNat 512 data, mask := BitVec.ofNat 64 mask }
      let key := ansKey whoBar4 m.addr.toNat
      match if (kget key s.asked).isSome || (kget key s.ans).isSome then none else bar4Refusal m s with
      | some r => next (bar4Err off r s)
      | none => match once { whoRead with code := whoBar4, part := m.part } m s with
        | (none, s) => s
        | (some a, s) =>
          if a.status = 0x100 then next (bar4Err off 6 s)
          else if a.status ≠ stOk then next (bar4Err off 3 s)
          else if a.poison then next (bar4Err off (if a.found then 5 else 6) s) else next s

/-- Goes on with the host's writes. -/
def settleWrites (s : State) : State := bar4Run (s.port.writes.length + 1) s

/-- BAR4_WRITE (R283): up to 512 bytes with byte enables, line by line in ascending order. -/
def execBar4Write (offset : BitVec 36) (mask : BitVec 512) (data : BitVec 4096) (media : MediaList) (s : State) :
    Host.Outcome State Fault Refusal :=
  let o := offset.toNat
  .next { settleWrites (foldS (lineParts 10 o 512) (fun e s =>
    let i := e.1 - o
    let m := (mask.toNat >>> i) % 2 ^ e.2
    if m = 0 then s
    else if bar4Shut s then bar4Err e.1 4 s
    else { s with port := { s.port with
      writes := s.port.writes ++ [(e.1, m <<< (e.1 % 64), bytesAt data.toNat i e.2 <<< (8 * (e.1 % 64)))] } })
    { s with media }) with media := [] }

/-- BAR4_READ (R283): served line by line behind the host's writes (R182); a zero-length read returns a value that is free. A
read accepted before a freeze is completed (R295). -/
def execBar4Read (offset : BitVec 36) (len : BitVec 13) (media : MediaList) (s : State) :
    Host.Outcome State Fault Refusal :=
  let parts := lineParts 130 offset.toNat len.toNat
  if len = 0 then .next (emit (.completion (Config.free32 s.free).toNat false) s.bump)
  else if bar4Shut s && !(parts.any fun e => bar4Begun e.1 s) then
    .next (foldS parts (fun e s => emit (.completion (onesOf e.2) false) (bar4Err e.1 4 s)) s)
  else
    let s := settleWrites { s with media }
    if !s.port.writes.isEmpty then .next { s with media := [] }
    else match bar4ReadLines parts s with
    | (true, t) => .next { bar4Undo s t with media := [] }
    | (false, t) => .next { t with media := [] }

/-- Operation code of R58 of a host AtomicOp. -/
def atopOf : HostAtomicOp → Nat
  | .swap => 0
  | .fetchAdd => 1
  | .cas => 9

/-- INBOUND_ATOMICOP (R283): an atomic of DEV scope at the home or at memory, behind the host's writes (R182). R284 gives a
poisoned line or an integrity failure no value to return: the value is free. -/
def execInboundAtomicop (offset : BitVec 36) (wide : Bool) (op : HostAtomicOp) (operand compare : BitVec 64)
    (media : MediaList) (s : State) : Host.Outcome State Fault Refusal :=
  let off := offset.toNat
  let n := if wide then 8 else 4
  if bar4Shut s && !bar4Begun off s then .next (emit (.completion (onesOf n) false) (bar4Err off 4 s))
  else
  let s := settleWrites { s with media }
  let m := { bar4Msg .atomic off s with
    addr := BitVec.ofNat 48 (bar4Pa off s), aux := BitVec.ofNat 16 (atopOf op + 16 * b2n wide + 32 * 4), operand, compare }
  let s := if !s.port.writes.isEmpty then s else match bar4Refusal m s with
    | some r => hostAnswer (onesOf n) false (bar4Err off r s)
    | none =>
      match once { whoRead with part := m.part } m s with
      | (none, s) => s
      | (some a, s) =>
        if a.status = 0x100 then hostAnswer ((Config.free64 s.free).toNat % 2 ^ (8 * n)) false (bar4Err off 6 s.bump)
        else if a.status ≠ stOk then hostAnswer (onesOf n) false (bar4Err off 3 s)
        else if a.poison then hostAnswer ((Config.free64 s.free).toNat % 2 ^ (8 * n)) false (bar4Err off 5 s.bump)
        else hostAnswer (a.data.toNat % 2 ^ (8 * n)) false s
  .next { s with media := [] }

/-! ### Doorbells (R285, R286, R306) -/

/-- A host read of `n` bytes at a BAR2 offset (R285): 0, and all ones for a part of PCI_DB_TAIL (R9) or while frozen. -/
def bar2Read (off n : Nat) (s : State) : Nat :=
  if s.port.frozen || (off % 4096 < 4 && !(off % 4096 = 0 && n = 4)) then onesOf n else 0

/-- A host write of `n` bytes at a BAR2 offset (R285, R286): PCI_DB_TAIL of the page's queue, behind a change that holds the
queue (R359); discarded and counted under R286, else R306. Every other offset ignores it. -/
def bar2Write (off n v : Nat) (s : State) : State :=
  let q := off / 4096
  let drop := { s with port := { s.port with dbLast := q, dbDrop := satAdd 16 s.port.dbDrop 1 } }
  if off % 4096 ≠ 0 || n ≠ 4 then s
  else match s.queue q with
  | none => drop
  | some k =>
    if !hostOpen s then drop
    else if isHeld (objQueue q) s then s
    else if k.state ≠ 1 || k.ownerClass = 2 then drop else doorbell q (BitVec.ofNat 32 v) s

/-- PCI_DB_TAIL. -/
def execPciDbTail (queue : BitVec 14) (tail : BitVec 32) (s : State) : Host.Outcome State Fault Refusal :=
  .next (bar2Write (4096 * queue.toNat) 4 tail.toNat s)

/-! ### Completions (R290) -/

/-- HOST_READ_COMPLETION: the data of a read or the old value of an AtomicOp, or a status that faults the requester. -/
def execHostReadCompletion (who : BitVec 24) (iova : BitVec 47) (success : Bool) (data : BitVec 512) (s : State) :
    Host.Outcome State Fault Refusal :=
  let pa := 0x800000000000 + iova.toNat
  let key := ansKey who.toNat pa
  if (kget key s.asked).isNone then .next s
  else if success then
    .next (settleInval { s with ans := kset key { status := stOk, data, poison := false } s.ans,
                                asked := kdel key s.asked })
  else .next (settleInval (hostFail who.toNat pa fcHostCompletion s))

/-- COMPLETION_TIMEOUT: an uncorrectable error of the port; the requester faults with HOST_FROZEN (R290, R295). -/
def execCompletionTimeout (who : BitVec 24) (iova : BitVec 47) (s : State) : Host.Outcome State Fault Refusal :=
  let pa := 0x800000000000 + iova.toNat
  if (kget (ansKey who.toNat pa) s.asked).isNone then .next s
  else .next (hostFail who.toNat pa fcHostFrozen (freeze 1 (aerSet aerTimeout s)))

/-! ### INTx (R291 to R293) -/

def setCommand (v : Nat) (s : State) : State := { s with port := { s.port with cfg := kset 4 v s.port.cfg } }

/-- INTERRUPT_DISABLE: a configuration write changes Command bit 10 (R291, R292). -/
def execInterruptDisable (value : Bool) (s : State) : Host.Outcome State Fault Refusal :=
  let v := s.pciCommand
  .next (intxEval (setCommand (if value then (if bit v 10 then v else v + 1024) else (if bit v 10 then v - 1024 else v)) s))

def intxStat (s : State) : Nat := b2n (intxCond s) + 2 * b2n s.port.asserted + put 16 16 s.port.asserts

/-- PCI_INTX_STAT: the read completes after every Deassert_INTA that earlier writes caused (R293); all ones while the
port is frozen or the hub is not ready (R295, R300). -/
def execPciIntxStat (s : State) : Host.Outcome State Fault Refusal :=
  if !hostOpen s then .next (emit (.completion 0xFFFFFFFF false) s)
  else
    let s := intxEval s
    .next (emit (.completion (intxStat s) false) s)

/-! ### Freeze triggers (R294) -/

def execUncorrectableError (status : BitVec 5) (s : State) : Host.Outcome State Fault Refusal :=
  .next (freeze (if status.toNat = aerPoisoned then 2 else 1) (aerSet status.toNat s))

/-- POISONED_TLP: the write or AtomicOp is discarded; the requester of a poisoned completion faults (R294, R290). -/
def execPoisonedTlp (completion : Option (BitVec 24 × BitVec 47)) (s : State) : Host.Outcome State Fault Refusal :=
  let s := freeze 2 (aerSet aerPoisoned s)
  match completion with
  | none => .next s
  | some (who, iova) =>
    let pa := 0x800000000000 + iova.toNat
    if (kget (ansKey who.toNat pa) s.asked).isNone then .next s else .next (hostFail who.toNat pa fcHostFrozen s)

/-- The link goes down: a port reset (R33) of the link and of configuration space, but for its sticky fields (AER status,
mask and severity). -/
def linkDown (s : State) : State :=
  { s with port := { s.port with dlActive := false, linkRate := 0, linkWidth := 0, flit := false, d3hot := false,
                                 cfg := kfilter (fun d _ => d == 0x108 || d == 0x10C || d == 0x118) s.port.cfg } }

/-- SURPRISE_DOWN: DL_Active is lost. -/
def execSurpriseDown (s : State) : Host.Outcome State Fault Refusal :=
  if s.port.dlActive then .next (freeze 3 (linkDown s)) else .next s

/-- PORT_RESET (R33, R294): a hot reset or a link disable. -/
def execPortReset (s : State) : Host.Outcome State Fault Refusal := .next (freeze 4 (linkDown s))

/-- HOT_REMOVAL (R294): the PCIe clock is lost; a link that was up goes down first, which is a trigger of its own. -/
def execHotRemoval (s : State) : Host.Outcome State Fault Refusal :=
  let s := if s.port.dlActive then freeze 3 (linkDown s) else s
  .next (freeze 5 { s with clocks := kset 3 { s.clock 3 with running := false } s.clocks })

def execD3hot (s : State) : Host.Outcome State Fault Refusal :=
  .next (freeze 6 { s with port := { s.port with d3hot := true } })

/-! ### Release (R296) -/

/-- The first condition of steps 2 and 3 of R296 that fails, as a REL_ERR code. -/
def releaseError (s : State) : Nat :=
  if !s.port.dlActive then 1
  else if s.port.aer ≠ 0 then 2
  else if !(bit s.pciCommand 1 && bit s.pciCommand 2) then 3
  else if s.port.d3hot then 4 else 0

/-- FREEZE_RELEASE: a write of PCI_FREEZE_REL, and step 4 of R296. -/
def freezeRelease (key : Nat) (release : Bool) (s : State) : State :=
  let p := s.port
  if !release then s
  else if !p.frozen || key ≠ 0x3A7E then { s with port := { p with relErr := 6 } }
  else if releaseError s ≠ 0 then { s with port := { p with relErr := releaseError s } }
  else { s with port := { p with relErr := 0, releasing := true } }

/-- Step 5 of R296, once the hub is ready (R300): the held report writes go out in order, before any interrupt; deferred
invalidations complete; the interrupt condition is evaluated. -/
def releaseRun (s : State) : State :=
  if !s.port.releasing || !s.co.ready then s
  else
    let s := flushHeld { s with port := { s.port with frozen := false, multiple := false } }
    let s := settleInval s
    let was := s.port.asserted
    let s := intxEval { s with port := { s.port with releasing := false, asserted := false } }
    releaseParked (if s.port.asserted || (intxCond s && !s.port.parked.isEmpty) then s
      else { s with port := { s.port with asserted := was } })

def execFreezeRelease (key : BitVec 16) (release : Bool) (s : State) : Host.Outcome State Fault Refusal :=
  .next (freezeRelease key.toNat release s)

/-- DL_ACTIVE (R278, R299): the link trains once PERST# and POR_N are high, to a rate and a width of R278; REFCLK is there
again. At 64 GT/s the mode is flit mode. -/
def execDlActive (rate : BitVec 3) (width : BitVec 5) (flit : Bool) (s : State) : Host.Outcome State Fault Refusal :=
  let r := rate.toNat
  if !s.rst.porN || !s.rst.perstN || r = 0 || 6 < r || !([1, 2, 4, 8, 16].contains width.toNat) then .next s
  else
    let p := s.port
    let clocks := if (s.clock 3).started then kset 3 { s.clock 3 with running := true } s.clocks else s.clocks
    let s := { s with clocks }
    .next { s with port := { p with dlActive := true, linkRate := r, linkWidth := width.toNat, flit := flit || r == 6,
                                    retrains := if p.trained then satAdd 16 p.retrains 1 else 0, trained := true } }

end Sys2Proof.Machine
end

