-- ==== Sys2Proof/Machine/Commands.lean ====
section
/-!
DEFINITION. The command ring, the mailbox, the journal, the offline list and the auto-tier pools (R346 to R352, R363).
-/
namespace Sys2Proof.Machine

/-! ### The command ring (R346 to R349) -/

/-- A write of HUB_CMD_TAIL (R346); a write is discarded while the port is frozen (R349). -/
def cmdTail (t : BitVec 32) (s : State) : State :=
  let c := s.cmd
  if !c.enable || s.port.frozen then s
  else if (t - c.tail).toNat ≥ 2 ^ 31 then { s with cmd := { c with staleTail := satAdd 16 c.staleTail 1 } }
  else if (t - c.done).toNat > 2 ^ c.log2 then { s with cmd := { c with overrun := true } }
  else { s with cmd := { c with tail := t } }

def execHubCmdTail (tail : BitVec 32) (s : State) : Host.Outcome State Fault Refusal :=
  if hostOpen s then .next (cmdTail tail s) else .next s

/-- A write of HUB_CMD_CTL (R349): 1 enables a disabled ring; 0 stops fetch, and ENABLE reads 0 once every fetched
packet has replied. -/
def cmdCtl (enable : Bool) (log2 : Nat) (s : State) : State :=
  let c := s.cmd
  if c.enable then
    if enable then s
    else if s.accepted.any fun a => a.pkt.path == .ring then { s with cmd := { c with closing := true } }
    else { s with cmd := { c with enable := false } }
  else if enable then
    if log2 < 1 || 10 < log2 then s
    else { s with cmd := { c with enable := true, closing := false, log2, head := 0, tail := 0, done := 0, replied := [] } }
  else { s with cmd := { c with log2 } }

def execHubCmdCtl (enable : Bool) (log2 : BitVec 4) (s : State) : Host.Outcome State Fault Refusal :=
  if hostOpen s then .next (cmdCtl enable log2.toNat s) else .next s

/-- The opcodes of R351. -/
def knownOpcode (o : Nat) : Bool :=
  [0x0001, 0x0002, 0x0003, 0x0010, 0x0011, 0x0012, 0x0013, 0x0014, 0x0100, 0x0101, 0x0102, 0x0103, 0x0110, 0x0111,
   0x0120, 0x0121, 0x0130, 0x0131, 0x0200, 0x0201, 0x0202, 0x0203, 0x0210, 0x0211, 0x0212, 0x0213, 0x0220,
   0x0221].contains o ||
  [0x0300, 0x0301, 0x0400, 0x0401, 0x0410, 0x0411, 0x0412, 0x0413, 0x0414, 0x0500, 0x0501, 0x0600, 0x0601, 0x0602,
   0x0603, 0x0700, 0x0701, 0x0702, 0x0703, 0x0704, 0x0705, 0x0706, 0x0707, 0x0800, 0x0801, 0x0900].contains o

/-- HMF itself answers an opcode that R351 does not list, and NOP, once R347 lets the packet be performed; every other packet
is performed by its own command. -/
def selfAnswer (p : Pkt) (opcode : Nat) (s : State) : State :=
  if !knownOpcode opcode then
    if packetWaits p [] s then s
    else reply p opcode (if !s.co.ready then bad stNotReady else if s.power.shed ≥ 5 then bad stShed else bad stBadOpcode 0) s
  else if opcode = 1 then
    directPacket p { code := 1, col := .any, atL4 := true, early := true } (p.paramLen = 0) (fun s => ({}, s)) s
  else s

/-- A packet is accepted (R347); `objs` are the objects its parameters name. -/
def acceptPacket (p : Pkt) (opcode : Nat) (objs : List (BitVec 64)) (s : State) : State :=
  selfAnswer p opcode { s with accepted := s.accepted ++ [{ pkt := p, opcode, objs := objs.map (·.toNat) }] }

/-- Answers the accepted packets that HMF answers itself and that had to wait. -/
def settleAccepted (s : State) : State := foldS s.accepted (fun a s => selfAnswer a.pkt a.opcode s) s

/-- Packets of the ring that have no reply. -/
def ringOpen (s : State) : Nat := (s.accepted.filter fun a => a.pkt.path == .ring).length

/-- PACKET_FETCH (R347, R349, R362): the slot at HEAD, while fewer than 64 fetched packets lack a reply. -/
def execPacketFetch (p : Pkt) (body : PktBody) (s : State) : Host.Outcome State Fault Refusal :=
  let c := s.cmd
  if !c.enable || c.closing || !hostOpen s || s.rst.inProgress || s.power.shed ≥ 5 || c.head = c.tail ||
      ringOpen s ≥ 64 then .next s
  else .next (acceptPacket { p with path := .ring, seq := c.head } body.opcode.toNat body.objs
    { s with cmd := { c with head := c.head + 1 } })

/-! ### The mailbox (R350) -/

/-- OWNER code of a mailbox path. -/
def ownerCode : Path → Nat
  | .ring => 0
  | .mailbox => 1
  | .board => 2

/-- The mailbox path is served: the host's while BAR0 serves writes, the board controller's from the end of CO1. -/
def mbxServed (path : Path) (s : State) : Bool :=
  match path with
  | .ring => false
  | .mailbox => hostOpen s
  | .board => 2 ≤ s.co.stage

def mbxClaim (path : Path) (s : State) : State :=
  if s.mbx.owner = 0 then { s with mbx := { s.mbx with owner := ownerCode path } } else s

def mbxRelease (path : Path) (s : State) : State :=
  if s.mbx.owner ≠ 0 && s.mbx.owner = ownerCode path then { s with mbx := { s.mbx with owner := 0 } } else s

def execClaim (path : Path) (s : State) : Host.Outcome State Fault Refusal :=
  if mbxServed path s then .next (mbxClaim path s) else .next s

def execRelease (path : Path) (s : State) : Host.Outcome State Fault Refusal :=
  if mbxServed path s then .next (mbxRelease path s) else .next s

/-- The packet whose header HUB_MBX_BUF holds (R341, R350). -/
def mbxPkt (path : Path) (s : State) : Pkt :=
  let w := mread s.mbx.buf 0 32
  { path, seq := 0, partition := BitVec.ofNat 4 (bits w 19 16), notify := bit w 24, serial := bit w 25,
    txn := BitVec.ofNat 32 (bits w 63 32), tag := BitVec.ofNat 32 (bits w 95 64), paramLen := BitVec.ofNat 16 (bits w 111 96),
    rsv := if bits w 23 20 ≠ 0 then some 2 else if bits w 31 26 ≠ 0 then some 3 else if bits w 255 112 ≠ 0 then some 14
      else none }

/-- A written GO (R350): the owner submits the packet in the buffer unless BUSY. -/
def mbxGo (path : Path) (objs : List (BitVec 64)) (s : State) : State :=
  if !mbxServed path s || s.mbx.owner = 0 || s.mbx.owner ≠ ownerCode path || s.mbx.busy then s
  else acceptPacket (mbxPkt path s) (mread s.mbx.buf 0 2) objs { s with mbx := { s.mbx with busy := true } }

/-- GO (R350); `objs` are the objects the packet's parameters name. -/
def execGo (path : Path) (objs : List (BitVec 64)) (s : State) : Host.Outcome State Fault Refusal := .next (mbxGo path objs s)

/-- MAILBOX_RELEASE_TIMEOUT (R350). -/
def execMailboxReleaseTimeout (s : State) : Host.Outcome State Fault Refusal :=
  if s.mbx.busy then .next s else .next { s with mbx := { s.mbx with owner := 0 } }

/-! ### TXN_JOURNAL (R363) -/

def execTxnJournal (p : Pkt) (s : State) : Host.Outcome State Fault Refusal :=
  .next (directPacket p { code := 0x14, col := .f, query := true, early := true } (p.paramLen = 0) (fun s =>
    let (l, c, t) := s.journal
    ({ len := 16, data := put 0 32 l + put 32 32 c + put 64 64 t }, s)) s)

/-! ### OFFLINE_CLEAR (R240, R352) -/

/-- The list without its entry number i. -/
def dropAt {α : Type} : Nat → List α → List α
  | _, [] => []
  | 0, _ :: t => t
  | n + 1, x :: t => x :: dropAt n t

def actOfflineClear (index addr : Nat) (s : State) : OpRes × State :=
  match s.offline[index]? with
  | none => (bad stBadParam 32, s)
  | some e =>
    if e.granule * 0x200000 ≠ addr then (bad stBadParam 40, s)
    else if (s.gran e.granule).owned then (bad stBusy 40, s)
    else ({}, { s with offline := dropAt index s.offline, offMore := kdel e.granule s.offMore }.touch (objGran e.granule))

def execOfflineClear (p : Pkt) (index : BitVec 16) (addr : BitVec 64) (s : State) : Host.Outcome State Fault Refusal :=
  .next (directPacket p { code := 0x300, col := .f } (p.paramLen = 16) (actOfflineClear index.toNat addr.toNat) s
    [objGran (granOf addr.toNat)])

/-! ### AUTOTIER_POOL (R251, R352) -/

/-- Free frames of a partition's pool of a tier. -/
def poolFree (p t : Nat) (s : State) : Nat := kcount (fun g o => o == p && tierOf (g * 0x200000) == t) s.pool

def grantOne (p t : Nat) : List Nat → Nat → State → OpRes × State
  | [], _, s => ({}, s)
  | f :: l, off, s =>
    let g := granOf f
    let x := s.gran g
    if f % 0x200000 ≠ 0 || tierOf f ≠ t || !s.populated f then (bad stBadParam off, s)
    else if !x.owned || x.owner.val ≠ p || x.mapcount ≠ 0 || x.needsScrub || x.struct || x.hub then
      (bad stNotPermitted off, s)
    else grantOne p t l (off + 8) { s with pool := kset g p s.pool }

def withdrawOne (p t : Nat) : List Nat → Nat → State → OpRes × State
  | [], _, s => ({}, s)
  | f :: l, off, s =>
    let g := granOf f
    if f % 0x200000 ≠ 0 || tierOf f ≠ t then (bad stBadParam off, s)
    else if kget g s.moved = some p then (bad stBusy off, s)
    else if kget g s.pool ≠ some p then
      (bad (if (s.gran g).owned && (s.gran g).owner.val ≠ p then stNotPermitted else stBadParam) off, s)
    else withdrawOne p t l (off + 8) { s with pool := kdel g s.pool }

/-- A grant or withdrawal acts on all of its frames or on none; the reply gives the free frames of the pool. -/
def actPool (p : Pkt) (t : Nat) (step : Nat → Nat → List Nat → Nat → State → OpRes × State) (frames : List Nat)
    (s : State) : OpRes × State :=
  let (r, s') := step (pnum p) t frames 48 s
  if r.status ≠ stOk then (r, s) else ({ len := 4, data := poolFree (pnum p) t s' }, s')

/-- What TIER and the frames say by themselves: their tier and alignment (R356). -/
def poolForm (tier : Nat) (frames : List Nat) : Option OpRes :=
  if tier > 2 then some (bad stBadParam 33)
  else (frames.findIdx? fun f => f % 0x200000 ≠ 0 || tierOf f ≠ tier).map fun k => bad stBadParam (48 + 8 * k)

def poolObjs (frames : List Nat) : List Nat := frames.map fun f => objGran (granOf f)

def execAutotierPoolGrant (p : Pkt) (tier : BitVec 8) (frames : List (BitVec 64)) (s : State) :
    Host.Outcome State Fault Refusal :=
  let fs := frames.map (·.toNat)
  .next (stagePacket p { code := 0x301, col := .p, stageable := true }
    (p.paramLen.toNat = 16 + 8 * frames.length && frames.length ≤ 506) (fun _ => poolForm tier.toNat fs)
    (.autotierPoolGrant p tier frames) (16 + 8 * frames.length) noReserve (fun _ => poolObjs fs)
    (fun _ => actPool p tier.toNat grantOne fs) s)

def execAutotierPoolWithdraw (p : Pkt) (tier : BitVec 8) (frames : List (BitVec 64)) (s : State) :
    Host.Outcome State Fault Refusal :=
  let fs := frames.map (·.toNat)
  .next (stagePacket p { code := 0x301, col := .p, stageable := true, atL4 := true }
    (p.paramLen.toNat = 16 + 8 * frames.length && frames.length ≤ 506) (fun _ => poolForm tier.toNat fs)
    (.autotierPoolWithdraw p tier frames) (16 + 8 * frames.length) noReserve (fun _ => poolObjs fs)
    (fun _ => actPool p tier.toNat withdrawOne fs) s)

end Sys2Proof.Machine
end

