-- ==== Sys2Proof/Machine/Fences.lean ====
section
/-!
DEFINITION. Fence commands, host references, event and fault rings, and CONTEXT_ABANDON (R322 to R326, R329, R333 to R339).
-/
namespace Sys2Proof.Machine

/-! ### FENCE_CREATE, FENCE_DESTROY, FENCE_SIGNAL, FENCE_RESET -/

/-- The partition a fence block is allocated to. -/
def blockOf (b : Nat) (s : State) : Option Nat := (kget b s.fenceBlocks).map (·.1)

/-- The id of a new fence: the lowest free one of the partition's blocks, else the first of the lowest free block
(R303). -/
def newFence (p : Nat) (s : State) : Option Nat :=
  let taken (i : Nat) : Bool := (s.fence i).isSome || s.reservedIds.contains (3 * 2 ^ 32 + i)
  match ((s.fenceBlocks.filter fun b => b.2.1 == p).findSome? fun b =>
    (lowestFrom taken 2048 (2048 * b.1)) : Option Nat) with
  | some i => some i
  | none =>
    let mine := s.reservedIds.filter fun r => r / 2 ^ 32 == 3
    (lowestFrom (fun b => (blockOf b s).isSome || mine.any fun r => r % 2 ^ 32 / 2048 == b) 2048 0).map (2048 * ·)

/-- Fence block b is the partition's: it is there, or it is allocated (R303). -/
def takeBlock (p b : Nat) (s : State) : Option State :=
  if (blockOf b s).isSome then some s
  else match alloc p 65536 65536 s with
    | some (a, s) => some { s with fenceBlocks := kset b (p, a) s.fenceBlocks }
    | none => none

/-- The rules of FENCE_CREATE that no other state bears on. -/
def fenceForm (mirror : Nat) : Option OpRes := if mirror % 8 ≠ 0 then some (bad stBadParam 40) else none

/-- FENCE_CREATE (R303, R322): EPOCH 0, unsignalled; its mirror is written at once. -/
def actFenceCreate (p : Pkt) (c mirror : Nat) (id : Option Nat) (s : State) : OpRes × State :=
  match ctxOf p c 32 s with
  | .error r => (r, s)
  | .ok k =>
    let seg := inSegment k mirror 8 (·.w)
    if mirror ≠ 0 && seg.isNone then (bad stBadParam 40, s)
    else if k.state ≠ 0 then (bad stContextLost, s)
    else match (match id with
      | some i => some (i % 2 ^ 32)
      | none => newFence (pnum p) s) with
    | none => (bad stNoResource, s)
    | some f =>
      let b := f / 2048
      match takeBlock (pnum p) b s with
      | none => (bad stNoResource, s)
      | some s1 =>
        let s1 := ctxRef c 1 (s1.setFence f { part := Fin.ofNat 8 (pnum p), owner := c, mirror })
        let s1 := if mirror = 0 then s1 else match seg with
          | some i => segRef c i s1
          | none => s1
        ({ len := 4, data := f }, mirrorWrite f s1)

def execFenceCreate (p : Pkt) (owner : BitVec 20) (mirror : BitVec 64) (s : State) :
    Host.Outcome State Fault Refusal :=
  .next (stagePacket p { code := 0x210, col := .p, stageable := true } (p.paramLen = 16)
    (fun _ => fenceForm mirror.toNat) (.fenceCreate p owner mirror) 16
    (fun s => (newFence (pnum p) s).map fun i => some (3 * 2 ^ 32 + i)) (fun _ => [objCtx owner.toNat])
    (actFenceCreate p owner.toNat mirror.toNat) s)

/-- FENCE_DESTROY (R325, R326, R335): force-signalled where waits are pending, BIND_OFF, and the creation reference
released; once. -/
def actFenceDestroy (p : Pkt) (f : Nat) (s : State) : OpRes × State :=
  match fenceOf p f 32 s with
  | .error r => (r, s)
  | .ok x =>
    if x.bindOff then ({}, s)
    else
      let s := if x.waiters > 0 then forceSignal f s else s
      match s.fence f with
      | none => ({}, s)
      | some x => ({}, fenceUnref f 1 (s.setFence f { x with bindOff := true, created := false }))

def execFenceDestroy (p : Pkt) (fence : BitVec 22) (s : State) : Host.Outcome State Fault Refusal :=
  .next (stagePacket p { code := 0x211, col := .p, stageable := true, atL4 := true, inReset := true } (p.paramLen = 8)
    (fun _ => none) (.fenceDestroy p fence) 8 noReserve (fun _ => [objFence fence.toNat])
    (fun _ => actFenceDestroy p fence.toNat) s)

/-- FENCE_SIGNAL (R323); a signal on a BIND_OFF fence is refused (R335). -/
def execFenceSignal (p : Pkt) (fence : BitVec 22) (epoch : BitVec 32) (s : State) :
    Host.Outcome State Fault Refusal :=
  .next (directPacket p { code := 0x212, col := .p } (p.paramLen = 8) (fun s =>
    match fenceOf p fence.toNat 32 s with
    | .error r => (r, s)
    | .ok x => if x.bindOff then (bad stNotPermitted 32, s)
      else ({}, fenceSignal fence.toNat epoch (s.touch (objFence fence.toNat)))) s [objFence fence.toNat])

/-- FENCE_RESET (R323). -/
def execFenceReset (p : Pkt) (fence : BitVec 22) (s : State) : Host.Outcome State Fault Refusal :=
  .next (directPacket p { code := 0x213, col := .p } (p.paramLen = 8) (fun s =>
    match fenceOf p fence.toNat 32 s with
    | .error r => (r, s)
    | .ok _ => ({}, fenceReset fence.toNat (s.touch (objFence fence.toNat)))) s [objFence fence.toNat])

/-! ### OBJ_RETAIN, OBJ_RELEASE (R334, R335) -/

/-- OBJ_RETAIN: references for the host, counted in `held`. -/
def actRetain (p : Pkt) (kind id n : Nat) (s : State) : OpRes × State :=
  let full (r : Nat) : Bool := r + n ≥ 2 ^ 32
  if n = 0 then ({}, s)
  else match kind with
  | 0 => match ctxOf p id 36 s with
    | .error r => (r, s)
    | .ok k =>
      if k.state = 2 then (bad stNotPermitted 36, s)
      else if ctxLost k then (bad stContextLost, s)
      else if full k.refc then (bad stNoResource, s)
      else ({}, (s.setCtx id { k with refc := k.refc + n, held := k.held + n }).touch (objCtx id))
  | 1 => match queueOf p id 36 s with
    | .error r => (r, s)
    | .ok k =>
      if k.state = 3 then (bad stNotPermitted 36, s)
      else if full k.refc then (bad stNoResource, s)
      else ({}, (s.setQueue id { k with refc := k.refc + n, held := k.held + n }).touch (objQueue id))
  | 2 => match fenceOf p id 36 s with
    | .error r => (r, s)
    | .ok x =>
      if x.bindOff then (bad stNotPermitted 36, s)
      else if full x.refc then (bad stNoResource, s)
      else ({}, (s.setFence id { x with refc := x.refc + n, held := x.held + n }).touch (objFence id))
  | _ => (bad stBadParam 32, s)

/-- OBJ_RELEASE: not more than the host holds; an object at count 0 goes. -/
def actRelease (p : Pkt) (kind id n : Nat) (s : State) : OpRes × State :=
  if n = 0 then ({}, s)
  else match kind with
  | 0 => match ctxOf p id 36 s with
    | .error r => (r, s)
    | .ok k =>
      if n > k.held then (bad stBadParam 40, s)
      else ({}, ctxUnref id n ((s.setCtx id { k with held := k.held - n }).touch (objCtx id)))
  | 1 => match queueOf p id 36 s with
    | .error r => (r, s)
    | .ok k =>
      if n > k.held then (bad stBadParam 40, s)
      else ({}, queueUnref id n ((s.setQueue id { k with held := k.held - n }).touch (objQueue id)))
  | 2 => match fenceOf p id 36 s with
    | .error r => (r, s)
    | .ok x =>
      if n > x.held then (bad stBadParam 40, s)
      else ({}, fenceUnref id n ((s.setFence id { x with held := x.held - n }).touch (objFence id)))
  | _ => (bad stBadParam 32, s)

/-- The object of a kind and an id (R334). -/
def kindObj (kind id : Nat) : List Nat :=
  match kind with
  | 0 => [objCtx id]
  | 1 => [objQueue id]
  | 2 => [objFence id]
  | _ => []

def execObjRetain (p : Pkt) (kind : BitVec 8) (id count : BitVec 32) (s : State) : Host.Outcome State Fault Refusal :=
  .next (directPacket p { code := 0x220, col := .p } (p.paramLen = 16) (actRetain p kind.toNat id.toNat count.toNat) s
    (kindObj kind.toNat id.toNat))

def execObjRelease (p : Pkt) (kind : BitVec 8) (id count : BitVec 32) (s : State) :
    Host.Outcome State Fault Refusal :=
  .next (directPacket p { code := 0x221, col := .p, atL4 := true, inReset := true } (p.paramLen = 16)
    (actRelease p kind.toNat id.toNat count.toNat) s (kindObj kind.toNat id.toNat))

/-! ### Event rings (R329) -/

/-- A write of HUB_EVT_CTL: enables with the size of the same write, or disables, discarding the held records. -/
def evtCtl (r : Nat) (enable : Bool) (log2 : Nat) (s : State) : State :=
  let g := s.ring r
  if g.enable then
    if enable then s
    else
      let n := g.held.length
      let g' : EvRing := { g with enable := false, held := [], gone := 0, overflow := g.overflow || n > 0, lost := satAdd 16 g.lost n }
      intxEval (s.setRing r g')
  else if enable then
    if log2 < 6 || 16 < log2 then s
    else
      let g' : EvRing := { g with enable := true, log2, prod := 0, ack := 0 }
      intxEval (s.setRing r g')
  else s.setRing r { g with log2 }

def execHubEvtCtl (ring : Fin 16) (enable : Bool) (log2 : BitVec 5) (s : State) :
    Host.Outcome State Fault Refusal :=
  if hostOpen s then .next (evtCtl ring.val enable log2.toNat s) else .next s

/-- A write of HUB_EVT_ACK (R329): held records are then written. -/
def evtAck (r : Nat) (v : BitVec 32) (s : State) : State :=
  let g := s.ring r
  if (g.prod - v).toNat > 2 ^ g.log2 then s
  else intxEval (evDrain r 257 (intxEval (s.setRing r { g with ack := v })))

def execHubEvtAck (ring : Fin 16) (ack : BitVec 32) (s : State) : Host.Outcome State Fault Refusal :=
  if hostOpen s then .next (evtAck ring.val ack s) else .next s

/-! ### Fault rings (R333) -/

/-- A write of PT_FAULT_CTL. -/
def faultCtl (p : Nat) (enable : Bool) (s : State) : State :=
  let g := s.fring p
  if enable && !g.enable then sidingDrain p 64 (s.setFring p { g with enable := true, prod := 0, ack := 0 })
  else s.setFring p { g with enable }

def execPtFaultCtl (part : Fin 8) (enable : Bool) (s : State) : Host.Outcome State Fault Refusal :=
  if hostOpen s then .next (faultCtl part.val enable s) else .next s

/-- A write of PT_FAULT_ACK: siding records are then written first. -/
def faultAck (p : Nat) (v : BitVec 32) (s : State) : State :=
  let g := s.fring p
  if (g.prod - v).toNat > 4096 then s else sidingDrain p 64 (s.setFring p { g with ack := v })

def execPtFaultAck (part : Fin 8) (ack : BitVec 32) (s : State) : Host.Outcome State Fault Refusal :=
  if hostOpen s then .next (faultAck part.val ack s) else .next s

/-! ### CONTEXT_ABANDON (R337 to R339) -/

/-- Step 2 for one dispatched descriptor: transfers stop part-written, pending waits end, a launch that is still being loaded
writes its report (R316), a SIGNAL and a BARRIER take their turn. A MIGRATE whose move runs, and a launch whose writes are
still to come, go on. -/
def abandonOne (q : Nat) (d : Flight) (s : State) : State :=
  let key := q * 2 ^ 32 + d.index.toNat
  match s.queue q with
  | none => s
  | some k => match d.done with
    | some st => completeFlight q d st s
    | none =>
      if d.ending.isSome || (kget key s.launches).isSome || (s.moves.any fun m => m.from_ == some (q, d.index)) then s
      else match dType d.word with
      | 1 => launchFails q k d stContextLost s
      | 4 => signalRun q k d s
      | 6 => if noEarlier k d.index then completeFlight q d stOk s else s
      | _ =>
        -- the references of a wait that is still pending are released with it
        let s := foldS (flightFences d) (fun f s => match s.fence f with
          | some x => fenceUnref f 1 (s.setFence f { x with waiters := x.waiters - 1 })
          | none => s) s
        completeFlight q d stContextLost (dropWho (whoDesc q d.index.toNat) s)

/-- Step 2 for the dispatched descriptors of a queue, oldest first. -/
def abandonFlight (q : Nat) (s : State) : State :=
  let turn (s : State) : State := match s.queue q with
    | none => s
    | some k => foldS k.flight (abandonOne q) s
  turn (turn s)

/-- Step 2 for the descriptors not dispatched, fetched and then not fetched: ST_CONTEXT_LOST. -/
def abandonRest (q : Nat) : Nat → State → State
  | 0, s => s
  | n + 1, s =>
    let s := foldS (List.range 16) (fun _ s => completeHead q stContextLost s) s
    match s.queue q with
    | none => s
    | some k =>
      if k.head = k.tail then s
      else
        let t := fetchRun q 17 s
        if ((t.queue q).map fun k => k.fetched.isEmpty).getD true then t else abandonRest q n t

/-- Every descriptor of the queue has completed, and no change holds it. -/
def queueDrained (q : Nat) (s : State) : Bool :=
  match s.queue q with
  | none => true
  | some k => k.flight.isEmpty && k.fetched.isEmpty && k.head == k.tail && !isHeld (objQueue q) s

def ctxQueues (c : Nat) (s : State) : List Nat := (s.queues.filter fun e => e.2.ctx == c).map fun e => e.1
def ctxFences (c : Nat) (s : State) : List Nat := (s.fences.filter fun e => e.2.owner == c).map fun e => e.1

def setAbandon (c n : Nat) (s : State) : State := match s.ctx c with
  | some k => s.setCtx c { k with abandon := n }
  | none => s

/-- A report write of the hub for the context is still to be made; those that a frozen port holds count as made (R338). -/
def reportsOpen (c : Nat) (s : State) : Bool :=
  s.posted.any fun e => e.2.ctx == c && e.2.cluster.isNone && !(e.2.target == 1 && !hostOpen s)

/-- Step 1: an ACTIVE context becomes LOST; BIND_OFF; its cores stop. A reference keeps the context until step 5. -/
def abandonStart (c : Nat) (p : Pkt) (s : State) : State :=
  let s := match s.ctx c with
    | none => s
    | some k => if k.state ≠ 0 then stopContext c s
      else ctxFault c { cause := fcAbandoned, engine := 7, first := true, ctx := c, part := k.part, domain := 1,
                        count := s.count 1 } s
  settleLaunches (match s.ctx c with
    | some k => s.setCtx c { k with state := 2, refc := k.refc + 1, abandon := 2, abandonFor := some p }
    | none => s)

/-- Step 2: the queues are emptied and become DISABLED. -/
def abandonFlush (c : Nat) (s : State) : State :=
  let qs := ctxQueues c s
  let s := foldS qs (fun q s => abandonRest q 8192 (abandonFlight q s)) s
  if !(qs.all fun q => queueDrained q s) || reportsOpen c s then s
  else setAbandon c 3 (foldS qs (fun q s => match s.queue q with
    | some k => s.setQueue q { k with state := if k.state = 3 then 3 else 0 }
    | none => s) s)

/-- Step 3, and the start of step 4: the fences are force-signalled, and the shootdowns of every segment go out. -/
def abandonFences (c : Nat) (p : Pkt) (s : State) : State :=
  let s := foldS (ctxFences c s) forceSignal s
  if reportsOpen c s || s.halted then s
  else
    let segs := ((s.ctx c).map fun k => k.segs.map fun e => e.1).getD []
    setAbandon c 4 (foldS segs (fun i s => match (s.ctx c).bind fun k => kget i k.segs with
      | none => s
      | some g => if g.target = 0 then (if g.frames.isEmpty then s else prepUnmap c i 0 (2 ^ 32) p s)
        else if g.refc > 0 then s else prepSegClear c i p s) s)

/-- The end of step 4 for one segment: no frame entry is left, and the segment goes when its count is 0. -/
def abandonSeg (c i : Nat) (s : State) : State :=
  let (pages, g1, s) := withdraw c i 0 (2 ^ 32) s
  let s := mapCount (pages.map (·.2)) g1 false s
  match s.ctx c with
  | none => s
  | some k => match kget i k.segs with
    | none => s
    | some g =>
      if g.refc > 0 then s
      else
        let s := s.setCtx c { k with segs := kdel i k.segs }
        if g.target = 0 then freeAlloc g.list s else s

/-- The granules that a context's segments map. -/
def ctxGrans (k : Ctx) : List Nat :=
  (k.segs.map fun e => (e.2.frames.map fun f => frameGrans f.2 e.2.frame1g).flatten).flatten

/-- The end of step 4, and step 5: the creation references are released; everything altered counts as changed (R357). -/
def abandonEnd (c : Nat) (p : Pkt) (s : State) : State :=
  let s := unprep p s
  match s.ctx c with
  | none => s
  | some k =>
    let qs := ctxQueues c s
    let fs := ctxFences c s
    let segs := k.segs.map fun e => e.1
    let objs := [objCtx c] ++ qs.map objQueue ++ fs.map objFence ++ segs.map (objSeg c) ++ (ctxGrans k).map objGran
    let s := setAbandon c 9 (foldS segs (abandonSeg c) s)
    let s := foldS qs (fun q s => match s.queue q with
      | some k => if k.created then queueUnref q 1 (s.setQueue q { k with state := 3, created := false })
        else s
      | none => s) s
    let s := foldS fs (fun f s => match s.fence f with
      | some x => if x.created then fenceUnref f 1 (s.setFence f { x with bindOff := true, created := false }) else s
      | none => s) s
    let s := match s.ctx c with
      | some k => ctxUnref c (1 + b2n k.created) (s.setCtx c { k with created := false, abandonFor := none })
      | none => s
    reply p 0x103 {} (stampAll s.cfgGen objs s)

/-- Goes on with a CONTEXT_ABANDON. -/
def abandonRun (c : Nat) (s : State) : State :=
  let step (n : Nat) (f : Pkt → State → State) (s : State) : State := match s.ctx c with
    | none => s
    | some k => if k.abandon ≠ n then s else match k.abandonFor with
      | some p => f p s
      | none => s
  let s := step 2 (fun _ => abandonFlush c) s
  let s := step 3 (abandonFences c) s
  step 4 (fun p s => if packetOpen p s || s.halted then s else abandonEnd c p s) s

/-- Goes on with every CONTEXT_ABANDON. -/
def settleAbandons (s : State) : State :=
  foldS ((s.ctxs.filter fun e => e.2.abandonFor.isSome).map fun e => e.1) abandonRun s

/-- CONTEXT_ABANDON (R337, R338, R389): a second one is refused at once while the first runs. -/
def execContextAbandon (p : Pkt) (ctx : BitVec 20) (s : State) : Host.Outcome State Fault Refusal :=
  let c := ctx.toNat
  let info : OpInfo := { code := 0x103, col := .p, atL4 := true }
  let running := (s.ctx c).bind (·.abandonFor)
  .next (
    if (running.map (samePkt p)).getD false then abandonRun c s
    else if running.isNone && packetWaits p [objCtx c] s then s
    else match headerCheck p info (p.paramLen = 8) s with
    | some r => reply p 0x103 r s
    | none => match ctxOf p c 32 s with
      | .error r => reply p 0x103 r s
      | .ok k =>
        if k.abandon = 9 then reply p 0x103 {} s
        else if k.abandon ≠ 0 || instBusy k s then reply p 0x103 (bad stBusy) s
        else abandonRun c (abandonStart c p s))

end Sys2Proof.Machine
end

