-- ==== Sys2Proof/Machine/Partitions.lean ====
section
/-!
DEFINITION. Partition layout and reset, and virtual instances (R366 to R371, R384 to R393).
-/
namespace Sys2Proof.Machine

/-! ### PARTITION_RESET (R384) -/

def infoPartitionReset : OpInfo := { code := 0x400, col := .p }

/-- PARTITION_RESET replies at its end. -/
def execPartitionReset (p : Pkt) (s : State) : Host.Outcome State Fault Refusal :=
  if packetWaits p [objPart (pnum p)] s ||
      (((s.part (pnum p)).resetting.bind id).map (samePkt p)).getD false then .next s else
  match headerCheck p infoPartitionReset (p.paramLen = 0) s with
  | some r => .next (reply p 0x400 r s)
  | none => .next (partResetStart (pnum p) (some p) s)

/-! ### PARTITION_LAYOUT (R368) -/

/-- Two layouts share a cluster. -/
def layoutClash (s : State) : Bool :=
  (List.range 200).any fun g => decide ((s.parts.filter fun e => e.2.laidOut && bit e.2.clusters g).length > 1)

/-- A cluster runs a launch, or holds a dispatched launch of p that has not started. -/
def clusterWorks (p g : Nat) (s : State) : Bool :=
  ((List.range 20).any fun i => (s.core (20 * g + i)).run) ||
    (loadingCores p (2 ^ 48) s).any fun c => coreCluster c == g

/-- PARTITION_LAYOUT, but for the check over the whole commit. -/
def actLayout (p : Pkt) (clusters qa qb qc : Nat) (s : State) : OpRes × State :=
  let n := pnum p
  let x := s.part n
  let removed := (partClusters n s).filter fun g => !bit clusters g
  if removed.any fun g => clusterWorks n g s then (bad stBusy, s)
  else if qa < ownedIn n 0 s || qb < ownedIn n 1 s || qc < ownedIn n 2 s then (bad stBusy, s)
  else if x.resetting.isSome then (bad stBusy, s)
  else ({}, s.setPart n { x with laidOut := true, clusters, quota := [(0, qa), (1, qb), (2, qc)] })

def layoutForm (qa qb qc : Nat) : Option OpRes :=
  if qa ≥ 2 ^ 21 then some (bad stBadParam 64) else if qb ≥ 2 ^ 21 then some (bad stBadParam 68)
  else if qc ≥ 2 ^ 21 then some (bad stBadParam 72) else none

/-- A direct PARTITION_LAYOUT is a commit of one operation. -/
def actLayoutDirect (p : Pkt) (clusters qa qb qc : Nat) (s : State) : OpRes × State :=
  let (r, t) := actLayout p clusters qa qb qc s
  if r.status = stOk && layoutClash t then (bad stTxnConflict, s) else (r, t)

def execPartitionLayout (p : Pkt) (clusters : BitVec 200) (quotaA quotaB quotaC : BitVec 32) (s : State) :
    Host.Outcome State Fault Refusal :=
  .next (stagePacket p { code := 0x401, col := .p, stageable := true } (p.paramLen = 64)
    (fun _ => layoutForm quotaA.toNat quotaB.toNat quotaC.toNat) (.partitionLayout p clusters quotaA quotaB quotaC) 64
    noReserve (fun _ => [objPart (pnum p)])
    (fun _ => actLayoutDirect p clusters.toNat quotaA.toNat quotaB.toNat quotaC.toNat) s)

/-! ### INSTANCE_CREATE, INSTANCE_DESTROY (R386, R389) -/

/-- Takes contexts into an instance, one after another. -/
def takeCtxs (p : Pkt) (i : Nat) : List Nat → Nat → State → OpRes × State
  | [], _, s => ({}, s)
  | c :: t, off, s =>
    match ctxOf p c off s with
    | .error r => (r, s)
    | .ok k =>
      if k.inst.isSome || ctxLost k || k.state = 2 || s.queues.any fun e => e.2.ctx == c && e.2.ownerClass != 1 then
        (bad stNotPermitted off, s)
      else takeCtxs p i t (off + 4) (s.setCtx c { k with inst := some i })

def freeInst (s : State) : Option Nat := lowestId 4 1024 (fun i => (kget i s.insts).isSome) s

def actInstCreate (p : Pkt) (tag : Nat) (ctxs : List Nat) (id : Option Nat) (s : State) : OpRes × State :=
  match (match id with
    | some i => some (i % 2 ^ 32)
    | none => freeInst s) with
  | none => (bad stNoResource, s)
  | some i =>
    let (r, t) := takeCtxs p i ctxs 48 s
    if r.status ≠ stOk then (r, s)
    else ({ len := 2, data := i },
      { t with insts := kset i { part := Fin.ofNat 8 (pnum p), ctxs, tag } t.insts })

def execInstanceCreate (p : Pkt) (tag : BitVec 64) (ctxs : List (BitVec 20)) (s : State) :
    Host.Outcome State Fault Refusal :=
  let cs := ctxs.map (·.toNat)
  let n := ctxs.length
  .next (stagePacket p { code := 0x410, col := .p, stageable := true } (p.paramLen.toNat = 16 + 4 * n)
    (fun _ => if n = 0 || n > 64 then some (bad stBadParam 32) else none) (.instanceCreate p tag ctxs) (16 + 4 * n)
    (fun s => (freeInst s).map fun i => some (4 * 2 ^ 32 + i)) (fun _ => cs.map objCtx)
    (actInstCreate p tag.toNat cs) s)

/-- The instance a packet names. -/
def instOf (p : Pkt) (i : Nat) (s : State) : Except OpRes Inst :=
  match kget i s.insts with
  | none => .error (bad stBadParam 32)
  | some x => if x.part.val ≠ pnum p then .error (bad stNotPermitted 32) else .ok x

def actInstDestroy (p : Pkt) (i : Nat) (s : State) : OpRes × State :=
  match instOf p i s with
  | .error r => (r, s)
  | .ok x =>
    if x.state = 0 || x.state = 1 then (bad stBusy, s)
    else
      ({}, foldS x.ctxs (fun c s => match s.ctx c with
        | some k => if k.inst = some i then s.setCtx c { k with inst := none } else s
        | none => s) { s with insts := kdel i s.insts })

def execInstanceDestroy (p : Pkt) (inst : BitVec 16) (s : State) : Host.Outcome State Fault Refusal :=
  .next (stagePacket p { code := 0x411, col := .p, stageable := true, atL4 := true, inReset := true } (p.paramLen = 8)
    (fun _ => none) (.instanceDestroy p inst) 8 noReserve (fun _ => [objInst inst.toNat])
    (fun _ => actInstDestroy p inst.toNat) s)

/-! ### INSTANCE_FREEZE (R388) -/

def infoFreeze : OpInfo := { code := 0x412, col := .p, atL4 := true, atL5 := true }

/-- Freeze: FREEZING, and the reply waits; with a TIMEOUT_MS of 0 it returns at once. -/
def execInstanceFreeze (p : Pkt) (inst : BitVec 16) (timeout : BitVec 32) (s : State) :
    Host.Outcome State Fault Refusal :=
  let i := inst.toNat
  if packetWaits p [objInst i] s || (((kget i s.insts).map fun x => x.freezing.any (samePkt p)).getD false) then .next s else
  match headerCheck p infoFreeze (p.paramLen = 8) s with
  | some r => .next (reply p 0x412 r s)
  | none => match instOf p i s with
    | .error r => .next (reply p 0x412 r s)
    | .ok x =>
      if x.state ≥ 2 then .next (reply p 0x412 {} s)
      else
        let s := if x.state = 0 then s.touch (objInst i) else s
        if timeout = 0 then
          .next (reply p 0x412 (bad stTimeout) { s with insts := kset i { x with state := 1 } s.insts })
        else .next { s with insts := kset i { x with state := 1, freezing := x.freezing ++ [p] } s.insts }

/-- Thaw: ACTIVE, and dispatch resumes from HEAD. -/
def execInstanceThaw (p : Pkt) (inst : BitVec 16) (timeout : BitVec 32) (s : State) :
    Host.Outcome State Fault Refusal :=
  let _ := timeout
  let i := inst.toNat
  .next (directPacket p infoFreeze (p.paramLen = 8) (fun s =>
    match instOf p i s with
    | .error r => (r, s)
    | .ok x =>
      if x.state < 2 then (bad stBusy, s)
      else ({}, { s with insts := kset i { x with state := 0 } s.insts }.touch (objInst i))) s [objInst i])

/-- Queues of an instance. -/
def instQueues (x : Inst) (s : State) : List Nat := (s.queues.filter fun e => x.ctxs.contains e.2.ctx).map (·.1)

/-- Entries fetched and not dispatched are given back: HEAD is the next to dispatch. -/
def unfetch (q : Nat) (s : State) : State :=
  match s.queue q with
  | none => s
  | some k => match k.fetched with
    | [] => s
    | d :: _ => if ((s.ctx k.ctx).map ctxLost).getD true then s
        else s.setQueue q { k with head := d.index, fetched := [] }

/-- INSTANCE_FROZEN: nothing of a FREEZING instance is in flight; every freeze that waits replies. -/
def execInstanceFrozen (inst : BitVec 10) (s : State) : Host.Outcome State Fault Refusal :=
  let i := inst.toNat
  match kget i s.insts with
  | none => .next s
  | some x =>
    if x.state ≠ 1 || (instQueues x s).any fun q => ((s.queue q).map fun k => !k.flight.isEmpty).getD false then .next s
    else
      let s := foldS (instQueues x s) unfetch s
      .next (foldS x.freezing (fun p s => reply p 0x412 {} s)
        ({ s with insts := kset i { x with state := 2, freezing := [] } s.insts }.touch (objInst i)))

/-- INSTANCE_FREEZE_TIMEOUT: TIMEOUT_MS of one waiting freeze has passed; the instance stays FREEZING. -/
def execInstanceFreezeTimeout (inst : BitVec 10) (waiter : BitVec 8) (s : State) : Host.Outcome State Fault Refusal :=
  let i := inst.toNat
  match kget i s.insts with
  | none => .next s
  | some x => match x.freezing[waiter.toNat]? with
    | none => .next s
    | some p => .next (reply p 0x412 (bad stTimeout)
        { s with insts := kset i { x with freezing := dropAt waiter.toNat x.freezing } s.insts })

/-! ### Stored descriptors (R257, R258, R261, R304, R322), with REFCOUNT 0 -/

def ctxDescWord (k : Ctx) : Nat :=
  put 0 2 k.state + put 8 3 k.part.val + put 16 16 k.cause + put 64 32 k.lostFaults + put 96 20 k.pasid +
  put 116 1 (b2n k.pasidEn) + put 117 1 (b2n k.priv) + put 128 48 k.segTable +
  put 192 64 (k.segs.foldl (fun (n : Nat) (e : Nat × Segment) => n + 2 ^ e.1) 0)

def segDescWord (g : Segment) : Nat :=
  1 + put 1 1 (b2n g.r) + put 2 1 (b2n g.w) + put 3 1 (b2n g.x) + put 4 1 (b2n g.stream) + put 5 1 (b2n g.fine) +
  put 6 1 (b2n g.auto) + put 7 1 (b2n g.frame1g) + put 8 2 g.target + put 10 2 g.floor + put 16 16 g.gen.toNat +
  put 64 64 g.base + put 128 32 g.len + put 160 8 g.tgt + put 192 64 g.list

def frameEntryWord (f : Nat) : Nat := 1 + put 21 27 (f / 0x200000)

def queueDescWord (k : Queue) : Nat :=
  put 0 2 k.state + put 2 2 k.ownerClass + put 4 2 k.site + put 6 1 (b2n k.privileged) + put 8 8 k.log2 +
  put 16 2 k.cls + put 32 20 k.ctx + put 64 64 k.ring + put 128 64 k.headAddr + put 192 32 k.head.toNat +
  put 224 32 k.done.toNat + put 256 32 k.tail.toNat + put 320 32 k.errIndex.toNat + put 352 16 k.errStatus +
  put 368 16 k.staleDb + put 384 64 k.completed

def fenceDescWord (x : Fence) : Nat :=
  1 + put 1 1 (b2n x.signalled) + put 2 1 (b2n x.abandoned) + put 3 1 (b2n x.bindOff) + put 8 20 x.owner +
  put 28 3 x.part.val + put 32 32 x.epoch.toNat + put 96 32 x.dropped + put 128 32 x.waiters + put 160 64 x.mirror

/-! ### INSTANCE_SAVE (R390, R391) -/

/-- Bytes of the stored descriptor of a kind. -/
def descBytes (kind : Nat) : Nat := if kind = 2 || kind = 5 then 32 else if kind = 3 then 8 else 64

/-- Records of an instance (DESIGN CHOICE, log 41): its contexts, each with its segments and their frame entries, then
its queues, then its fences. A segment's id is 64 × context + segment, a frame entry's its page. -/
def blobRecs (x : Inst) (s : State) : List (Nat × Nat × Nat) :=
  (x.ctxs.flatMap fun c => match s.ctx c with
    | none => []
    | some k => (1, c, ctxDescWord k) :: k.segs.flatMap fun e =>
        (2, 64 * c + e.1, segDescWord e.2) :: e.2.frames.map fun f => (3, f.1, frameEntryWord f.2)) ++
  (s.queues.filter fun e => x.ctxs.contains e.2.ctx).map (fun e => (4, e.1, queueDescWord e.2)) ++
  (s.fences.filter fun e => x.ctxs.contains e.2.owner).map (fun e => (5, e.1, fenceDescWord e.2))

/-- The body: records one after another, and its length. -/
def blobBody (l : List (Nat × Nat × Nat)) : Nat × Nat :=
  l.foldl (fun (a : Nat × Nat) (r : Nat × Nat × Nat) =>
    let n := descBytes r.1
    (a.1 + (put 0 8 r.1 + put 8 24 n + put 32 32 r.2.1 + put 64 512 r.2.2) <<< (8 * a.2), a.2 + 8 + n)) (0, 0)

/-- The plaintext header (R391). -/
def blobHeader (l : List (Nat × Nat × Nat)) (bodyLen nonce : Nat) (s : State) : Nat :=
  let n (k : Nat) : Nat := (l.filter fun r => r.1 = k).length
  put 0 32 0x49534C42 + put 32 16 1 + put 48 8 s.fuse.profile + put 56 8 s.fuse.variant + put 64 32 (80 + bodyLen) +
  put 96 16 (n 1) + put 112 16 (n 4) + put 128 32 (n 5) +
  put 160 32 (((l.filter fun r => r.1 = 3).map fun r => r.2.2).eraseDups.length) + put 192 96 nonce

def actInstSave (p : Pkt) (i buf bufBytes : Nat) (s : State) : OpRes × State :=
  match instOf p i s with
  | .error r => (r, s)
  | .ok x =>
    let l := blobRecs x s
    let (body, len) := blobBody l
    let total := 80 + len
    if buf % 64 ≠ 0 then (bad stBadParam 40, s)
    else if x.state < 2 then (bad stBusy, s)
    else if bufBytes < total then ({ status := stNoResource, len := 4, data := total }, s)
    else if s.port.frozen then (bad stFrozen, s)
    else if !s.sec.migKey then (bad stNotPermitted, s)
    else
      let h := blobHeader l len (entropy s.free 12) s
      let v := h + (Config.gcmSeal h body len % 2 ^ (8 * (len + 16))) <<< 512
      ({ len := 4, data := total }, emit (.hostWrite buf total v) { s with free := s.free + 12 })

def execInstanceSave (p : Pkt) (inst : BitVec 16) (buf : BitVec 64) (bufBytes : BitVec 32) (s : State) :
    Host.Outcome State Fault Refusal :=
  .next (directPacket p { code := 0x413, col := .p } (p.paramLen = 24) (actInstSave p inst.toNat buf.toNat bufBytes.toNat) s
    [objInst inst.toNat])

/-! ### INSTANCE_RESTORE (R392) -/

/-- What a restore has built so far: new context, segment and fence and queue ids by saved ids, the contexts in order, and
the segment whose frame entries follow. -/
structure Building where
  ctxMap : KV Nat := []
  ctxs : List Nat := []
  seg : Option (Nat × Nat) := none
  remap : List (Nat × Nat) := []
  deriving DecidableEq, Repr, Inhabited

/-- A context of the blob. -/
def restoreCtx (p : Pkt) (i : Nat) (r : BlobRec) (b : Building) (s : State) : Except OpRes (Building × State) :=
  let w := r.data.toNat
  let (a, s) := actCtxCreate p (BitVec.ofNat 20 (bits w 115 96)) (bit w 116) (bit w 117) none s
  if a.status ≠ stOk then .error a
  else match s.ctx a.data with
    | none => .error (bad stInternal)
    | some k =>
      let st := bits w 1 0
      .ok ({ b with ctxMap := kset r.id.toNat a.data b.ctxMap, ctxs := b.ctxs ++ [a.data],
                    remap := b.remap ++ [(r.id.toNat, a.data)] },
        s.setCtx a.data { k with state := st, cause := bits w 31 16, lostFaults := bits w 95 64, inst := some i,
                                 created := st != 2, refc := if st = 2 then 0 else 1 })

/-- A segment of the blob: a new frame list for TARGET 0. -/
def restoreSeg (p : Pkt) (r : BlobRec) (b : Building) (s : State) : Except OpRes (Building × State) :=
  match kget (r.id.toNat / 64) b.ctxMap with
  | none => .error (bad stBadParam)
  | some c => match s.ctx c with
    | none => .error (bad stBadParam)
    | some k =>
      let i := r.id.toNat % 64
      let g := { segOfWord r.data.toNat with gen := BitVec.ofNat 16 (bits r.data.toNat 31 16) }
      let b := { b with seg := some (c, i), remap := b.remap ++ [(r.id.toNat, 64 * c + i)] }
      if g.target ≠ 0 then .ok (b, s.setCtx c { k with segs := kset i g k.segs })
      else match alloc (pnum p) (alignUp (8 * segPages g) 64) 64 s with
        | none => .error (bad stNoResource)
        | some (a, s) => .ok (b, s.setCtx c { k with segs := kset i { g with list := a } k.segs })

/-- A frame entry of the blob: the frame that FRAME_MAP gives, owned by the partition, scrubbed and not in motion. -/
def restoreFrame (p : Pkt) (map : List (Nat × Nat)) (r : BlobRec) (b : Building) (s : State) :
    Except OpRes (Building × State) :=
  let old := bits r.data.toNat 47 21 * 0x200000
  match b.seg, map.find? fun e => e.1 = old with
  | some (c, i), some (_, new) => match s.ctx c with
    | none => .error (bad stBadParam)
    | some k => match kget i k.segs with
      | none => .error (bad stBadParam)
      | some g =>
        let ok := new % (if g.frame1g then 0x40000000 else 0x200000) = 0 && (frameGrans new g.frame1g).all fun n =>
          let x := s.gran n
          s.populated (n * 0x200000) && x.owned && x.owner.val == pnum p && !x.struct && !x.hub && !x.needsScrub &&
            !x.inMotion && decide (x.mapcount < 65535)
        if !ok then .error (bad stBadParam)
        else .ok (b, mapCount [new] g.frame1g true
          (s.setCtx c { k with segs := kset i { g with frames := kset r.id.toNat new g.frames } k.segs }))
  | _, _ => .error (bad stBadParam)

/-- A queue of the blob: its indices stay (R392). -/
def restoreQueue (p : Pkt) (r : BlobRec) (b : Building) (s : State) : Except OpRes (Building × State) :=
  let w := r.data.toNat
  match kget (bits w 51 32) b.ctxMap, lowestId 2 16384 (fun i => (s.queue i).isSome) s with
  | some c, some q => match s.ctx c, alloc (pnum p) 64 64 s with
    | some k, some (d, s) =>
      let st := bits w 1 0
      let x : Queue :=
        { part := Fin.ofNat 8 (pnum p), state := st, ownerClass := bits w 3 2, site := bits w 5 4, privileged := bit w 6,
          log2 := bits w 15 8, cls := bits w 17 16, ctx := c, ring := bits w 127 64, headAddr := bits w 191 128,
          head := BitVec.ofNat 32 (bits w 223 192), done := BitVec.ofNat 32 (bits w 255 224),
          tail := BitVec.ofNat 32 (bits w 287 256), errIndex := BitVec.ofNat 32 (bits w 351 320),
          errStatus := bits w 367 352, staleDb := bits w 383 368, completed := bits w 447 384, desc := d,
          created := st != 3, refc := if st = 3 then 0 else 1 }
      let s := ctxRef c 1 (s.setQueue q x)
      let s := match inSegment k x.ring (64 * 2 ^ x.log2) (·.r) with
        | some i => segRef c i s
        | none => s
      let s := if x.headAddr = 0 then s else match inSegment k x.headAddr 8 (·.w) with
        | some i => segRef c i s
        | none => s
      .ok ({ b with remap := b.remap ++ [(r.id.toNat, q)] }, s.touch (objQueue q))
    | _, _ => .error (bad stNoResource)
  | none, _ => .error (bad stBadParam)
  | _, none => .error (bad stNoResource)

/-- A fence of the blob: its epoch and its flags stay (R392). -/
def restoreFence (p : Pkt) (r : BlobRec) (b : Building) (s : State) : Except OpRes (Building × State) :=
  let w := r.data.toNat
  match kget (bits w 27 8) b.ctxMap with
  | none => .error (bad stBadParam)
  | some c => match newFence (pnum p) s with
    | none => .error (bad stNoResource)
    | some f =>
      let blk := f / 2048
      match takeBlock (pnum p) blk s with
      | none => .error (bad stNoResource)
      | some s =>
        let off := bit w 3
        let x : Fence :=
          { part := Fin.ofNat 8 (pnum p), signalled := bit w 1, abandoned := bit w 2, bindOff := off, owner := c,
            epoch := BitVec.ofNat 32 (bits w 63 32), refc := if off then 0 else 1, created := !off,
            dropped := bits w 127 96, mirror := bits w 223 160 }
        let s := ctxRef c 1 (s.setFence f x)
        let s := if x.mirror = 0 then s else match (s.ctx c).bind fun k => inSegment k x.mirror 8 (·.w) with
          | some i => segRef c i s
          | none => s
        .ok ({ b with remap := b.remap ++ [(r.id.toNat, f)] }, s.touch (objFence f))

/-- A reserved field of a record, or a reserved value, is not zero (R13, R257, R258, R261, R304, R322). -/
def recBad (r : BlobRec) : Bool :=
  let w := r.data.toNat
  let zero (l : List (Nat × Nat)) : Bool := l.all fun e => bits w e.1 e.2 = 0
  match r.kind.toNat with
  | 1 => !zero [(7, 2), (15, 11), (127, 118), (191, 176), (511, 256)] || bits w 1 0 = 3
  | 2 => !zero [(15, 12), (191, 168)] || bits w 11 10 = 3
  | 3 => !zero [(20, 1), (63, 48)]
  | 4 => !zero [(7, 7), (23, 18), (31, 24), (63, 52), (511, 448)] || bits w 3 2 = 3
  | 5 => !zero [(7, 4), (31, 31), (255, 224)]
  | _ => true

/-- Builds the records one after another. -/
def restoreRecs (p : Pkt) (i : Nat) (map : List (Nat × Nat)) : List BlobRec → Building → State →
    Except OpRes (Building × State)
  | [], b, s => .ok (b, s)
  | r :: t, b, s =>
    if recBad r then .error (bad stBadParam)
    else match (match r.kind.toNat with
      | 1 => restoreCtx p i r b s
      | 2 => restoreSeg p r b s
      | 3 => restoreFrame p map r b s
      | 4 => restoreQueue p r b s
      | 5 => restoreFence p r b s
      | _ => .error (bad stBadParam)) with
    | .error e => .error e
    | .ok (b, s) => restoreRecs p i map t b s

/-- INSTANCE_RESTORE: all of it or nothing. -/
def actInstRestore (p : Pkt) (count remap : Nat) (host : BlobIn) (s : State) : OpRes × State :=
  if s.port.frozen then (bad stFrozen, s)
  else if !host.tagOk || !s.sec.migKey then (bad stAuthFailed, s)
  else if host.rsv ≠ 0 then (bad stBadParam, s)
  else if host.profile.toNat ≠ s.fuse.profile then (bad stNotPermitted, s)
  else match freeInst s with
  | none => (bad stNoResource, s)
  | some i =>
    let map := (host.frames.take count).map fun e => (e.1.toNat, e.2.toNat)
    match restoreRecs p i map host.recs {} s with
    | .error r => (r, s)
    | .ok (b, t) =>
      let t := { t with insts := kset i { part := Fin.ofNat 8 (pnum p), state := 3, ctxs := b.ctxs } t.insts }
      ({ len := 2, data := i },
       foldS ((List.range b.remap.length).zip b.remap) (fun e s =>
         emit (.hostWrite (remap + 8 * e.1) 8 (put 0 32 e.2.1 + put 32 32 e.2.2)) s) (t.touch (objInst i)))

def execInstanceRestore (p : Pkt) (blob : BitVec 64) (blobBytes : BitVec 32) (frameMap : BitVec 64)
    (count : BitVec 32) (remap : BitVec 64) (host : BlobIn) (s : State) : Host.Outcome State Fault Refusal :=
  let _ := (blob, blobBytes, frameMap)
  .next (directPacket p { code := 0x414, col := .p } (p.paramLen = 40) (actInstRestore p count.toNat remap.toNat host) s)

end Sys2Proof.Machine
end

