-- ==== Sys2Proof/Machine/Repair.lean ====
section
/-!
DEFINITION. Spares, repair records and repair in service (R118, R155, R485 to R493).
-/
namespace Sys2Proof.Machine

/-! ### Slots and strikes (R155, R485) -/

def slotRetired (s : State) (g sl : Nat) : Bool := s.rep.records.any fun r => r.kind == 1 && r.unit == g && r.slot == sl

def slotMapped (s : State) (g sl : Nat) : Bool := (List.range 20).any fun i => slotOf s (20 * g + i) == sl

/-- Usable unmapped slots of a cluster, lowest first. -/
def spareSlots (s : State) (g : Nat) : List Nat :=
  (List.range 22).filter fun sl => !slotRetired s g sl && !slotMapped s g sl

/-- HUB_SWATCH_WINDOW.SECONDS. -/
def swatchWindow (s : State) : Nat := s.reg 0x1100 0x93A80

/-- Strikes of a slot within the window: their operating times. -/
def strikesOf (s : State) (g sl : Nat) : List Nat :=
  (s.rep.records.filter fun r => r.kind == 8 && r.unit == g && r.slot == sl &&
    decide (s.opSeconds < r.seconds + swatchWindow s)).map (·.seconds)

/-- Operating time of a slot's last strike, in the window or not (LAST_STRIKE). -/
def lastStrike (s : State) (g sl : Nat) : Nat :=
  ((s.rep.records.filter fun r => r.kind == 8 && r.unit == g && r.slot == sl).map (·.seconds)).foldl max 0

/-- Launches on the core run with RATE 64 (R155). -/
def suspect (s : State) (c : Nat) : Bool :=
  !(strikesOf s (coreCluster c) (slotOf s c)).isEmpty || (kget c s.rep.worn).isSome

/-- Fused array segments of a slot, as CL_MTX_FUSE shows them. -/
def slotSegments (s : State) (g sl : Nat) : Nat :=
  (s.rep.records.filter fun r => r.kind == 2 && r.unit == g && r.slot == sl).foldl (fun m r => m ||| 2 ^ r.index) 0

/-- FUSED, BCAST and TREE of a core are set from the repair records (R118, R121). -/
def setSegments (c : Nat) (s : State) : State :=
  let m := slotSegments s (coreCluster c) (slotOf s c)
  { s with fuseSeg := if m = 0 then kdel c s.fuseSeg else kset c m s.fuseSeg }

/-! ### Events and records (R490, R491, R493) -/

/-- A SERVICE event: code, record kind, unit, logical core within the cluster or 0xFF. -/
def serviceEvent (code kind unit logical : Nat) (s : State) : State :=
  hubEvent 0x50 1 (put 0 8 code + put 8 8 kind + put 16 16 unit + put 32 8 logical + put 64 32 s.opSeconds) s

/-- Adds a record; a repair counts, and takes a field fuse entry while one is free. -/
def addRecord (r : Rec) (s : State) : State :=
  let x := s.rep
  let repair := r.kind < 8
  { s with rep := { x with
      records := x.records ++ [{ r with seconds := s.opSeconds, logical := if r.kind = 9 then r.logical else 0xFF }],
      fieldRepairs := if repair then x.fieldRepairs + 1 else x.fieldRepairs,
      fuseFree := if repair then x.fuseFree - 1 else x.fuseFree } }

/-! ### Repairs (R483, R485, R487, R489) -/

/-- Logical core c has no spare left: it stays mapped with RATE 64. -/
def noSpare (c : Nat) (s : State) : State :=
  serviceEvent 3 1 (coreCluster c) (c % 20) { s with rep := { s.rep with worn := kset c true s.rep.worn } }

/-- The spare that takes logical core c over starts with its own counts: no launch has run on it in chain mode, it has made
no swatch check, and no errors of its rows are counted (R121, R156). DESIGN CHOICE (log 82): FORCE_CHAIN, a committed
register field, keeps the logical core's value. -/
def freshSpare (c : Nat) (s : State) : State :=
  { s.setCore c { s.core c with chain := false, swDone := 0, swAband := 0, eccStall := 0, eccL1 := 0 } with
    rep := { s.rep with rowErrs := kfilter (fun k _ => k / 32768 != c) s.rep.rowErrs } }

/-- Retires the slot of logical core c: the lowest usable unmapped slot takes the core over. -/
def retireCore (c source : Nat) (s : State) : State :=
  let g := coreCluster c
  match spareSlots s g with
  | [] => noSpare c s
  | sl :: _ =>
    let s := addRecord { kind := 1, source, unit := g, slot := slotOf s c } s
    let s := addRecord { kind := 9, source, unit := g, slot := sl, logical := c % 20 } s
    let x := s.rep
    let s := setSegments c { s with rep := { x with slots := kset c sl x.slots, marginLow := kdel c x.marginLow,
                                                    margins := kdel c x.margins } }
    let s := freshSpare c s
    let s := serviceEvent 1 1 g (c % 20) s
    if (spareSlots s g).isEmpty then serviceEvent 2 1 g (c % 20) s else s

/-- A cluster cache gives up its lines that a test names: dirty ones are written back (R222). -/
def evictLines (g : Nat) (test : Nat → Bool) (s : State) : State :=
  let c := s.cluster g
  let s := c.lines.foldl (fun s e =>
    if test e.1 && !e.2.stream && (e.2.st = 3 || e.2.st = 4) then
      homeWrite e.1 (2 ^ 64 - 1) e.2.data e.2.poison (waysFor e.1 (s.gran (granOf (64 * e.1))).owner.val false s) false s
    else s) s
  let s := s.setCluster g { c with lines := kfilter (fun n _ => !test n) c.lines }
  { s with lines := kmap (fun n l => if test n then { l with dir := match l.dir with
      | none => none
      | some d => { d with owner := if d.owner = some g then none else d.owner, sharers := d.sharers.filter (· ≠ g) }.norm }
    else l) s.lines }

/-- Records of one kind and unit that meet a test. -/
def recordCount (s : State) (kind unit : Nat) (test : Rec → Bool) : Nat :=
  (s.rep.records.filter fun r => r.kind == kind && r.unit == unit && test r).length

/-- The logical core a due repair concerns. -/
def dueCore (s : State) (r : Rec) : Option Nat :=
  if r.kind = 1 then some (20 * r.unit + r.logical)
  else if r.kind = 2 || r.kind = 3 then
    ((List.range 20).map fun i => 20 * r.unit + i).find? fun c => slotOf s c == r.slot
  else none

/-- Makes one repair. -/
def makeRepair (r : Rec) (s : State) : State :=
  let done (s : State) : State := serviceEvent 1 r.kind r.unit (match dueCore s r with
    | some c => c % 20
    | none => 0xFF) (addRecord r s)
  match r.kind with
  | 1 => retireCore (20 * r.unit + r.logical) r.source s
  | 2 =>
    let s := done s
    match dueCore s r with
    | some c => setSegments c s
    | none => s
  | 3 =>
    if recordCount s 3 r.unit (fun q => q.slot == r.slot && q.index / 1024 == r.index / 1024) < 4 then done s
    else match dueCore s r with
      | some c => retireCore c r.source s
      | none => s
  | 4 =>
    if recordCount s 4 r.unit (fun _ => true) < 2 then
      done (evictLines r.unit (fun n => Config.setHash 2 n % 16 == BitVec.ofNat 64 r.index) s)
    else foldS ((List.range 20).map fun i => 20 * r.unit + i) (fun c s => retireCore c r.source s) s
  | 5 => if recordCount s 5 r.unit (fun _ => true) < 2 then done s else serviceEvent 3 5 r.unit 0xFF s
  | _ => done s

/-- The scope of a repair is at a quiesce point (R487). -/
def scopeIdle (s : State) (r : Rec) : Bool :=
  match r.kind with
  | 4 => (List.range 20).all fun i => !(s.core (20 * r.unit + i)).run
  | 5 => s.cores.all fun e => !e.2.run || coreQuad e.1 != r.unit
  | 6 | 7 => true
  | _ => match dueCore s r with
    | some c => !(s.core c).run
    | none => true

/-- A core is to be retired (R155, R486): due, or without a spare it stays in service. -/
def dueRetire (c source : Nat) (s : State) : State :=
  if (kget c s.rep.worn).isSome then s
  else if (spareSlots s (coreCluster c)).isEmpty then noSpare c s
  else addDue { kind := 1, source, unit := coreCluster c, slot := slotOf s c, logical := c % 20 } s

/-- Makes every due repair that a test names and whose scope is idle; the number made. -/
def makeIdle (test : Rec → Bool) (s : State) : Nat × State :=
  s.rep.due.foldl (fun (a : Nat × State) d =>
    if test d.what && scopeIdle a.2 d.what then
      let t := a.2
      (a.1 + 1, makeRepair d.what { t with rep := { t.rep with due := t.rep.due.filter fun e => e.what != d.what } })
    else a) (0, s)

/-! ### REPAIR, REPAIR_PENDING, MARGIN_SAMPLE (R486, R487) -/

/-- REPAIR (R487): a due repair whose scope is at its quiesce point is made. Errors of a cache way or a lane over their
threshold (SOURCE 4) make its repair due first; those of a stall row are counted where they are met (rowErrors).
DESIGN CHOICE (log 81): R486 lists no trigger for an array segment in service, so a repair of KIND 2 is never due and its
REPAIR does nothing; segments are fused by cast-on alone. Nothing starts at L4 or deeper (R489). -/
def execRepair (kind : BitVec 4) (source : BitVec 3) (unit : BitVec 16) (slot logical : BitVec 8) (index : BitVec 16)
    (s : State) : Host.Outcome State Fault Refusal :=
  let r : Rec := { kind := kind.toNat, source := source.toNat, unit := unit.toNat, slot := slot.toNat,
                   logical := logical.toNat, index := index.toNat }
  let s := if r.source = 4 && 4 ≤ r.kind && r.kind ≤ 7 then addDue r s else s
  if s.power.shed ≥ 4 then .next s else .next (makeIdle (fun q => q == r) s).2

/-- REPAIR_PENDING (R487): 1 hour of operating time has passed since the repair became due. -/
def execRepairPending (index : BitVec 8) (s : State) : Host.Outcome State Fault Refusal :=
  match s.rep.due[index.toNat]? with
  | none => .next s
  | some d =>
    if d.told || !(d.what.kind = 4 || d.what.kind = 5) then .next s
    else
      let s := { s with opSeconds := max s.opSeconds (d.since + 3600) }
      .next (serviceEvent 4 d.what.kind d.what.unit 0xFF { s with rep := { s.rep with
        due := s.rep.due.map fun e => if e.what = d.what then { e with told := true } else e } })

/-- MARGIN_SAMPLE (R486): below 5.0 % the core is retired, below 8.0 % MARGIN_LOW is raised once. -/
def execMarginSample (core : Fin 4000) (margin : BitVec 10) (s : State) : Host.Outcome State Fault Refusal :=
  let c := core.val
  let m := margin.toNat
  let s := { s with rep := { s.rep with margins := kset c m s.rep.margins } }
  if m < 50 then .next (dueRetire c 3 s)
  else if m < 80 && (kget c s.rep.marginLow).isNone then
    .next (serviceEvent 5 1 (coreCluster c) (c % 20)
      { s with rep := { s.rep with marginLow := kset c true s.rep.marginLow } })
  else .next s

/-! ### REPAIR_QUIESCE (R488) -/

def infoRepair : OpInfo := { code := 0x800, col := .f }

/-- The reply of REPAIR_QUIESCE. -/
def quiesceReply (p : Pkt) (status made : Nat) (s : State) : State :=
  reply p 0x800 { status, len := 4, data := put 0 16 made + put 16 16 s.rep.due.length } s

/-- A REPAIR_QUIESCE RUN goes on: it makes what is idle, and ends when nothing is left that a launch holds up, or at its
limit. -/
def quiesceSettle (s : State) : State :=
  match s.rep.running with
  | none => s
  | some (p, limit, made) =>
    let (k, s) := if s.power.shed ≥ 4 then (0, s) else makeIdle (fun _ => true) s
    let left := s.rep.due.any fun d => !scopeIdle s d.what
    if !left then quiesceReply p stOk (made + k) { s with rep := { s.rep with running := none } }
    else if s.aon ≥ limit then quiesceReply p stTimeout (made + k) { s with rep := { s.rep with running := none } }
    else { s with rep := { s.rep with running := some (p, limit, made + k) } }

/-- REPAIR_QUIESCE RUN. A TIMEOUT_MS of 0 makes only the repairs whose scope is idle and does not wait (R16). -/
def execRepairQuiesceRun (p : Pkt) (timeout : BitVec 32) (s : State) : Host.Outcome State Fault Refusal :=
  if packetWaits p [] s || (s.rep.running.map fun r => samePkt r.1 p).getD false then .next s else
  match headerCheck p infoRepair (p.paramLen = 8) s with
  | some r => .next (reply p 0x800 r s)
  | none =>
    if s.power.shed ≥ 4 then .next (reply p 0x800 (bad stShed) s)
    else if s.rep.running.isSome then .next (reply p 0x800 (bad stBusy) s)
    else if timeout = 0 then
      let (k, s) := makeIdle (fun _ => true) s
      .next (quiesceReply p stOk k s)
    else
      .next (quiesceSettle { s with rep := { s.rep with running := some (p, s.aon + timeout.toNat * 100000, 0) } })

/-- REPAIR_QUIESCE QUERY: only replies. -/
def execRepairQuiesceQuery (p : Pkt) (timeout : BitVec 32) (s : State) : Host.Outcome State Fault Refusal :=
  let _ := timeout
  if packetWaits p [] s then .next s else
  match headerCheck p { infoRepair with query := true } (p.paramLen = 8) s with
  | some r => .next (reply p 0x800 r s)
  | none => .next (quiesceReply p stOk 0 s)

/-! ### STRIKE_WINDOW_EXPIRY (R155) -/

/-- The oldest strike of a core's slot leaves the window: operating time has reached its end. -/
def execStrikeWindowExpiry (core : Fin 4000) (s : State) : Host.Outcome State Fault Refusal :=
  match strikesOf s (coreCluster core.val) (slotOf s core.val) with
  | [] => .next s
  | t :: _ => .next { s with opSeconds := max s.opSeconds (t + swatchWindow s) }

end Sys2Proof.Machine
end

