-- ==== Sys2Proof/Machine/SlOps.lean ====
section
/-!
DEFINITION. The shared operations of the Sloyth ports: faults of remote requests, window states, training, port reset, and
what a change of shed level does (R425 to R441).
-/
namespace Sys2Proof.Machine

/-- BAR0 base of the block of port p. -/
def slBase (p : Nat) : Nat := 0xC90000 + p * 0x1000

/-- The port may train: the integrator configuration and SL_PORT_CTL.ENABLE allow it (R427). -/
def slEnabled (p : Nat) (s : State) : Bool :=
  ((kget p s.slConf).getD {}).enable && bit (s.reg (slBase p) 1) 0

/-! ### Completion of remote requests (R437) -/

/-- The address of a context that leads to a window address: the first TARGET 2 segment that reaches it. -/
def vaOfWindow (s : State) (ctx pa : Nat) : Option (Nat × Nat) :=
  match s.ctx ctx with
  | none => none
  | some c => (c.segs.find? fun e => e.2.target = 2 && targetBase e.2 + e.2.list ≤ pa &&
      pa < targetBase e.2 + e.2.list + e.2.len * 0x200000).map fun e => (e.1, e.2.base + (pa - targetBase e.2 - e.2.list))

/-- The dispatched descriptor whose agent has a requester code. -/
def descOf (who : Nat) (s : State) : Option (Nat × Flight) :=
  if 0x100000 ≤ who && who < 0x200000 then
    let q := (who - 0x100000) / 64
    ((s.queue q).bind fun k => k.flight.find? fun d => d.index.toNat % 64 = who % 64).map fun d => (q, d)
  else none

/-- The engine or agent that made a remote request faults, also when its core has moved on to another launch (R519): a posted
write as its own record says, and the agent of a descriptor with ENGINE 4, which ends the descriptor (R317, R331). -/
def slFault (r : SlReq) (cause : Nat) (s : State) : State :=
  match kget r.who s.posted with
  | some p => postedFail p cause 0 (postedDrop r.who s)
  | none =>
  let (seg, va) := match vaOfWindow s r.ctx r.pa with
    | some (i, a) => (i, some a)
    | none => (0, none)
  if 0 < r.who && r.who ≤ 16000 then
    let c := (r.who - 1) / 4
    let e := (r.who - 1) % 4
    let s := { s with asked := kdel (ansKey r.who r.pa) s.asked }
    if (s.core c).run && (s.core c).ctx = r.ctx then
      engineFault c e cause s (va := va) (pa := some r.pa) (seg := seg)
    else settleLaunches (agentFault r.ctx e cause s (va := va) (pa := some r.pa) (seg := seg))
  else match descOf r.who s with
    | some (q, d) => flightDone q d.index stContextLost
        (agentFault r.ctx 4 cause s (va := va) (pa := some r.pa) (seg := seg) (detail := queueDetail q d.index.toNat))
    | none => agentFault r.ctx 7 cause s (va := va) (pa := some r.pa) (seg := seg)

/-- Completes a request with a status (R437). A READ or ATOMIC hands its data to an engine that still waits; a failed
one faults its engine, and an agent of the hub finds the status when its own step goes on. -/
def slComplete (r : SlReq) (status data : Nat) (s : State) : State :=
  let key := ansKey r.who r.pa
  if r.op = 1 then (if status = stOk then s else slFault r (slCause status) s)
  else if r.op ≠ 2 && r.op ≠ 3 then s
  else if (kget key s.asked).isNone then s
  else if status = stOk || 16000 < r.who then
    { s with ans := kset key { status, data := BitVec.ofNat 512 data, poison := false } s.ans, asked := kdel key s.asked }
  else slFault r (slCause status) s

/-- Takes a request out of its port's table. -/
def slTake (p tag : Nat) (s : State) : Option (SlReq × State) :=
  let x := s.slPort p
  (kget tag x.reqs).map fun r => (r, s.setSlPort p { x with reqs := kdel tag x.reqs })

/-- Completes several requests; an engine whose writes fail faults once. -/
def slFailAll (rs : List SlReq) (status : Nat) (s : State) : State :=
  let firsts := rs.foldl (fun (l : List SlReq) r =>
    if r.op = 1 && l.any (fun e => e.op == 1 && e.who == r.who && e.ctx == r.ctx) then l else l ++ [r]) []
  foldS firsts (fun r s => slComplete r status 0 s) s

/-! ### Window states (R433, R439) -/

/-- The receiver tells the peer of window r the state of the window. -/
def winState (p r : Nat) (s : State) : State :=
  match kget r s.winIn with
  | none => s
  | some v => slTransmit p { op := 0x10, src := v.part, win := r,
                             payload := b2n v.closing.isNone + 2 ^ 32 * v.len } s

/-- WIN_STATE to every port in service towards the window's peer. -/
def winTell (r : Nat) (s : State) : State :=
  match kget r s.winIn with
  | none => s
  | some v => foldS ((List.range 4).filter fun p => ((s.slPort p).state = 4 || (s.slPort p).state = 5) &&
      (s.slPort p).peer = v.peer) (fun p s => winState p r s) s

/-! ### Training (R425, R428) -/

/-- Starts a port at step 1 of R425; at L5 training halts (R441). -/
def slStart (p : Nat) (s : State) : State :=
  let x := s.slPort p
  let x := { x with state := 1, hs := 0, initiator := false, cand := 0, peer := 0, peerReady := false }
  emit (.slControl p 1 0) (s.setSlPort p { x with step := if s.power.shed ≥ 5 then 0 else 1 })

/-- CO8 starts every enabled port (R425). -/
def slStartAll (s : State) : State :=
  foldS (List.range 4) (fun p s => if slEnabled p s && (s.slPort p).state = 0 then slStart p s else s) s

/-- A failure of training: step 1 again, or FAILED at the third in a row (R425). -/
def slFail (p reason : Nat) (s : State) : State :=
  let x := s.slPort p
  if x.fails + 1 ≥ 3 then
    slEvent p 3 reason x.cand (s.setSlPort p { x with state := 6, step := 0, fails := x.fails + 1 })
  else slStart p (s.setSlPort p { x with fails := x.fails + 1 })

/-- A handshake that does not verify (R428). -/
def slAuthFail (p : Nat) (s : State) : State :=
  let x := s.slPort p
  let s := s.setSlPort p { x with authFail := satAdd 14 x.authFail 1 }
  slFail p 4 (slEvent p 5 0 x.cand { s with secAuth := satAdd 16 s.secAuth 1 })

/-- READY is received: the port is in service (R425). Each direction starts at SEQ 0 of epoch 0 with the peer's whole
offer of credits (R424), and the state of every inbound window is sent (R433). -/
def slEnter (p : Nat) (s : State) : State :=
  let x := s.slPort p
  let s := s.setSlPort p { x with
    state := 4, step := 0, fails := 0, txSeq := 0, txEpoch := false, rxSeq := 0, rxEpoch := false, nakSent := false,
    unacked := false, rekeying := 0, txSwitched := false, rxSwitched := false, keyed := s.opSeconds,
    reqCredits := 16384, rspCredits := 8192 }
  let s := slEvent p 1 0 x.peer s
  foldS ((s.winIn.filter fun e => e.2.peer == x.peer).map (·.1)) (fun r s => winState p r s) s

/-- The keys of a handshake or a rekey: two keys with their salts, of 36 bytes each; free values, of which the
initiator takes the first to send (R428, R430). -/
def slKeys (n : Nat) (initiator : Bool) : Nat × Nat :=
  let a := (Config.cryptoBytes n 0).toNat % 2 ^ 288
  let b := (Config.cryptoBytes n 1).toNat % 2 ^ 288
  if initiator then (a, b) else (b, a)

/-- Keys are agreed and both identities verified: READY is sent (R425, R428). -/
def slAgreed (p : Nat) (s : State) : State :=
  let x := s.slPort p
  let (tx, rx) := slKeys s.free x.initiator
  let s := emit (.slControl p 2 0) (s.bump.setSlPort p { x with peer := x.cand, txKey := tx, rxKey := rx, step := 5 })
  if x.peerReady then slEnter p s else s

/-! ### Port reset (R441) -/

/-- Step 4: once every request received before is performed, the port is DOWN and starts again. -/
def slResetEnd (p : Nat) (s : State) : State :=
  let x := s.slPort p
  match x.resetting with
  | none => s
  | some r =>
    if x.rxq.any fun i => i.txn.op.toNat ≤ 4 then s
    else
      let s := s.setSlPort p { x with resetting := none, rxq := [], state := if x.state = 6 then 6 else 0 }
      let s := slEvent p 2 r.reason r.peer s
      let s := match r.pkt with
        | some k => reply k 0x600 {} s
        | none => s
      if r.reason = 6 || !slEnabled p s then s else slStart p s

/-- Steps 1 to 3: requests outstanding complete with ST_LINK_DOWN, requests received are performed without an answer,
keys and buffers are zeroised. -/
def slReset (p reason : Nat) (pkt : Option Pkt) (s : State) : State :=
  let x := s.slPort p
  if x.resetting.isSome then s
  else
    let out := x.reqs.map (·.2)
    let rxq := (x.rxq.filter fun i => 1 ≤ i.txn.op.toNat && i.txn.op.toNat ≤ 4).map fun i => { i with mute := true }
    let y : SlPort := { state := if x.state = 6 && reason ≠ 1 && reason ≠ 6 then 6 else 0,
                        fails := if reason = 1 then 0 else x.fails, resets := satAdd 8 x.resets 1, rxq,
                        resetting := some { reason, peer := x.peer, pkt }, fecCorrected := x.fecCorrected,
                        fecUncorrectable := x.fecUncorrectable, replays := x.replays, authFail := x.authFail,
                        lastTag := x.lastTag }
    let s := s.setSlPort p y
    let s := if reason = 4 then slEvent p 5 0 x.peer s else s
    partResetSettle (settleLaunches (slResetEnd p (slFailAll out stLinkDown s)))

/-- After a transaction was performed: port resets that waited for it go on. -/
def slSettle (s : State) : State := foldS (List.range 4) (fun p s => slResetEnd p s) s

/-- A direction that has reached 2^48 − 1 packets without a switch resets its port (R430). -/
def slCount (s : State) : State :=
  foldS (List.range 4) (fun p s =>
    let x := s.slPort p
    if 2 ^ 48 - 1 ≤ x.txSeq || 2 ^ 48 - 1 ≤ x.rxSeq then slReset p 5 none s else s) s

/-- Warm reset, step 6 (R36, R441, R444): every port is reset and held down until CO8. -/
def slWarm (s : State) : State :=
  foldS (List.range 4) (fun p s =>
    let s := slReset p 6 none s
    let x := s.slPort p
    s.setSlPort p { x with resets := 0, fecCorrected := 0, fecUncorrectable := 0, replays := 0, fails := 0, authFail := 0,
                           lastTag := none }) s

/-! ### Shed levels (R440, R441) -/

/-- What a change to a level does: at L5 training halts; at L3 or shallower it restarts; at L2 or shallower a port in
LPI wakes; below L5 a port with packets to send wakes. -/
def slShed (level : Nat) (s : State) : State :=
  foldS (List.range 4) (fun p s =>
    let x := s.slPort p
    if x.resetting.isSome then s
    else if level ≥ 5 then
      if 1 ≤ x.state && x.state ≤ 3 then s.setSlPort p { x with state := 1, step := 0 } else s
    else
      let s := if level ≤ 3 && x.state = 1 && x.step = 0 then slStart p s else s
      let s := if level ≤ 2 && x.state = 5 then emit (.slControl p 7 0) (s.setSlPort p { x with state := 4 }) else s
      slPump p s) s

end Sys2Proof.Machine
end

