-- ==== Sys2Proof/Machine/Security.lean ====
section
/-!
DEFINITION. Keys, attestation, the life cycle and debug (ch. 15).
-/
namespace Sys2Proof.Machine

/-! ### Events (R470) -/

/-- A SECURITY event. -/
def secEvent (code detail : Nat) (s : State) : State := hubEvent 0x30 1 (put 0 8 code + put 8 8 detail) s

/-- An object that does not verify (R448): counted and reported; the reply. -/
def authFailed (opcode : Nat) (s : State) : OpRes × State :=
  (bad stAuthFailed, secEvent 2 (opcode % 256) { s with secAuth := satAdd 16 s.secAuth 1 })

/-! ### The life-cycle fuse field (R464) -/

/-- The groups of R464 in order: INTEGRATOR, FIELDED, RETURNED, SCRAPPED. -/
def lcGroup (f : BitVec 112) (i : Nat) : Nat := popCount 16 (bits f.toNat (16 * i + 15) (16 * i))

/-- REVOKE counts as blown when any one of its fuses is. -/
def lcRevoked (f : BitVec 112) : Bool := bits f.toNat 79 64 != 0

/-- Some group is partial. -/
def lcPartial (f : BitVec 112) : Bool := (List.range 4).any fun i => 0 < lcGroup f i && lcGroup f i < 16

/-- The state the field decodes to. -/
def lcDecode (f : BitVec 112) : Nat :=
  if lcPartial f then 7
  else if lcGroup f 3 = 16 then 4 else if lcGroup f 2 = 16 then 3 else if lcGroup f 1 = 16 then 2
  else if lcGroup f 0 = 16 then 1 else 0

/-- A PROGRESS mark: 0 START, 1 REVOKED, 2 STATE, 3 ERASED of target t (0 INT to 3 SCR). -/
def lcMark (f : BitVec 112) (t m : Nat) : Bool := bits f.toNat (80 + 8 * t + 2 * m + 1) (80 + 8 * t + 2 * m) != 0

/-- Decodes the fuses into the state in effect. -/
def lcTake (s : State) : State :=
  { s with sec := { s.sec with lc := lcDecode s.fuse.lc, invalid := lcPartial s.fuse.lc } }

/-- M3 is extended with the life-cycle state, the profile, the SVN count and REVOKE (R452). -/
def extendM3 (s : State) : State :=
  s.extend 3 (s.sec.lc + 256 * s.fuse.profile + 65536 * s.fuse.svn + 16777216 * b2n (lcRevoked s.fuse.lc)) 4

/-! ### Transitions (R462, R465 to R467) -/

/-- One step of a transition: a fuse of the field, an OWNER_ROOT fuse, or the erasure of the user region. -/
inductive FuseStep where
  | blow (i : Nat)
  | owner (i : Nat)
  | erase
  deriving DecidableEq, Repr, Inhabited

def markSteps (t m : Nat) : List FuseStep := [.blow (80 + 8 * t + 2 * m), .blow (80 + 8 * t + 2 * m + 1)]

def groupSteps (lo : Nat) : List FuseStep := (List.range 16).map fun i => .blow (lo + i)

/-- The steps of a move to target t (0 INT to 3 SCR) that are not done, in order (R465); the marks only under BP1. A scrap
from LOCKED also finishes a group that is partial. -/
def lcSteps (t : Nat) (owner : BitVec 512) (s : State) : List FuseStep :=
  let f := s.fuse.lc
  let bp1 := s.fuse.profile = 1
  let mark (m : Nat) : List FuseStep := if bp1 then markSteps t m else []
  let root : List FuseStep := if t = 0 then ((List.range 512).filter fun i => bit owner.toNat i).map .owner else []
  let others : List FuseStep := if t = 3 then
      (((List.range 3).filter fun i => 0 < lcGroup f i && lcGroup f i < 16).map fun i => groupSteps (16 * i)).flatten
    else []
  let l := if t ≤ 1 then root ++ mark 0 ++ groupSteps (16 * t) ++ mark 2
    else mark 0 ++ groupSteps 64 ++ mark 1 ++ others ++ groupSteps (16 * t) ++ mark 2 ++ [.erase] ++ mark 3
  l.filter fun e => match e with
    | .blow i => !bit f.toNat i
    | .owner i => !bit s.fuse.ownerRoot.toNat i
    | .erase => true

/-- Performs one step. From the first REVOKE fuse the owner's keys are gone (R465). -/
def fuseStep (s : State) : FuseStep → State
  | .blow i =>
    let s := { s with fuse := { s.fuse with lc := s.fuse.lc ||| BitVec.ofNat 112 (2 ^ i) } }
    if 64 ≤ i && i < 80 then { s with sec := { s.sec with migKey := false, debugHash := 0 } } else s
  | .owner i => { s with fuse := { s.fuse with ownerRoot := s.fuse.ownerRoot ||| BitVec.ofNat 512 (2 ^ i) } }
  | .erase => { s with flash := { s.flash with conf := none }, flashJournal := none }

/-- The targets a unit under BP1 resumes at CO2: START is set and the last mark is clear (R467). -/
def lcResumable (s : State) : List Nat :=
  if s.fuse.profile ≠ 1 then []
  else (List.range 4).filter fun t => lcMark s.fuse.lc t 0 && !lcMark s.fuse.lc t (if t ≤ 1 then 2 else 3)

/-- CO2: resumes interrupted transitions, and decodes the field (R464, R467). The steps whose mark is set are done. -/
def lcBoot (s : State) : State :=
  let l := lcResumable s
  let s := l.foldl (fun s t => (lcSteps t 0 s).foldl fuseStep s) s
  let s := lcTake s
  { s with sec := { s.sec with resumed := !l.isEmpty } }

/-! ### Signed objects (R447, R448) -/

/-- SIGNER_PK's hash equals the root that SIGNER names; the INTEGRATOR root is there only in INTEGRATOR and FIELDED. -/
def rootOk (o : SignedObj) (s : State) : Bool :=
  if o.signer = 0 then o.pkHash == s.fuse.makerRoot
  else o.signer == 1 && (s.sec.lc = 1 || s.sec.lc = 2) && !lcRevoked s.fuse.lc && o.pkHash == s.fuse.ownerRoot

/-- An object verifies, for the signers allowed (R448). -/
def verifies (o : SignedObj) (signer : Nat) (s : State) : Bool :=
  o.signer.toNat == signer && rootOk o s && o.sigOk && o.bodyOk &&
    (o.serial.toNat == s.fuse.serial || (o.kind == 1 && o.serial == 0))

/-- The form of an object that a command of one KIND carries. -/
def objForm (o : SignedObj) (kinds : List Nat) : Bool :=
  o.formOk && kinds.contains o.kind.toNat && o.signer.toNat ≤ 1 && (if o.kind = 1 then o.svn.toNat ≤ 64 else o.svn = 0)

/-! ### Fragments (R449) -/

def pathCode : Path → Nat
  | .ring => 0
  | .mailbox => 1
  | .board => 2

def setAsm (path : Nat) (a : Option Asm) (s : State) : State :=
  { s with sec := { s.sec with asm := match a with
      | some x => kset path x s.sec.asm
      | none => kdel path s.sec.asm } }

/-- Takes a fragment: a refusal, or whether it is the last. -/
def fragTake (p : Pkt) (opcode max : Nat) (f : Frag) (s : State) : Except OpRes Bool × State :=
  let path := pathCode p.path
  let off := f.offset.toNat
  let n := f.len.toNat
  let total := f.total.toNat
  if total > max then (.error (bad stBadParam 36), s)
  else if n < 1 || n > 4048 || p.paramLen.toNat ≠ 16 + n then (.error (bad stBadParam 40), s)
  else if f.rsv then (.error (bad stBadParam 44), s)
  else
    let old : Option Asm := if off = 0 then some { opcode, total, got := 0 } else kget path s.sec.asm
    match old with
    | none => (.error (bad stBadParam 32), s)
    | some a =>
      if a.opcode ≠ opcode || a.total ≠ total || a.got ≠ off || total < off + n then
        (.error (bad stBadParam 32), setAsm path none s)
      else if off + n = total then (.ok true, setAsm path none s)
      else (.ok false, setAsm path (some { a with got := off + n }) s)

/-- A command that comes in fragments: the last one performs it. -/
def fragPacket (p : Pkt) (i : OpInfo) (max : Nat) (f : Frag) (act : State → OpRes × State) (s : State) : State :=
  directPacket p i true (fun s => match fragTake p i.code max f s with
    | (.error r, s) => (r, s)
    | (.ok false, s) => ({}, s)
    | (.ok true, s) => act s) s

/-! ### FW_UPDATE, PROFILE_SET, LC_TRANSITION (R451, R462, R463) -/

/-- FW_UPDATE on the whole object. -/
def actFwUpdate (o : SignedObj) (conf : ConfBody) (s : State) : OpRes × State :=
  let lc := s.sec.lc
  if !objForm o [1, 2] then (bad stBadParam, s)
  else if (if o.kind = 1 then lc > 3 else lc ≠ 1 && lc ≠ 2) then (bad stLcState, s)
  else if !verifies o (if o.kind = 1 then 0 else 1) s then authFailed 0x707 s
  else if o.kind = 1 then
    if o.svn.toNat < s.fuse.svn then (bad stNotPermitted, secEvent 7 0 s)
    else
      let bank : Bank := { svn := o.svn.toNat, head := o.head.toNat }
      ({}, secEvent 6 0 { s with flash := { s.flash with
        banks := kset (1 - s.flash.active) bank s.flash.banks, swap := true } })
  else ({}, secEvent 6 0 { s with flash := { s.flash with conf := some (conf, o.head.toNat) } })

def execFwUpdate (p : Pkt) (frag : Frag) (obj : SignedObj) (conf : ConfBody) (s : State) :
    Host.Outcome State Fault Refusal :=
  .next (fragPacket p { code := 0x707, col := .f } 0x1000000 frag (actFwUpdate obj conf) s)

/-- PROFILE_SET on the whole object. -/
def actProfileSet (o : SignedObj) (profile : Nat) (s : State) : OpRes × State :=
  if !objForm o [4] then (bad stBadParam, s)
  else if s.sec.lc ≠ 1 then (bad stLcState, s)
  else if !verifies o 1 s then authFailed 0x706 s
  else if profile ≠ 1 && profile ≠ 2 then (bad stBadParam, s)
  else if s.fuse.profile ≠ 0 then (bad stNotPermitted, s)
  else ({}, { s with fuse := { s.fuse with profile } })

def execProfileSet (p : Pkt) (frag : Frag) (obj : SignedObj) (profile : BitVec 8) (s : State) :
    Host.Outcome State Fault Refusal :=
  .next (fragPacket p { code := 0x706, col := .f } 0x10000 frag (actProfileSet obj profile.toNat) s)

/-- Some key slot is ACTIVE or DRAINING. -/
def slotsUsed (s : State) : Bool := s.keys.any fun e => e.2.state != 0

/-- The signer of a transition (R462): none for a transition that is not in the table. -/
def lcSigner (cur target : Nat) (f : BitVec 112) : Option Nat :=
  if cur = 0 && target = 1 then some 0
  else if cur = 1 && target = 2 then some 1
  else if (cur = 1 || cur = 2) && (target = 3 || target = 4) then some 1
  else if (cur = 0 || cur = 3) && target = 4 then some 0
  else if cur = 7 && 1 ≤ target && target ≤ 4 &&
      (target = 4 || (0 < lcGroup f (target - 1) && lcGroup f (target - 1) < 16)) then some 0
  else none

/-- What a new state ends at once: Sloyth ports lose their keys outside MAKER, INTEGRATOR and FIELDED (R462). -/
def lcGoverns (s : State) : State :=
  if s.sec.lc ≤ 2 then s
  else foldS (List.range 4) (fun p s => if (s.slPort p).state ≠ 0 then slReset p 1 none s else s)
    { s with slConf := [] }

/-- LC_TRANSITION on the whole object: the refusals of R462, then the steps of R465. When power is lost after `cut` of
them, nothing more happens and no reply is made. -/
def actLcTransition (o : SignedObj) (fromSt target : Nat) (root : BitVec 512) (rsv : Bool) (s : State) :
    Except OpRes (List FuseStep) × State :=
  let cur := s.sec.lc
  if !objForm o [3] || rsv then (.error (bad stBadParam), s)
  else if fromSt ≠ cur then (.error (bad stLcState), s)
  else match lcSigner cur target s.fuse.lc with
  | none => (.error (bad stLcState), s)
  | some signer =>
    if !verifies o signer s then
      let (r, s) := authFailed 0x705 s
      (.error r, s)
    else if target ≠ 1 && root ≠ 0 then (.error (bad stBadParam), s)
    else if cur = 0 && target = 1 && s.fuse.ownerRoot &&& ~~~root ≠ 0 then (.error (bad stLcState), s)
    else if cur = 1 && target = 2 && s.fuse.profile = 0 then (.error (bad stNotPermitted), s)
    else if cur ≠ 7 && target ≥ 3 && slotsUsed s then (.error (bad stBusy), s)
    else (.ok (lcSteps (target - 1) root s), s)

/-- LC_TRANSITION (R462, R465): the new state governs from the reply onward. -/
def execLcTransition (p : Pkt) (frag : Frag) (obj : SignedObj) (fromSt target : BitVec 8) (root : BitVec 512) (rsv : Bool)
    (cut : Option (BitVec 16)) (s : State) : Host.Outcome State Fault Refusal :=
  let info : OpInfo := { code := 0x705, col := .f, early := true, from_ := 3, anyLc := true }
  if packetWaits p [] s then .next s else
  match headerCheck p info true s with
  | some r => .next (reply p 0x705 r s)
  | none => match fragTake p 0x705 0x10000 frag s with
    | (.error r, s) => .next (reply p 0x705 r s)
    | (.ok false, s) => .next (reply p 0x705 {} s)
    | (.ok true, s) => match actLcTransition obj fromSt.toNat target.toNat root rsv s with
      | (.error r, s) => .next (reply p 0x705 r s)
      | (.ok l, s) => match cut with
        | some n => .next ((l.take n.toNat).foldl fuseStep s)
        | none =>
          let s := lcGoverns (extendM3 (lcTake (l.foldl fuseStep s)))
          .next (reply p 0x705 {} (secEvent 5 s.sec.lc s))

/-! ### ATTEST (R453, R454) -/

def infoAttest : OpInfo := { code := 0x702, col := .any, query := true, early := true, from_ := 3, anyLc := true }

/-- ATTEST takes its parameters in one fragment. -/
def attestPacket (p : Pkt) (f : Frag) (act : State → OpRes × State) (s : State) : State :=
  directPacket p infoAttest (p.paramLen = 56) (fun s =>
    if f.offset ≠ 0 || f.total ≠ f.len then (bad stBadParam 32, s)
    else match fragTake p 0x702 0x10000 f s with
      | (.error r, s) => (r, s)
      | (.ok _, s) => act s) s

/-- Bytes [447:0] of a report. -/
def reportBody (p : Pkt) (nonce : Nat) (s : State) : Nat :=
  let q := p.partition.toNat
  let slot := s.keys.find? fun e => e.2.state != 0 && e.2.part == q
  let m (i : Nat) : Nat := ((kget i s.sec.m).getD 0).toNat <<< (512 + 512 * i)
  put 0 32 0x5450524D + put 32 16 1 + put 48 8 s.sec.lc + put 56 8 s.fuse.profile + put 64 8 s.fuse.variant +
  put 72 8 s.fuse.stepping + put 80 8 s.fuse.svn + put 88 8 s.sec.level + put 96 64 s.fuse.serial + put 160 256 nonce +
  put 416 8 q + (if q < 8 then match slot with
    | some e => put 424 8 e.2.state + put 432 16 e.2.bindCount
    | none => 0 else 0) + m 0 + m 1 + m 2 + m 3 + m 4 + m 5

def setBuilt (p : Pkt) (len v : Nat) (s : State) : State :=
  { s with sec := { s.sec with built := kset (pathCode p.path) (len, v) s.sec.built } }

/-- ATTEST REPORT: built and signed. -/
def execAttestReport (p : Pkt) (frag : Frag) (nonce : BitVec 256) (s : State) : Host.Outcome State Fault Refusal :=
  .next (attestPacket p frag (fun s =>
    if s.sec.lc = 4 || s.sec.lc = 7 then (bad stLcState, s)
    else
      let b := reportBody p nonce.toNat s
      ({ len := 4, data := 30240 }, setBuilt p 30240 (b + (Config.identitySign b % 2 ^ (8 * 29792)) <<< 3584) s)) s)

/-- Bytes of the identity block: serial, identity key, encapsulation key, two certificates and the root key (R453,
R455). -/
def identityLen : Nat := 8 + 64 + 1568 + 2 * 29936 + 64

/-- ATTEST IDENTITY: the identity block is prepared. -/
def execAttestIdentity (p : Pkt) (frag : Frag) (s : State) : Host.Outcome State Fault Refusal :=
  .next (attestPacket p frag (fun s =>
    ({}, setBuilt p identityLen
      (put 0 64 s.fuse.serial + (Config.identityKeys s.fuse.dus.toNat % 2 ^ (8 * (identityLen - 8))) <<< 64) s)) s)

/-- ATTEST READ: up to 4,032 bytes of what was built last on the path. -/
def execAttestRead (p : Pkt) (frag : Frag) (offset : BitVec 32) (s : State) : Host.Outcome State Fault Refusal :=
  .next (attestPacket p frag (fun s =>
    let (len, v) := (kget (pathCode p.path) s.sec.built).getD (0, 0)
    if offset.toNat > len then (bad stBadParam 52, s)
    else
      let n := min 4032 (len - offset.toNat)
      ({ len := n, data := bytesAt v offset.toNat n }, s)) s)

/-! ### Debug authorisation (R468, R469) -/

/-- The level is allowed in the life-cycle state. -/
def debugAllowed (lc level : Nat) : Bool :=
  1 ≤ level && (if lc = 0 || lc = 3 then level ≤ 3 else if lc = 1 || lc = 2 then level ≤ 2 else false)

/-- DEBUG_CHALLENGE. -/
def execDebugChallenge (p : Pkt) (level : BitVec 8) (s : State) : Host.Outcome State Fault Refusal :=
  .next (directPacket p { code := 0x703, col := .f, early := true, from_ := 3, anyLc := true } (p.paramLen = 8) (fun s =>
    if !debugAllowed s.sec.lc level.toNat then (bad stLcState, s)
    else if s.sec.fails ≥ 8 && s.opSeconds < s.sec.lockUntil then (bad stBusy, s)
    else
      let c := put 0 64 s.fuse.serial + put 64 8 s.sec.lc + put 72 8 level.toNat + (entropy s.free 32) <<< 128
      ({ len := 64, data := c },
       { s with free := s.free + 32, sec := { s.sec with challenge := some (level.toNat, c) } })) s)

/-- CHALLENGE_LAPSE: 60 s after its issue the challenge lapses. -/
def execChallengeLapse (s : State) : Host.Outcome State Fault Refusal :=
  .next { s with sec := { s.sec with challenge := none } }

/-- DEBUG_LOCKOUT_END: 10 minutes of operating time have passed. -/
def execDebugLockoutEnd (s : State) : Host.Outcome State Fault Refusal :=
  .next { s with opSeconds := max s.opSeconds s.sec.lockUntil }

/-- The authority that signs responses (R468). -/
def debugAuthority (s : State) : BitVec 512 :=
  if s.sec.lc = 3 || s.sec.debugHash = 0 then s.fuse.makerRoot else s.sec.debugHash

/-- Every key slot is emptied and every granule marked needs-scrub, as PERST# does (R33). -/
def zeroiseSlots (s : State) : State :=
  { s with keys := kmap (fun _ k => { k with state := 0, part := 0, key := 0 }) s.keys,
           pot := kmap (fun _ g => { g with needsScrub := true }) s.pot }

/-- An unlock; level 2 in FIELDED first zeroises every key slot and link key. -/
def debugUnlock (level : Nat) (auth : BitVec 512) (s : State) : State :=
  let s := if s.sec.lc = 2 && level = 2 then
      foldS (List.range 4) (fun p s => if (s.slPort p).state ≠ 0 then slReset p 1 none s else s) (zeroiseSlots s)
    else s
  let s := { s with sec := { s.sec with level } }
  secEvent 3 level (s.extend 5 (level + 256 * auth.toNat) 65)

/-- DEBUG_RESPONSE on the whole payload: the hash of the authority's key, and whether its signature over the challenge
verifies. -/
def actDebugResponse (auth : BitVec 512) (sigOk : Bool) (s : State) : OpRes × State :=
  if s.sec.lc = 4 || s.sec.lc = 7 then (bad stLcState, s)
  else
    let fail : OpRes × State :=
      let fails := satAdd 16 s.sec.fails 1
      authFailed 0x704 { s with sec := { s.sec with
        challenge := none, fails, lockUntil := if fails ≥ 8 then s.opSeconds + 600 else s.sec.lockUntil } }
    match s.sec.challenge with
    | none => fail
    | some (level, _) =>
      if debugAllowed s.sec.lc level && (s.sec.lc = 0 || (sigOk && auth == debugAuthority s)) then
        ({}, debugUnlock level auth { s with sec := { s.sec with challenge := none } })
      else fail

def execDebugResponse (p : Pkt) (frag : Frag) (auth : BitVec 512) (sigOk : Bool) (s : State) :
    Host.Outcome State Fault Refusal :=
  .next (fragPacket p { code := 0x704, col := .f, early := true, from_ := 3 } 0x10000 frag (actDebugResponse auth sigOk) s)

/-! ### Key slots (R457) -/

def slotForm (slot : Nat) : Option OpRes := if slot > 7 then some (bad stBadParam 32) else none

/-- KEY_SLOT_BIND: fresh bytes from the entropy source. -/
def actKeyBind (p : Pkt) (slot : Nat) (s : State) : OpRes × State :=
  let k := (kget slot s.keys).getD {}
  if k.state ≠ 0 then (bad stBusy 32, s)
  else if s.keys.any fun e => e.2.state != 0 && e.2.part == pnum p then (bad stNotPermitted, s)
  else if s.sec.lc ≥ 3 then (bad stLcState, s)
  else ({}, { s with free := s.free + 96,
                     keys := kset slot { state := 1, part := pnum p, bindCount := satAdd 16 k.bindCount 1,
                                         key := entropy s.free 96 } s.keys })

def execKeySlotBind (p : Pkt) (slot : BitVec 8) (s : State) : Host.Outcome State Fault Refusal :=
  .next (stagePacket p { code := 0x700, col := .p, stageable := true } (p.paramLen = 8) (fun _ => slotForm slot.toNat)
    (.keySlotBind p slot) 8 noReserve (fun _ => [objKey slot.toNat]) (fun _ => actKeyBind p slot.toNat) s)

/-! ### KEY_SLOT_DRAIN (R459 to R461) -/

/-- Line n lies in a granule of the slot. -/
def inSlot (k n : Nat) (s : State) : Bool :=
  let g := s.gran (granOf (64 * n))
  g.owned && g.keySlot.val == k

/-- A requester whose transfers count: a core's DMA engine, a queue agent or another agent of the hub. -/
def drainCounts (who : Nat) : Bool :=
  (0 < who && who ≤ 16000 && who % 4 == 0) || (0x10000 ≤ who && who < 0x30000)

/-- Requests at homes that passed the check under the slot and have not completed. -/
def slotTransfers (k : Nat) (s : State) : List (Nat × Msg) :=
  s.lines.filterMap fun e => match e.2.tx with
    | some t => if t.why == .request && t.ackOf.isNone && drainCounts t.req.who && inSlot k e.1 s then some (e.1, t.req)
        else none
    | none => none

/-- Sloyth requests of a partition that are not answered or covered. -/
def partRequests (p : Nat) (s : State) : List (Nat × Nat × SlReq) := (slReqs s).filter fun e => e.2.2.part == p

/-- The slot's in-flight counters. -/
def slotInFlight (k : Nat) (s : State) : Nat :=
  let x := (kget k s.keys).getD {}
  if x.state = 0 then 0 else (slotTransfers k s).length + (partRequests x.part s).length

/-- Lines of the slot that some partner die holds, or that a home's transaction keeps busy. -/
def drainRecalls (k : Nat) (s : State) : List Nat :=
  (s.lines.filter fun e => inSlot k e.1 s && (e.2.tx.isSome || match e.2.dir with
    | some d => d.bcast || (d.owner.any (200 ≤ ·)) || d.sharers.any (200 ≤ ·)
    | none => false)).map (·.1)

/-- Step 4: every copy goes without write-back; partner dies are recalled. -/
def drainDrop (k : Nat) (s : State) : State :=
  let here := s
  let s := { s with
    clusters := kmap (fun _ c => { c with lines := kfilter (fun n _ => !inSlot k n here) c.lines }) s.clusters,
    lines := kmap (fun n l => if inSlot k n here then
        { l with dir := match l.dir with
            | none => none
            | some d => { d with owner := if d.owner.any (· < 200) then none else d.owner,
                                 sharers := d.sharers.filter (200 ≤ ·) }.norm }
      else l) s.lines }
  let s := mscDrop (inSlot k · here) false s
  exchange (foldS ((drainRecalls k s).filter fun n => (s.line n).tx.isNone) recallAll) s

/-- Step 5. -/
def drainEnd (p : Nat) (d : Drain) (s : State) : State :=
  let k := (kget d.slot s.keys).getD {}
  let s := { s with
    keys := kset d.slot { k with state := 0, part := 0, key := 0 } s.keys,
    pot := kmap (fun _ g => if g.keySlot.val == d.slot && g.owned then { g with needsScrub := true } else g) s.pot,
    sec := { s.sec with drains := kdel p s.sec.drains } }
  let s := secEvent 4 d.slot (s.touch (objKey d.slot))
  reply d.pkt 0x701 { len := 4, data := d.dropped } s

/-- Goes on with the drain of a partition as far as it can: step 2 until every counter is zero, step 4 until every copy
is dropped, step 5. It halts at L5 and resumes at L3 or shallower (R461). -/
def drainRun (p : Nat) (s : State) : State :=
  match kget p s.sec.drains with
  | none => s
  | some d =>
    let halted := s.power.shed ≥ 5 || (d.halted && s.power.shed = 4)
    let d := { d with halted }
    let s := { s with sec := { s.sec with drains := kset p d s.sec.drains } }
    if halted || (d.step = 2 && slotInFlight d.slot s ≠ 0) then s
    else
      let d := { d with step := 4 }
      let s := { s with sec := { s.sec with drains := kset p d s.sec.drains } }
      if s.moves.any fun m => m.part == p then s
      else
        let s := drainDrop d.slot s
        if !(drainRecalls d.slot s).isEmpty then s else drainEnd p d s

/-- Goes on with every drain in hand. -/
def drainSettle (s : State) : State := foldS (s.sec.drains.map (·.1)) drainRun s

/-- The slot of partition q, as the object a drain of its key names. -/
def keyObjs (q : Nat) (s : State) : List Nat :=
  ((s.keys.find? fun e => e.2.state != 0 && e.2.part == q).map fun e => objKey e.1).toList

/-- KEY_SLOT_DRAIN: step 1, and what follows at once. -/
def execKeySlotDrain (p : Pkt) (s : State) : Host.Outcome State Fault Refusal :=
  if packetWaits p (keyObjs (pnum p) s) s || ((kget (pnum p) s.sec.drains).map fun d => samePkt d.pkt p).getD false then .next s
  else
  match headerCheck p { code := 0x701, col := .p, inReset := true } (p.paramLen = 0) s with
  | some r => .next (reply p 0x701 r s)
  | none =>
    let q := pnum p
    match s.keys.find? fun e => e.2.state != 0 && e.2.part == q with
    | none => .next (reply p 0x701 (bad stNotPermitted) s)
    | some (k, x) =>
      if (kget q s.sec.drains).isSome then .next (reply p 0x701 (bad stBusy) s)
      else
        let s := { s with keys := kset k { x with state := 2 } s.keys }.touch (objKey k)
        let s := slFenceAll (fun f => f.1 == q) s
        .next (drainRun q { s with sec := { s.sec with drains := kset q { pkt := p, slot := k } s.sec.drains } })

/-- A dropped transfer of the hub: its answer is discarded, and its engine faults with KEY_DRAINED. -/
def drainOne (e : Nat × Msg) (s : State) : State :=
  let l := s.line e.1
  let key := ansKey e.2.who e.2.addr.toNat
  let s := match l.tx with
    | some t => s.setLine e.1 { l with tx := some { t with req := { t.req with who := 0x5FFFF } } }
    | none => s
  let s := { s with asked := kdel key s.asked }
  if e.2.who ≤ 16000 then
    let c := (e.2.who - 1) / 4
    if (s.core c).run then coreFault c 3 fcKeyDrained s (pa := some e.2.addr.toNat) else s
  else agentFault e.2.ctx.toNat 4 fcKeyDrained s (pa := some e.2.addr.toNat)

/-- KEY_DRAIN_TIMEOUT: 10 ms have passed in step 2; every transfer still counted is dropped (step 3). -/
def execKeyDrainTimeout (partition : Fin 8) (s : State) : Host.Outcome State Fault Refusal :=
  let p := partition.val
  match kget p s.sec.drains with
  | none => .next s
  | some d =>
    if d.step ≠ 2 then .next s
    else
      let ts := slotTransfers d.slot s
      let rs := partRequests p s
      let s := foldS ts drainOne s
      let s := { s with slPorts := kmap (fun _ x => { x with
        reqs := kfilter (fun _ r => r.part != p) x.reqs,
        txq := x.txq.filter fun k => k.op ≥ 0x10 || k.src ≠ p }) s.slPorts }
      let engines := rs.foldl (fun (l : List SlReq) e =>
        if e.2.2.op = 4 || l.any (fun r => r.who == e.2.2.who && r.ctx == e.2.2.ctx) then l else l ++ [e.2.2]) []
      let s := foldS engines (fun r s => slFault r fcKeyDrained s) s
      let d := { d with step := 4, dropped := ts.length + rs.length }
      .next (partResetSettle (settleLaunches (drainRun p { s with sec := { s.sec with drains := kset p d s.sec.drains } })))

end Sys2Proof.Machine
end

