-- ==== Sys2Proof/Machine/SiteOps.lean ====
section
/-!
DEFINITION. What a partner site goes through: admission, recall of its lines, site reset and shed messages (R35, R222, R396
to R400, R411 to R414).
-/
namespace Sys2Proof.Machine

/-! ### Pins and events -/

/-- Pin codes: SITE_PWR_ENn, a site's in-package reset wire (1 asserted), the level of VDD_SITEn_A in mV. -/
def pinSitePwrEn : Nat := 1
def pinSiteReset : Nat := 2
def pinSiteVddA : Nat := 3

/-- A SITE event (R417), stamped in the site's domain (R520). -/
def siteEvent (n code reason : Nat) (s : State) : State :=
  hubEvent 0x60 (0x50 + n) (put 0 8 n + put 8 8 code + put 16 8 reason + put 24 8 (s.site n).modules) s

/-! ### Recall (R35, R222) -/

/-- A home recalls lines that are not busy from the die of a site. -/
def recallFrom (n : Nat) (pick : Line → Bool) (s : State) : State :=
  let ls := (s.lines.filter fun e => e.2.tx.isNone && pick e.2).map (·.1)
  foldS ls (fun k s => homeBegin k { req := hubReq k, why := .site n } [(siteAgent n, .snpRecall)] s) s

/-- A line whose holders are not all named may be held by a die that caches. -/
def maybeHeld (n : Nat) (s : State) (l : Line) : Bool :=
  dirNames (siteAgent n) l || ((s.site n).caches && ((l.dir.map (·.bcast)).getD false))

/-- Every line the die may hold is to be recalled; a busy one when its transaction has ended. -/
def recallGo (n : Nat) (s : State) : State :=
  let l := (s.site n).toRecall
  let busy (k : Nat) : Bool := (s.line k).tx.isSome
  let s := s.setSite n { s.site n with toRecall := l.filter busy }
  foldS (l.filter fun k => !busy k) (fun k s => homeBegin k { req := hubReq k, why := .site n } [(siteAgent n, .snpRecall)] s) s

def recallStart (n : Nat) (s : State) : State :=
  recallGo n (s.setSite n { s.site n with toRecall := (s.lines.filter fun e => maybeHeld n s e.2).map (·.1) })

/-- L4 (R222): the homes recall every line a partner die holds in M or O. -/
def recallOwned (s : State) : State :=
  foldS (List.range 4) (fun n s => recallFrom n (fun l => (l.dir.bind (·.owner)) == some (siteAgent n)) s) s

/-! ### Admission (R396, R397, R400) -/

/-- Highest BUDGET_CAP_W of the variant (R498). -/
def siteLimit (s : State) : Nat := if s.fuse.variant = 2 then 200 else if s.fuse.variant = 3 then 150 else 250

def rateCode (gt : Nat) : Nat := if gt = 8 then 1 else if gt = 16 then 2 else if gt = 32 then 3 else 0

/-- The values of a record lie within R396. -/
def recordOk (r : SiteRec) (s : State) : Bool :=
  650 ≤ r.vddA.toNat && r.vddA.toNat ≤ 950 && 1 ≤ r.budgetCap.toNat && r.budgetCap.toNat ≤ siteLimit s &&
  1 ≤ r.protocols.toNat && r.protocols.toNat ≤ 3 && rateCode r.maxRate.toNat != 0 && r.shedClass.toNat ≤ 3

/-- Credits, requests and link of a site that is down. -/
def Site.down (x : Site) : Site :=
  { x with modules := 0, rate := 0, step := 0, tx := [], txq := [], rx := [], reqs := [], took := [], apq := [], quiesce := none,
           resetting := none, toRecall := [] }

/-- Completes every outstanding aperture request with ST_LINK_DOWN. -/
def failAps (n : Nat) (s : State) : State :=
  let l := (s.site n).apq
  let s := s.setSite n { s.site n with apq := [] }
  l.foldl (fun s e => apDone n e.2 stLinkDown 0 false s) s

/-- A site fails (R400). -/
def siteFail (n code : Nat) (s : State) : State :=
  let s := failAps n s
  let x := (s.site n).down
  let s := s.setSite n { x with state := 6, failCode := code, powered := false }
  siteEvent n 2 code (emit (.pin pinSitePwrEn n 0) (emit (.pin pinSiteReset n 1) s))

/-- Steps 1 to 4 of R397; a site that is powered goes on at step 3. True when admission has ended at once: no record, or a
record that fails. -/
def siteBegin (n : Nat) (s : State) : Bool × State :=
  let x := s.site n
  match kget n s.siteRecs with
  | none => (true, s.setSite n { x with state := 0 })
  | some r =>
    if !r.enable then (true, s.setSite n { x with state := 0 })
    else if !recordOk r s then (true, siteFail n 9 (s.setSite n { x with shedClass := r.shedClass.toNat % 4 }))
    else
      let s := if x.powered then s
        else emit (.pin pinSitePwrEn n 1) (emit (.pin pinSiteReset n 1) (emit (.pin pinSiteVddA n r.vddA.toNat) s))
      (false, s.setSite n { x with state := 2, step := 2, powered := true, waits := false,
                                   shedClass := r.shedClass.toNat % 4 })

/-- Resets of the site within the last hour of operating time (R413). -/
def recentResets (n : Nat) (s : State) : Nat :=
  ((s.site n).resets.filter fun t => decide (s.opSeconds < t + 3600)).length

/-- A site that is not admitted again after its resets: FAILED, its rails off. -/
def siteBar (n : Nat) (s : State) : State :=
  emit (.pin pinSitePwrEn n 0) (s.setSite n { s.site n with state := 6, powered := false })

/-- CO7 admits the sites in order from n, each after the one before has ended (R397); FAILED and TEST sites are skipped. -/
def admitFrom : Nat → Nat → State → State
  | 0, _, s => s
  | k + 1, n, s =>
    if n ≥ 4 then s
    else if (s.site n).state ≥ 6 then admitFrom k (n + 1) s
    else if recentResets n s ≥ 3 then admitFrom k (n + 1) (siteBar n s)
    else match siteBegin n s with
      | (true, s) => admitFrom k (n + 1) s
      | (false, s) => s

/-- The admission of a site has ended: SITE_RESET commands that wait reply, and CO7 goes on with the next site. -/
def siteEnded (n : Nat) (s : State) : State :=
  let x := s.site n
  let s := foldS x.waiters (fun p s => reply p 0x500 {} s) (s.setSite n { x with waiters := [] })
  if s.co.running && s.co.stage = 7 then admitFrom 4 (n + 1) s else s

/-- A site is still in the steps of its admission. -/
def admitting (s : State) : Bool := s.sites.any fun e => e.2.step != 0

/-- Step 4 of a site reset: admitted again, once the shed level allows (R413, R414). -/
def siteAgain (n : Nat) (s : State) : State :=
  if s.power.shed ≥ 4 then s.setSite n { s.site n with waits := true }
  else match siteBegin n s with
    | (true, s) => siteEnded n s
    | (false, s) => s

/-! ### Site reset (R413) -/

/-- Step 3 and what follows it. -/
def siteStep3 (n reason : Nat) (s : State) : State :=
  let x := (s.site n).down
  let s := emit (.pin pinSiteReset n 1) (s.setSite n { x with
    state := 1, decl := 0, caches := false, repaired := 0, retrains := 0, measured := 0, overNow := false, limited := false,
    overRun := 0, underRun := 0 })
  let s := siteEvent n 3 reason s
  if reason = 6 || recentResets n s ≥ 3 then siteEnded n (siteBar n s)
  else if reason = 7 then siteEnded n s
  else siteAgain n s

/-- Goes on with a site reset or a WITHDRAW whose recalls are answered. -/
def siteSettle (n : Nat) (s : State) : State :=
  let x := s.site n
  if x.resetting.isNone && x.withdraws.isEmpty then s
  else
    let s := recallFrom n (dirNames (siteAgent n)) (recallGo n s)
    if siteOwes n s then s
    else match x.resetting with
      | some r => siteStep3 n r s
      | none => s

/-- Requests of a die that is being reset go: those queued at homes, those whose snoops are awaited, and the ACKs of its
grants. -/
def dieGone (n : Nat) (s : State) : State :=
  let a := siteAgent n
  let s := { s with lines := kmap (fun _ l => { l with queue := l.queue.filter fun m => m.src.toNat != a }) s.lines }
  let mine := s.lines.filter fun e => (e.2.tx.map fun t => t.why == .request && t.req.src.toNat == a).getD false
  foldS mine (fun e s =>
    let l := s.line e.1
    match l.tx with
    | none => s
    | some t =>
      if t.ackOf.isSome then homeEnded e.1 .request (s.setLine e.1 { l with tx := none })
      else s.setLine e.1 { l with tx := some { t with why := .site n } }) s

/-- SITE_RESET_SEQUENCE: steps 1 and 2; a second trigger is absorbed, and a site without a die in service has nothing to
reset (R413, R414). -/
def siteReset (n reason : Nat) (s : State) : State :=
  let x := s.site n
  if x.resetting.isSome || x.state < 2 || x.state = 7 || (x.state = 6 && reason ≠ 1) then s
  else
    let s := failAps n s
    let x := s.site n
    let s := s.setSite n { x with resetting := some reason, resets := x.resets ++ [s.opSeconds], step := 0,
                                  txq := x.txq.filter fun m => chanOf m.op ≠ 0 }
    siteSettle n (recallStart n (dieGone n s))

/-- PROTOCOL_ERROR (R220): counted, and the site is reset. -/
def protocolError (n : Nat) (s : State) : State :=
  siteReset n 3 (s.setSite n { s.site n with errProtocol := satAdd 16 (s.site n).errProtocol 1 })

/-- A die does not answer a snoop: the home goes on as if it had answered "data, I" with POISON, or "no data, I" where it
is a sharer (R35, R219). -/
def snoopLost (n k : Nat) (s : State) : State :=
  let l := s.line k
  match l.tx with
  | none => s
  | some t =>
    if !t.waiting.contains (siteAgent n) then s
    else
      let owner := (l.dir.bind (·.owner)) == some (siteAgent n)
      homeAnswer { op := if owner then .snpData else .snpRsp, state := .I, poison := owner, txn := t.snpTxn,
                   src := BitVec.ofNat 8 (siteAgent n), dst := homeAgent k, addr := BitVec.ofNat 48 (64 * k),
                   data := s.lineData k } s

/-- Every snoop the die of a site owes is lost. -/
def recallLost (n : Nat) (s : State) : State :=
  let ls := (s.lines.filter fun e => (e.2.tx.map fun t => t.waiting.contains (siteAgent n)).getD false).map (·.1)
  foldS ls (snoopLost n) s

/-! ### Shed messages (R412) -/

/-- The action a level asks of a site: QUIESCE. -/
def quiesces (x : Site) (level : Nat) : Bool := level ≥ 4 || (level ≥ 2 && x.shedClass ≥ 2)

/-- SHED to one admitted site. -/
def shedSite (level n : Nat) (s : State) : State :=
  let x := s.site n
  if (x.state ≠ 4 && x.state ≠ 5) || x.resetting.isSome then s
  else if quiesces x level then
    emit (.sideband n 0x10 (level + 256)) (s.setSite n { x with state := 5, quiesce := some level })
  else if x.state = 5 then
    emit (.sideband n 0x10 (level + 512)) (s.setSite n { x with state := 4, quiesce := none })
  else emit (.sideband n 0x10 level) s

/-- At each change of shed level; none at L6. Admissions that wait go on at L3 or shallower (R414). -/
def shedSites (level : Nat) (s : State) : State :=
  let s := if level ≥ 6 then s else foldS (List.range 4) (shedSite level) s
  if level ≥ 4 then s
  else foldS (List.range 4) (fun n s => if (s.site n).waits then siteAgain n (s.setSite n { s.site n with waits := false })
    else s) s

end Sys2Proof.Machine
end

