-- ==== Sys2Proof/Machine/Migrate.lean ====
section
/-!
DEFINITION. The MIGRATE descriptor (R246, R307, R320).
-/
namespace Sys2Proof.Machine

/-! ### The descriptor (R307, R320) -/

def mOne (w : BitVec 512) : Bool := bit (bytesAt w.toNat 8 1) 0
def mCount (w : BitVec 512) : Nat := bytesAt w.toNat 9 1
def mSrc (w : BitVec 512) : Nat := bytesAt w.toNat 16 8
def mDst (w : BitVec 512) : Nat := bytesAt w.toNat 24 8
def mList (w : BitVec 512) : Nat := bytesAt w.toNat 32 8

def migrateOk (w : BitVec 512) : Bool :=
  dHeaderOk w && bytesAt w.toNat 8 1 < 2 && mCount w ≤ 16 && bytesAt w.toNat 10 6 = 0 && mList w % 8 = 0 &&
  bytesAt w.toNat 40 24 = 0

/-- Mapping number i of a list (R320), and whether its reserved bits are 0. -/
def listEntry (v i : Nat) : (Nat × Nat × Nat) × Bool :=
  let e := bytesAt v (8 * i) 8
  ((bits e 19 0, bits e 25 20, bits e 63 32), bits e 31 26 = 0)

def migrateRun (q : Nat) (k : Queue) (d : Flight) (s : State) : State :=
  let w := d.word
  if mCount w = 0 then flightDone q d.index stOk s
  else if s.moves.any fun m => m.from_ == some (q, d.index) then settleMoves s
  else
    match readRange { code := whoDesc q d.index.toNat, cluster := none, ctx := k.ctx, part := k.part } .read (mList w)
        (8 * mCount w) s with
    | (.wait, s) => s
    | (.fault c det va, s) => agentEnds q d.index c det va .read s
    | (.ok v, s) =>
      let es := (List.range (mCount w)).map fun i => listEntry v i
      let maps := es.map (·.1)
      if es.any fun e => !e.2 then flightDone q d.index stBadParam s
      else if maps.any fun e => ((s.ctx e.1).map fun c => c.part.val != k.part.val).getD true then
        flightDone q d.index stNotPermitted s
      else match moveRefusal k.part.val (mSrc w) (mDst w) (mOne w) maps s with
        | some st => flightDone q d.index st s
        | none =>
          if agentMoves (mDst w) s ≥ 4 then s
          else moveStart { part := k.part.val, src := mSrc w, dst := mDst w, g1 := mOne w, maps, from_ := some (q, d.index) } s

def execMigrate (queue : BitVec 14) (index : BitVec 32) (media : MediaList) (s : State) :
    Host.Outcome State Fault Refusal :=
  let q := queue.toNat
  .next { descriptorRow 7 q index
    (fun k w s => if !migrateOk w then .error stBadParam else if !k.privileged then .error stNotPermitted
      else .ok ((segOf s k.ctx (mList w)).toList)) (migrateRun q) (agentReads { s with media })
    with media := [] }

end Sys2Proof.Machine
end

