-- ==== Sys2Proof/Machine/Tiers.lean ====
section
/-!
DEFINITION. The tier controllers: patrol, slots and short slots, stack temperature, and auto-tiering by heat (R237, R241 to
R245, R250 to R252, R376, R377, R380).
-/
namespace Sys2Proof.Machine

/-! ### PATROL (R237) -/

/-- A populated line is read and corrected data written back; an uncorrectable one is poisoned (R238). -/
def execPatrol (line : BitVec 42) (found : Option Media) (s : State) : Host.Outcome State Fault Refusal :=
  let n := line.toNat
  if !s.populated (64 * n) then .next s
  else match found with
    | some (.symbols a b _) =>
      .next (if beyond n a b s then lineBad n s else if a + b = 0 then s else corrected (64 * n) (a + b) s)
    | _ => .next s

/-! ### Stack temperature (R243, R244) -/

def State.threshold (s : State) (k : Nat) : Nat := (kget k s.fuse.thresh).getD 95

/-- Entry temperature of a throttle step. -/
def stepEntry (h step : Nat) : Nat := h + 3 * (step - 1)

/-- The throttle step of a temperature (R243). -/
def stepOf (h t : Nat) (critical : Bool) : Nat :=
  if critical || t ≥ h + 12 then 5
  else if t ≥ h + 9 then 4 else if t ≥ h + 6 then 3 else if t ≥ h + 3 then 2 else if t ≥ h then 1 else 0

def execStackTemperatureReport (stack : Fin 16) (temp : BitVec 8) (critical : Bool) (s : State) :
    Host.Outcome State Fault Refusal :=
  let c := s.ctl stack.val
  let due := stepOf (s.threshold stack.val) temp.toNat critical
  .next (s.setCtl stack.val { c with temp := temp.toNat, critical, step := max c.step due })

/-- THROTTLE_STEP_DOWN (R244): one step at a time, 2 °C below the entry of the current step. -/
def execThrottleStepDown (stack : Fin 16) (s : State) : Host.Outcome State Fault Refusal :=
  let c := s.ctl stack.val
  if c.step = 0 || c.critical || c.temp + 2 > stepEntry (s.threshold stack.val) c.step then .next s
  else .next (s.setCtl stack.val { c with step := c.step - 1 })

/-- A THERMAL event (R512): code, unit, temperature in 0.1 °C, coolant limit. -/
def thermalEvent (code unit temp limit : Nat) (s : State) : State :=
  smbSet 1 (hubEvent 0x40 1 (put 0 8 code + put 8 8 unit + put 16 16 temp + put 32 16 limit) s)

/-- STACK_CRITICAL (R244). -/
def execStackCritical (stack : Fin 16) (s : State) : Host.Outcome State Fault Refusal :=
  let c := s.ctl stack.val
  if c.step = 5 then .next (thermalEvent 3 stack.val (10 * c.temp) 0 s) else .next s

/-! ### CONTROLLER_SLOT (R241, R242, R245, R376, R380) -/

/-- Slots of a round that may issue (R243). -/
def slotCap (step : Nat) : Nat :=
  match step with
  | 0 => 64
  | 1 => 51
  | 2 => 38
  | 3 => 25
  | 4 => 12
  | _ => 0

/-- The committed slot table of a controller. -/
def tdmTable (x : Nat) (s : State) : List Nat :=
  (List.range 64).map fun i => bits (s.reg (ctlBase x + 0x100 + 8 * (i / 16)) 0xFFFFFFFFFFFFFFFF) (4 * (i % 16) + 3) (4 * (i % 16))

/-- HUB_PORT_CLASS at reset: 2 for every port but 8 to 11, which have 1. -/
def portClassReset : Nat :=
  (List.range 17).foldl (fun v k => v + (if 8 ≤ k && k ≤ 11 then 1 else 2) * 4 ^ k) 0

/-- The class a request is carried at (R373): never a smaller number than its port's field. -/
def reqClass (e : CtlReq) (s : State) : Nat :=
  max e.asks.toNat (bits (s.reg 0x7000 portClassReset) (2 * e.port.val + 1) (2 * e.port.val))

/-- What a leg takes from BUDGET, in 1/256 of a ring cycle of 0.5 ns (R379). -/
def legCost : Leg → Nat
  | .hop => 256
  | .spine => 512
  | .cross c => 256 * (match c with
    | .ucieRx => 5
    | .siteRing => 6
    | .ringHbm | .ringLp => 8
    | .ringDdr => 11)
  | .wait n mhz => n * (2000 * 256) / mhz

/-- BUDGET at the controller: each leg takes its cost, never below 0, and the request carries the integer part (R379). -/
def budgetLeft (e : CtlReq) : Nat := e.path.foldl (fun b l => b - legCost l) (256 * e.budget.toNat) / 256

/-- Read or write entries of a controller's queue (R241). -/
def queueEntries (x : Nat) (write : Bool) : Nat :=
  if x < 0x10 then (if write then 256 else 512) else if write then 64 else 128

/-- Entries of a controller's queue that partition p reserves (PT_CTLQ, R375). -/
def reservedEntries (x : Nat) (write : Bool) (p : Nat) (s : State) : Nat :=
  let v := s.reg (ptBase p + 0x110) 0
  let w := b2n write
  if x < 0x10 then (if write then 2 else 4) * bits v (8 * w + 7) (8 * w)
  else if x < 0x20 then bits v (8 * w + 23) (8 * w + 16) else bits v (8 * w + 39) (8 * w + 32)

/-- Entries that no partition reserves. -/
def sharedEntries (x : Nat) (write : Bool) (s : State) : Nat :=
  queueEntries x write - (List.range 8).foldl (fun n p => n + reservedEntries x write p s) 0

/-- The requests that hold an entry of controller x, oldest first: each takes a reserved entry of its partition, else one
that nobody reserves; hub agents take no reserved one. The others wait at their homes (R375). -/
def admitted (x : Nat) (queued : List (Nat × CtlReq)) (s : State) : List (Nat × CtlReq) :=
  (queued.foldl (fun (a : KV Nat × List (Nat × CtlReq)) e =>
    let w := b2n e.2.write
    let own := 2 * e.2.part.val + w
    let held := (kget own a.1).getD 0
    let common := (kget (16 + w) a.1).getD 0
    if e.2.port.val < 17 && held < reservedEntries x e.2.write e.2.part.val s then (kset own (held + 1) a.1, a.2 ++ [e])
    else if common < sharedEntries x e.2.write s then (kset (16 + w) (common + 1) a.1, a.2 ++ [e])
    else a) ([], [])).2

/-- The better of two real-time requests: less BUDGET first, then the older. -/
def bestOf (l : List (Nat × CtlReq)) (key : CtlReq → Nat) : Option (Nat × CtlReq) :=
  l.foldl (fun b e => match b with
    | none => some e
    | some x => if key e.2 < key x.2 then some e else some x) none

/-- The next request a slot of partition `p` issues: its class 1 requests by BUDGET, then its others by age, then
best effort by age. The list is in age order, with each request's number. -/
def nextIssue (p : Nat) (s : State) (l : List (Nat × CtlReq)) : Option (Nat × CtlReq) :=
  let el := l.filter fun e => e.2.eligible
  let mine := el.filter fun e => e.2.part.val == p && p < 8
  match bestOf (mine.filter fun e => reqClass e.2 s = 1) budgetLeft with
  | some e => some e
  | none => match mine with
    | e :: _ => some e
    | [] => el.head?

/-- Issues up to `n` requests. -/
def issueRun (p : Nat) (s : State) : Nat → List (Nat × CtlReq) → List (Nat × CtlReq)
  | 0, _ => []
  | n + 1, l => match nextIssue p s l with
    | none => []
    | some e => e :: issueRun p s n (l.filter fun x => x.1 != e.1)

/-- Counts of PT_RT_STAT for an issued class 1 request (R380). -/
def countRt (e : CtlReq) (s : State) : State :=
  if reqClass e s ≠ 1 then s
  else
    let o := ptBase e.part.val + 0x130
    let s := statAdd o 0 32 1 s
    if budgetLeft e = 0 then statAdd o 32 32 1 s else s

/-- Cause of a short slot (R376): bit 0 THERMAL, 1 SHED, 2 REFRESH, 3 OTHER. -/
def shortCause (removed : Bool) (step : Nat) (refresh capped : Bool) : Nat :=
  if removed || step = 5 || (step ≥ 1 && refresh) then 1 else if capped then 2 else if refresh then 4 else 8

/-- CONTROLLER_SLOT: the next slot; a new round takes the committed table. The requests that wait for the controller are
given oldest first. -/
def execControllerSlot (ctl : BitVec 6) (queued : List CtlReq) (room : BitVec 8) (refresh capped : Bool) (s : State) :
    Host.Outcome State Fault Refusal :=
  let x := ctl.toNat
  let c := s.ctl x
  let slot := (c.slot + 1) % 64
  let table := if slot = 0 || c.table.isEmpty then tdmTable x s else c.table
  let p := (table[slot]?).getD 15
  let removed := slotCap c.step ≤ slot
  let held := admitted x ((List.range queued.length).zip queued) s
  let order := if removed then [] else issueRun p s room.toNat held
  let waited := p < 8 && held.any fun e => e.2.part.val == p && e.2.whole
  let short := if waited && !(order.any fun e => e.2.part.val == p) then
      let (n, f) := (kget p c.short).getD (0, 0)
      kset p (n + 1, f ||| shortCause removed c.step refresh capped) c.short
    else c.short
  let s := foldS order (fun e s => countRt e.2 s) (s.setCtl x { c with slot, table, short })
  .next (if order.isEmpty then s else emit (.issue x slot (order.map fun e => e.1)) s)

/-! ### MISS_WINDOW_END (R377) -/

/-- The partition owns a slot of some controller. -/
def ownsSlot (p : Nat) (s : State) : Bool := s.ctls.any fun e => e.2.table.contains p

/-- A MISS record (R377), stamped at the start of its first window (R520). -/
def missRecord (p : Nat) (m : Nat × Nat × Nat × Nat × Nat × Nat) (s : State) : State :=
  let (start, ctl, flags, ctls, n, windows) := m
  raiseIn (routeOf s p)
    { kind := 0x20, part := p, hub := false, domain := 0, count := start,
      payload := put 0 8 ctl + put 8 8 flags + put 16 16 ctls + put 32 32 n + put 64 32 windows } s

/-- One partition at the end of a window. -/
def missWindow (start : Nat) (p : Nat) (s : State) : State :=
  let rows := s.ctls.filterMap fun e => (kget p e.2.short).map fun v => (e.1, v)
  let sum := rows.foldl (fun (a : Nat) (e : Nat × Nat × Nat) => a + e.2.1) 0
  let flags := rows.foldl (fun (a : Nat) (e : Nat × Nat × Nat) => a ||| e.2.2) 0
  let first := (rows.foldl (fun (b : Nat × Nat) (e : Nat × Nat × Nat) => if e.2.1 > b.2 then (e.1, e.2.1) else b) (0, 0)).1
  let ctl := s.reg (ptBase p + 0x120) 1
  let m := (kget p s.miss).getD {}
  let misses := ownsSlot p s && sum > bits ctl 23 8
  let s := if misses then
      let o := ptBase p + 0x128
      let s := statAdd o 0 32 1 s
      let s := if bit flags 0 then statAdd o 32 16 1 s else s
      if bit flags 1 then statAdd o 48 16 1 s else s
    else s
  let m := if misses && bit ctl 0 then { m with open_ := match m.open_ with
      | none => some (start, first, flags, rows.length, sum, 1)
      | some (st, f, fl, c, n, w) => some (st, f, fl ||| flags, c, n, w + 1) } else m
  let free := match m.last with
    | none => true
    | some t => t + 10000 ≤ s.aon
  match m.open_ with
  | some r =>
    if free then missRecord p r { s with miss := kset p { last := some s.aon, open_ := none } s.miss }
    else { s with miss := kset p m s.miss }
  | none => s

def execMissWindowEnd (s : State) : Host.Outcome State Fault Refusal :=
  let start := 100 * ((s.aon - 1) / 100)
  let s := foldS (List.range 8) (missWindow start) s
  .next { s with ctls := kmap (fun _ c => { c with short := [] }) s.ctls }

/-! ### HEAT_INTERVAL_END (R250 to R252) -/

/-- Heat of a granule: the sum of its homes' counts. -/
def granHeat (g : Nat) (s : State) : Nat :=
  (List.range 8).foldl (fun a q => a + (kget (8 * g + q) s.heat).getD 0) 0

/-- Mappings of a frame in a partition's contexts. -/
def mappingsOf (p f : Nat) (s : State) : List (Nat × Nat × Nat) :=
  (s.ctxs.filter fun e => e.2.part.val == p).flatMap fun e => e.2.segs.flatMap fun g =>
    if g.2.target = 0 then (g.2.frames.filter fun x => x.2 == f).map fun x => (e.1, g.1, x.1) else []

/-- A page's floor: the highest among the auto-tiered segments that map it; none when none does. -/
def pageFloor (p f : Nat) (s : State) : Option Nat :=
  (s.ctxs.filter fun e => e.2.part.val == p).foldl (fun a e => e.2.segs.foldl (fun a g =>
    if g.2.auto && !g.2.frame1g && g.2.target = 0 && g.2.frames.any (fun x => x.2 == f) then
      some (max (a.getD 0) g.2.floor) else a) a) none

/-- A driver's MIGRATE of a frame is fetched or dispatched. -/
def migratePending (f : Nat) (s : State) : Bool :=
  let names (w : BitVec 512) : Bool := dType w = 7 && (bytesAt w.toNat 16 8 = f || bytesAt w.toNat 24 8 = f)
  s.queues.any fun e => (e.2.fetched.any fun d => names d.word) || e.2.flight.any fun d => d.done.isNone && names d.word

/-- An UNMAP of a page that leads to a frame is in hand. -/
def unmapPending (p f : Nat) (s : State) : Bool :=
  s.shoots.any fun u => (u.pages.any fun x => x.2 == f) || (!u.started && (mappingsOf p f s).any fun e =>
    e.1 == u.ctx && e.2.1 == u.seg && u.first ≤ e.2.2 && e.2.2 < u.first + u.count)

/-- Frames of a partition's auto-tiered pages that may move (R252). -/
def autoPages (p : Nat) (s : State) : List Nat :=
  let all := ((s.ctxs.filter fun e => e.2.part.val == p).flatMap fun e => e.2.segs.flatMap fun g =>
    if g.2.auto && !g.2.frame1g && g.2.target = 0 then g.2.frames.map (·.2) else []).eraseDups
  all.filter fun f => !(s.gran (granOf f)).inMotion && !unmapPending p f s && !migratePending f s

/-- The best of a list by a strict order, first in case of ties. -/
def pick (better : Nat → Nat → Bool) : List Nat → Option Nat
  | [] => none
  | a :: t => match pick better t with
    | none => some a
    | some b => if better b a then some b else some a

/-- A free frame of the partition's pool of a tier: the lowest. -/
def poolFrame (p t : Nat) (s : State) : Option Nat :=
  (s.pool.find? fun e => e.2 == p && tierOf (e.1 * 0x200000) == t && (s.gran e.1).mapcount = 0).map
    fun e => e.1 * 0x200000

/-- Moves a page of the partition into a pool frame: none while the migration agent has its four moves, else whether it was
started (R246, R247). -/
def autoMove (p f d : Nat) (s : State) : Option Bool × State :=
  let maps := mappingsOf p f s
  if maps.length > 16 || (moveRefusal p f d false maps s).isSome then (some false, s)
  else if agentMoves d s ≥ 4 then (none, s)
  else
    let s := { s with pool := kdel (granOf d) s.pool, moved := kset (granOf d) p s.moved }
    (some true, moveStart { part := p, src := f, dst := d, g1 := false, maps, from_ := none } s)

/-- What R251 step 3 does next for a partition's round: the round that is left, none when it stops. `again` asks for another
look at once. -/
def autoNext (p : Nat) (r : Auto) (s : State) : Option Auto × Bool × State :=
  let heat (f : Nat) : Nat := (kget (granOf f) r.heat).getD 0
  let hotter (a b : Nat) : Bool := heat a > heat b || (heat a = heat b && a < b)
  let colder (a b : Nat) : Bool := heat a < heat b || (heat a = heat b && a < b)
  let start (f d : Nat) (next : Auto) (s : State) : Option Auto × Bool × State :=
    match autoMove p f d s with
    | (none, s) => (some r, false, s)
    | (some true, s) => (some { next with left := r.left - 1 }, true, s)
    | (some false, s) => (none, false, s)
  match r.waits with
  | some (f, c) =>
    if s.moves.any fun m => m.from_.isNone && m.src == c then (some r, false, s)
    else match poolFrame p 0 s with
      | some d => if r.left = 0 then (none, false, s) else start f d { r with waits := none } s
      | none => (none, false, s)
  | none =>
    if r.left = 0 then (none, false, s)
    else match pick hotter (r.pages.filter fun f => tierOf f ≠ 0 && heat f ≥ r.promoteMin) with
    | none => (none, false, s)
    | some f =>
      let rest := r.pages.filter (· ≠ f)
      match poolFrame p 0 s with
      | some d => start f d { r with pages := rest } s
      | none =>
        let dest (c : Nat) : Option Nat := match pageFloor p c s with
          | some 0 => match poolFrame p 1 s with
            | some d => some d
            | none => poolFrame p 2 s
          | some 1 => poolFrame p 1 s
          | _ => none
        let cands := rest.filter fun c => tierOf c = 0 && heat c ≤ r.demoteMax && 2 * heat c < heat f && (dest c).isSome
        match pick colder cands with
        | none => (none, false, s)
        | some c => match dest c with
          | none => (none, false, s)
          | some d => start c d { r with pages := rest.filter (· ≠ c), waits := some (f, c) } s

/-- Goes on with a partition's round as far as it can. -/
def autoRun (p : Nat) : Nat → State → State
  | 0, s => s
  | n + 1, s => match kget p s.autos with
    | none => s
    | some r =>
      let (left, again, s) := autoNext p r s
      let s := { s with autos := match left with
        | some k => kset p k s.autos
        | none => kdel p s.autos }
      if again then autoRun p n s else s

/-- Rounds in hand go on; a partition reset and shed level L1 or deeper end them (R252). -/
def settleAutos (s : State) : State :=
  if s.autos.isEmpty then s
  else if s.power.shed ≥ 1 then { s with autos := [] }
  else foldS (s.autos.map (·.1)) (fun p s =>
    if (s.part p).resetting.isSome then { s with autos := kdel p s.autos } else autoRun p 600 s) s

/-- HEAT_INTERVAL_END: auto-tiering for each partition at L0, then every count halved. -/
def execHeatIntervalEnd (s : State) : Host.Outcome State Fault Refusal :=
  let grans : List Nat := (s.heat.map fun e => e.1 / 8).eraseDups
  let sums : KV Nat := grans.foldl (fun m g => kset g (granHeat g s) m) []
  let s := { s with heatVal := sums, heat := kmap (fun _ v => v / 2) s.heat }
  if s.power.shed ≥ 1 then .next { s with autos := [] }
  else
    let c := s.reg 0x2010 0x4004004010
    .next (settleAutos (foldS ((List.range 8).filter fun p => (s.part p).resetting.isNone) (fun p s =>
      { s with autos := kset p { left := bits c 15 8, pages := autoPages p s, heat := sums, promoteMin := bits c 31 16,
                                 demoteMax := bits c 47 32 } s.autos }) s))

end Sys2Proof.Machine
end

