-- ==== Sys2Proof/Machine/Shed.lean ====
section
/-!
DEFINITION. Shed levels: their triggers, what a change of level does to the rest of the hub, and the SHED events
(R508 to R511).
-/
namespace Sys2Proof.Machine

/-! ### Triggers (R507, R508) -/

/-- Core rail below nominal that triggers a level, in 0.1 %; none for L6. -/
def railThreshold (l : Nat) : Nat :=
  match l with
  | 1 => 30
  | 2 => 50
  | 3 => 70
  | 4 => 90
  | 5 => 120
  | _ => 100000

/-- STORE_PCT below which a level triggers. -/
def storeThreshold (l : Nat) : Nat :=
  match l with
  | 1 => 80
  | 2 => 65
  | 3 => 50
  | 4 => 40
  | 5 => 25
  | _ => 15

def levels : List Nat := [1, 2, 3, 4, 5, 6]

/-- A trigger of a level holds. -/
def trigger (x : Power) (l : Nat) : Bool :=
  let rail := (kget l x.railTrig).isSome
  let store := (kget l x.storeTrig).isSome
  if l = 6 then store && x.pwrFail
  else rail || store || (l = 4 && (x.fast || x.pwrFail))

/-- The highest level whose trigger holds. -/
def triggerLevel (x : Power) : Nat := levels.foldl (fun m l => if trigger x l then max m l else m) 0

/-- Rail triggers after a reading: they clear 1 % past their threshold. -/
def railTrigs (drop : Nat) (t : KV Bool) : KV Bool :=
  levels.foldl (fun t l =>
    if railThreshold l ≤ drop then kset l true t else if drop + 10 ≤ railThreshold l then kdel l t else t) t

/-- Store triggers after a reading: they clear 5 points past their threshold. -/
def storeTrigs (pct : Nat) (t : KV Bool) : KV Bool :=
  levels.foldl (fun t l =>
    if pct < storeThreshold l then kset l true t else if storeThreshold l + 5 ≤ pct then kdel l t else t) t

/-- TRIGGERS of the SHED payload (R512). -/
def triggerBits (x : Power) : Nat :=
  b2n (levels.any fun l => l ≤ 5 && (kget l x.railTrig).isSome) + 2 * b2n (levels.any fun l => (kget l x.storeTrig).isSome) +
  4 * b2n x.fast + 8 * b2n x.pwrFail

/-! ### SHED events (R511, R512) -/

/-- Raises a SHED event for a change from `prev` that reached `peak`. -/
def shedRaise (dir prev peak : Nat) (s : State) : State :=
  let x := s.power
  hubEvent 0x41 1 (put 0 8 x.shed + put 8 8 prev + put 16 8 (triggerBits x) + put 24 8 peak)
    { s with power := { x with shedLast := kset dir s.aon x.shedLast, shedWait := kdel dir x.shedWait } }

/-- The event of a change; within 10 ms of the last of its direction it waits for the next. -/
def shedNote (dir prev : Nat) (s : State) : State :=
  let x := s.power
  let (from_, peak) := match kget dir x.shedWait with
    | some (p, k) => (p, max k x.shed)
    | none => (prev, x.shed)
  let soon := match kget dir x.shedLast with
    | some t => decide (s.aon < t + 1000000)
    | none => false
  if soon then { s with power := { x with shedWait := kset dir (from_, peak) x.shedWait } }
  else shedRaise dir from_ peak s

/-- Events that waited are raised when their interval ends. -/
def shedTell (s : State) : State :=
  foldS (s.power.shedWait.map (·.1)) (fun d s =>
    match kget d s.power.shedWait, kget d s.power.shedLast with
    | some (p, k), some t => if s.aon < t + 1000000 then s else shedRaise d p k s
    | some (p, k), none => shedRaise d p k s
    | none, _ => s) s

/-! ### Changes of level (R508, R510) -/

/-- Rolls every open transaction back (R361, R362); a commit that has started goes on. -/
def rollbackAll (s : State) : State :=
  let started (id : Nat) : Bool := s.changes.any fun c => c.txn == id
  { s with txnAborts := satAdd 16 s.txnAborts (kcount (fun id _ => !started id) s.txns)
           txns := kfilter (fun id _ => started id) s.txns }

/-- L4 is reached: transactions are rolled back, moves follow R249, cluster caches write back and keep nothing, partner lines
are recalled (R222, R362). -/
def enterL4 (s : State) : State :=
  let s := abandonMoves (fun _ => true) stShed (rollbackAll s)
  recallOwned (foldS (s.clusters.map (·.1)) clusterGone s)

/-- L6 is reached: the journal goes to flash, with a started commit that has not reached step 6 (R363). -/
def enterL6 (s : State) : State :=
  { s with flashJournal := some (s.lastCommit, ((s.changes.find? fun c => c.txn != 0).map (·.txn)).getD 0, s.aon) }

/-- The level rises, with the actions of every level passed. -/
def shedRise (l : Nat) (s : State) : State :=
  let old := s.power.shed
  if l ≤ old then s
  else
    let s := smbSet 2 { s with power := { s.power with
      shed := l, peak := max s.power.peak l, entries := satAdd 16 s.power.entries 1 } }
    let s := if old < 4 && 4 ≤ l then enterL4 s else s
    let s := { s with halted := s.halted || decide (5 ≤ l) }
    let s := if l = 6 then enterL6 s else s
    shedNote 0 old (drainSettle (slShed l (shedSites l s)))

/-- After a change of a trigger: the level rises as soon as one holds. -/
def shedCheck (s : State) : State := if s.power.shed = 6 then s else shedRise (triggerLevel s.power) s

/-- RAIL_SAMPLE (R508): the lowest reading of the eight quadrant monitors, in 0.1 % below nominal. -/
def execRailSample (drop : BitVec 8) (s : State) : Host.Outcome State Fault Refusal :=
  let x := s.power
  .next (shedCheck { s with power := { x with railDrop := drop.toNat, railTrig := railTrigs drop.toNat x.railTrig } })

/-- PWR_FAIL_N changes (R508): low holds the level at L4 or deeper. -/
def execPwrFailN (low : Bool) (s : State) : Host.Outcome State Fault Refusal :=
  .next (shedCheck { s with power := { s.power with pwrFail := low } })

/-- SHED_LEVEL_FALL (R510): 100 ms have passed without a trigger of the level or a higher one; L6 stays. -/
def execShedLevelFall (s : State) : Host.Outcome State Fault Refusal :=
  let old := s.power.shed
  if old = 0 || old = 6 || old ≤ triggerLevel s.power then .next s
  else
    let s := { s with power := { s.power with shed := old - 1 }, halted := s.halted && decide (4 < old) }
    .next (quiesceSettle (shedNote 1 old (drainSettle (slShed (old - 1) (shedSites (old - 1) s)))))

end Sys2Proof.Machine
end

