-- ==== Sys2Proof/Machine/Sites.lean ====
section
/-!
DEFINITION. Partner sites: the frames and sideband messages of a die, admission, grants, power and reset (R219, R220, R395 to
R416).
-/
namespace Sys2Proof.Machine

/-! ### SITE_RESET (R413, R414) -/

/-- SITE_RESET replies when the site is ADMITTED or FAILED again; it restarts the count of resets. -/
def execSiteReset (p : Pkt) (site : BitVec 8) (s : State) : Host.Outcome State Fault Refusal :=
  let n := site.toNat
  if packetWaits p [objSite n] s || (s.site n).waiters.any (samePkt p) then .next s else
  match headerCheck p { code := 0x500, col := .f } (p.paramLen = 8) s with
  | some r => .next (reply p 0x500 r s)
  | none =>
    if n > 3 then .next (reply p 0x500 (bad stBadParam 32) s)
    else
      let x := s.site n
      if x.state = 0 then .next (reply p 0x500 (bad stNotPermitted) s)
      else if x.resetting.isSome || x.step ≠ 0 || x.waits then .next (reply p 0x500 (bad stBusy) s)
      else
        let s := s.setSite n { x with resets := [], waiters := x.waiters ++ [p] }
        if x.state = 7 then .next (siteEnded n (siteEvent n 3 1 s))
        else if x.state = 1 then
          .next (siteAgain n (siteEvent n 3 1 (s.setSite n { s.site n with resets := [s.opSeconds] })))
        else .next (siteReset n 1 s)

/-! ### Admission (R397, R399, R400) -/

/-- SITE_LINK_UP: the reset wire is released and the link trains; the declaration is requested. -/
def execSiteLinkUp (site : Fin 4) (rate modules : BitVec 3) (repaired : BitVec 32) (s : State) :
    Host.Outcome State Fault Refusal :=
  let n := site.val
  let x := s.site n
  let top := ((kget n s.siteRecs).map fun r => rateCode r.maxRate.toNat).getD 0
  let m := modules.toNat
  if x.step ≠ 2 || rate = 0 || rate.toNat > top || (m ≠ 1 && m ≠ 2 && m ≠ 4) then .next s
  else
    let s := emit (.pin pinSiteReset n 0)
      (s.setSite n { x with step := 5, rate := rate.toNat, modules := m, repaired := repaired.toNat, retrains := 0 })
    .next (emit (.sideband n 0x01 0) s)

def execAdmissionStepTimeout (site : Fin 4) (powerGood : Bool) (s : State) : Host.Outcome State Fault Refusal :=
  let n := site.val
  let step := (s.site n).step
  if step = 2 then .next (siteEnded n (siteFail n (if powerGood then 2 else 1) s))
  else if step = 5 then .next (siteEnded n (siteFail n 3 s)) else .next s

def execSiteAdmissionTimeout (site : Fin 4) (s : State) : Host.Outcome State Fault Refusal :=
  let n := site.val
  if (s.site n).step = 0 then .next s else .next (siteEnded n (siteFail n 8 s))

/-- A field of the declaration (R402): bytes at an offset. -/
def declAt (d : BitVec 256) (i n : Nat) : Nat := bytesAt d.toNat i n

/-- The first check of R399 that fails, as a FAIL_CODE. -/
def declFails (r : SiteRec) (d : BitVec 256) : Option Nat :=
  let f := declAt d 5 1
  if (r.vendor ≠ 0xFFFF && r.vendor.toNat ≠ declAt d 0 2) || (r.device ≠ 0xFFFF && r.device.toNat ≠ declAt d 2 2) then some 4
  else if declAt d 6 2 = 0 || declAt d 6 2 > r.budgetCap.toNat then some 5
  else if r.protocols.toNat &&& bits f 1 0 = 0 then some 6
  else if declAt d 8 2 < 64 || declAt d 10 2 < 64 || declAt d 12 2 < 64 || declAt d 14 2 < 160 ||
      declAt d 16 2 = 0 || declAt d 16 2 > 4096 || f / 32 ≠ 0 || declAt d 18 14 ≠ 0 then some 7 else none

/-- Credits by channel: REQ, SNP, RSP, DAT. -/
def creditsOf (a b c d : Nat) : KV Nat := [(0, a), (1, b), (2, c), (3, d)]

/-- Step 8 of R397: the credits of R404 are returned, and the site is ADMITTED. -/
def siteAdmit (n : Nat) (d : BitVec 256) (cxl : Bool) (s : State) : State :=
  let x := s.site n
  let s := s.setSite n { x with
    state := 4, step := 0, cxl, caches := bit (declAt d 5 1) 2, admissions := satAdd 8 x.admissions 1,
    decl := declAt d 0 8, rx := creditsOf 1024 0 512 2048,
    tx := creditsOf (declAt d 8 2) (declAt d 10 2) (declAt d 12 2) (declAt d 14 2) }
  let s := s.extend 4 (n + 256 * d.toNat) 33
  siteEnded n (siteEvent n 1 0 (if cxl then s else emit (.credit n 1024 512 2048) s))

/-- DECLARE: the four declaration messages are checked, and the protocol is negotiated; `accepts` is the protocol the die
takes, 0 Amirvaken, 1 CXL, none when it takes none of those offered. -/
def execDeclare (site : Fin 4) (decl : BitVec 256) (accepts : Option (BitVec 1)) (s : State) :
    Host.Outcome State Fault Refusal :=
  let n := site.val
  if (s.site n).step ≠ 5 then .next s
  else match kget n s.siteRecs with
    | none => .next s
    | some r => match declFails r decl with
      | some code => .next (siteEnded n (siteFail n code s))
      | none =>
        let offered := r.protocols.toNat &&& bits (declAt decl 5 1) 1 0
        let s := s.setSite n { s.site n with state := 3 }
        match accepts with
        | none => .next (siteEnded n (siteFail n 6 s))
        | some c =>
          if !bit offered c.toNat then .next (siteEnded n (siteFail n 6 s))
          else .next (siteAdmit n decl (c = 1) s)

/-! ### Frames (R398, R403, R404, R220) -/

/-- A frame arrives: `.ok` when it goes on to its checks with its credits taken, `.error` when it has ended. -/
def frameIn (n ch cost : Nat) (cr : KV Nat) (nop bad : Bool) (s : State) : Except State State :=
  let x := s.site n
  if x.cxl && x.state ≥ 3 then .error s
  else if x.state = 2 || x.state = 3 then
    .error (if nop then s else s.setSite n { x with errEarly := satAdd 16 x.errEarly 1 })
  else if x.state ≠ 4 && x.state ≠ 5 then .error s
  else if bad || (kget ch x.rx).getD 0 < cost then .error (protocolError n s)
  else
    let add (c : Nat) (t : KV Nat) : KV Nat := kset c ((kget c t).getD 0 + (kget c cr).getD 0) t
    let s := s.setSite n { x with tx := add 3 (add 2 (add 1 (add 0 x.tx))) }
    let s := if cost = 0 then s
      else emit (.credit n (if ch = 0 then cost else 0) (if ch = 2 then cost else 0) (if ch = 3 then cost else 0)) s
    .ok (sitePump n s)

/-- NOP_FRAME: credits only. -/
def execNopFrame (site : Fin 4) (crReq crSnp crRsp crDat : BitVec 8) (malformed : Bool) (s : State) :
    Host.Outcome State Fault Refusal :=
  if (s.site site.val).resetting.isSome then .next s
  else match frameIn site.val 0 0 (creditsOf crReq.toNat crSnp.toNat crRsp.toNat crDat.toNat) true malformed s with
    | .error s => .next s
    | .ok s => .next s

/-- DOORBELL (R406): TAIL of the die's own queue, or discarded and counted. -/
def execDoorbell (site : Fin 4) (queue : BitVec 14) (tail : BitVec 32) (part : Fin 8) (crReq crSnp crRsp crDat : BitVec 8)
    (malformed : Bool) (s : State) : Host.Outcome State Fault Refusal :=
  let n := site.val
  let q := queue.toNat
  if (s.site n).resetting.isSome then .next s
  else match frameIn n 0 2 (creditsOf crReq.toNat crSnp.toNat crRsp.toNat crDat.toNat) false malformed s with
    | .error s => .next s
    | .ok s =>
      let drop (s : State) : State := s.setSite n { s.site n with errDb := satAdd 16 (s.site n).errDb 1 }
      match s.queue q with
      | none => .next (drop s)
      | some k =>
        if k.ownerClass ≠ 2 || k.site ≠ n || ((s.ctx k.ctx).map fun c => c.part != part).getD true || k.state ≠ 1 then
          .next (drop s)
        else .next (doorbell q tail (if (tail - k.tail).toNat ≥ 2 ^ 31 then drop s else s))

/-- The message carries data. -/
def hasData : MOp → Bool
  | .wrFull | .wrPartial | .wbDirty | .data | .snpData => true
  | _ => false

def isReq (op : MOp) : Bool := reqCode op != 0

/-- The fields of a message and of its frame header keep R202, R203 and R403. -/
def frameFormOk (f : DieFrame) : Bool :=
  let m := f.msg
  let req := isReq m.op
  let aux := m.aux.toNat
  !f.malformed && (match m.op with
    | .reserved _ => false
    | _ => true) &&
  (req || !m.stream) && (m.op == .rdShared || !m.noE) && (hasData m.op || !m.poison) &&
  ([MOp.data, .grant, .snpRsp, .snpData].contains m.op || m.state == .I) &&
  ([MOp.atomic, .data, .grant, .cmp].contains m.op || aux = 0) && (m.op != .atomic || aux / 256 = 0) &&
  (m.op == .atomic || m.addr.toNat % 64 = 0) &&
  (m.op != .atomic || ((bit aux 4 || (m.operand.toNat < 2 ^ 32 && m.compare.toNat < 2 ^ 32)) &&
    (bits aux 3 0 = 9 || m.compare = 0))) &&
  (if req then f.cls != 0 && (f.cls == 1 || f.budget = 0) && m.dst = 0xFE
    else f.cls = 0 && f.budget = 0 && m.part = 0 && m.ctx = 0)

/-- A request breaks R205, or a die that does not cache sends more than R402 allows. -/
def reqBreaks (n : Nat) (m : Msg) (s : State) : Bool :=
  let x := s.site n
  m.src.toNat != siteAgent n || (kget m.txn.toNat x.reqs).isSome || decide (x.reqs.length ≥ 4096) ||
  (x.reqs.any fun e => e.2 / 64 == m.addr.toNat / 64) ||
  (!x.caches && !([MOp.rdOnce, .wrFull, .wrPartial, .atomic].contains m.op)) ||
  (m.op == .wbDirty && !(((s.line (m.addr.toNat / 64)).dir.bind (·.owner)) == some (siteAgent n) ||
    (kget (m.addr.toNat / 64) x.took).isSome))

/-- The stop checks a request and forwards it (R204, R405). -/
def stopReq (n : Nat) (m : Msg) (s : State) : State :=
  let x := s.site n
  let pa := m.addr.toNat
  let cmp (st : Nat) (s : State) : State := sendMsg (replyTo m .cmp .I st 0 false) s
  if !bit x.reqMask m.part.val || x.withdraws.any (fun p => pnum p == m.part.val) then cmp stNotPermitted s
  else match s.ctx m.ctx.toNat with
  | none => cmp stNotPermitted s
  | some k =>
    if k.part != m.part then cmp stNotPermitted s
    else if ctxLost k then cmp stContextLost s
    else if x.state = 5 && m.op != .wbDirty && m.op != .evictClean then cmp stShed s
    else if 0x40000000000 ≤ pa && pa < 0x400000000000 then
      let t := siteOf pa
      let y := s.site t
      if t = n then cmp stBadParam s
      else if !([MOp.rdOnce, .wrFull, .wrPartial, .atomic].contains m.op) || !y.apValid || y.apOwner ≠ m.part.val then
        cmp stNotPermitted s
      else
        let (st, s) := apertureSend t m { who := 0, pa, data := m.op == .rdOnce || m.op == .atomic,
                                          orig := some (n, m.txn) } s
        match st with
        | none => cmp stBusy s
        | some st => if st = stOk then s else cmp st s
    else homeAccept { m with dst := homeAgent (pa / 64), hubAgent := false } s

/-- The snoop that a busy line sent to an agent. -/
def snoopSent (t : HomeTx) (l : Line) (a : Nat) (s : State) : MOp :=
  if t.why != .request then .snpRecall
  else (((snoopsFor t.req (l.dir.getD {}) s).find? fun e => e.1 = a).map (·.2)).getD .snpRecall

/-- An answer that R207 allows to a snoop. -/
def answerLegal (snp op : MOp) (st : LSt) : Bool :=
  match snp with
  | .snpShared => if op == .snpData then st == .O || st == .I else st == .I || st == .S
  | .snpCurrent => if op == .snpData then st == .M || st == .O || st == .I else st == .I || st == .S || st == .E
  | _ => st == .I

/-- A snoop answer of the die matches an outstanding snoop; dirty data comes from the OWNER (R220). -/
def snoopAnswerOk (n : Nat) (m : Msg) (s : State) : Bool :=
  let k := m.addr.toNat / 64
  let l := s.line k
  match l.tx with
  | none => false
  | some t =>
    t.waiting.contains (siteAgent n) && m.txn == t.snpTxn && m.src.toNat == siteAgent n && m.dst == homeAgent k &&
    (m.op != .snpData || t.unknown || (l.dir.bind (·.owner)) == some (siteAgent n)) &&
    answerLegal (snoopSent t l (siteAgent n) s) m.op m.state

/-- Notes that a snoop takes the die's ownership of a line. -/
def noteTaken (n : Nat) (m : Msg) (s : State) : State :=
  let k := m.addr.toNat / 64
  let x := s.site n
  if ((s.line k).dir.bind (·.owner)) == some (siteAgent n) && m.state != .O && m.state != .M then
    s.setSite n { x with took := kset k true x.took }
  else s

/-- The line whose grant an ACK of the die matches: its own, or the destination's where a move forwarded the request (R247). -/
def ackLine (n : Nat) (m : Msg) (s : State) : Option Nat :=
  (s.lines.find? fun e => match e.2.tx with
    | none => false
    | some t => t.ackOf.isSome && t.req.src.toNat == siteAgent n && t.req.txn == m.txn && m.dst == homeAgent (m.addr.toNat / 64) &&
        t.req.addr.toNat / 64 == m.addr.toNat / 64 && m.src.toNat == siteAgent n).map (·.1)

/-- The message of a frame that passed its form and credit checks. -/
def msgIn (n : Nat) (m : Msg) (s : State) : State :=
  let m := { m with hubAgent := false, who := 0 }
  match m.op with
  | .snpRsp | .snpData =>
    if snoopAnswerOk n m s then siteSettle n (settleMoves (homeAnswer m (noteTaken n m s))) else protocolError n s
  | .ack => match ackLine n m s with
    | some k => homeAck { m with fwd := some k } s
    | none => protocolError n s
  | .data | .cmp =>
    let (ok, t) := apAnswer n m s
    if ok then t else protocolError n s
  | .rdShared | .rdUnique | .upgrade | .rdOnce | .wrFull | .wrPartial | .wbDirty | .evictClean | .atomic =>
    if reqBreaks n m s then protocolError n s
    else
      let x := s.site n
      stopReq n m (s.setSite n { x with reqs := kset m.txn.toNat (m.addr.toNat / 64 * 64 + reqCode m.op) x.reqs,
                                        took := kdel (m.addr.toNat / 64) x.took })
  | _ => protocolError n s

/-- MSG (R398, R404, R405, R413): the stop takes a message frame. A site in reset takes snoop answers alone. -/
def execMsg (site : Fin 4) (f : DieFrame) (media : MediaList) (s : State) : Host.Outcome State Fault Refusal :=
  let n := site.val
  let m := f.msg
  if (s.site n).resetting.isSome then
    if (m.op == .snpRsp || m.op == .snpData) && frameFormOk f && snoopAnswerOk n m s then
      let t := siteSettle n (settleMoves (homeAnswer m { s with media }))
      .next { t with media := [] }
    else .next s
  else match frameIn n (chanOf m.op) (1 + unitsOf m.op)
      (creditsOf f.crReq.toNat f.crSnp.toNat f.crRsp.toNat f.crDat.toNat) false (!frameFormOk f) s with
    | .error s => .next s
    | .ok s => .next { msgIn n m { s with media } with media := [] }

/-! ### Timeouts and link loss (R35, R219, R407, R413, R414) -/

/-- SNOOP_TIMEOUT (R219). -/
def execSnoopTimeout (site : Fin 4) (line : BitVec 42) (s : State) : Host.Outcome State Fault Refusal :=
  let n := site.val
  let owes := ((s.line line.toNat).tx.map fun t => t.waiting.contains (siteAgent n)).getD false
  if !owes then .next s
  else
    let s := cohErr (homeOf (64 * line.toNat)) (8 + n) (settleMoves (snoopLost n line.toNat s))
    .next (siteSettle n (siteReset n 4 (s.setSite n { s.site n with errTimeout := satAdd 16 (s.site n).errTimeout 1 })))

/-- APERTURE_TIMEOUT (R407). -/
def execApertureTimeout (site : Fin 4) (txn : BitVec 12) (s : State) : Host.Outcome State Fault Refusal :=
  let n := site.val
  let x := s.site n
  match kget txn.toNat x.apq with
  | none => .next s
  | some r =>
    let s := s.setSite n { x with apq := kdel txn.toNat x.apq, errTimeout := satAdd 16 x.errTimeout 1 }
    .next (siteReset n 5 (apDone n r stTimeout 0 false s))

def execSiteLinkLoss (site : Fin 4) (s : State) : Host.Outcome State Fault Refusal :=
  .next (siteReset site.val 2 s)

/-- LANE_REPAIR (R414): the link retrains with fewer modules, or is lost. -/
def execLaneRepair (site : Fin 4) (modules : BitVec 3) (repaired : BitVec 32) (retrained : Bool) (s : State) :
    Host.Outcome State Fault Refusal :=
  let n := site.val
  let x := s.site n
  let m := modules.toNat
  if (x.state ≠ 4 && x.state ≠ 5) || x.resetting.isSome then .next s
  else if !retrained then .next (siteReset n 2 s)
  else if (m ≠ 1 && m ≠ 2) || m ≥ x.modules then .next s
  else
    let x := { x with modules := m, repaired := repaired.toNat, retrains := satAdd 16 x.retrains 1 }
    .next (siteEvent n 6 0 (s.setSite n x))

/-! ### Shed acknowledgement (R412) -/

def execShedAck (site : Fin 4) (level action : BitVec 8) (s : State) : Host.Outcome State Fault Refusal :=
  let n := site.val
  let x := s.site n
  if action = 1 && x.quiesce = some level.toNat then .next (s.setSite n { x with quiesce := none }) else .next s

def execQuiesceTimeout (site : Fin 4) (s : State) : Host.Outcome State Fault Refusal :=
  let n := site.val
  let x := s.site n
  if x.quiesce.isNone then .next s else .next (siteEvent n 4 0 (s.setSite n { x with quiesce := none }))

/-! ### CXL (R408, R409) -/

/-- The single partition of a site's REQ_MASK. -/
def onlyPart (mask : Nat) : Option (Fin 8) :=
  if popCount 8 mask = 1 then ((List.range 8).find? fun p => bit mask p).map fun p => Fin.ofNat 8 p else none

/-- A CXL request from the die, mapped onto the protocol: the stop supplies partition and context. -/
def cxlReq (op : MOp) (site : Fin 4) (tag : BitVec 12) (addr : BitVec 48) (noE : Bool) (data : BitVec 512) (mask : BitVec 64)
    (media : MediaList) (s : State) : State :=
  let n := site.val
  let x := s.site n
  if !x.cxl || (x.state ≠ 4 && x.state ≠ 5) || x.resetting.isSome then s
  else
    let m : Msg := { op, noE, txn := tag, src := BitVec.ofNat 8 (siteAgent n), dst := 0xFE,
                     addr := BitVec.ofNat 48 (addr.toNat / 64 * 64), data, mask, ctx := BitVec.ofNat 20 x.cxlCtx,
                     part := (onlyPart x.reqMask).getD 0 }
    if reqBreaks n m s then protocolError n s
    else
      let s := s.setSite n { x with reqs := kset tag.toNat (m.addr.toNat / 64 * 64 + reqCode op) x.reqs }
      if (onlyPart x.reqMask).isNone then sendMsg (replyTo m .cmp .I stNotPermitted 0 false) s
      else { stopReq n m { s with media } with media := [] }

def execRdcurr (site : Fin 4) (tag : BitVec 12) (addr : BitVec 48) (media : MediaList) (s : State) :
    Host.Outcome State Fault Refusal := .next (cxlReq .rdOnce site tag addr false 0 0 media s)

def execRdshared (site : Fin 4) (tag : BitVec 12) (addr : BitVec 48) (media : MediaList) (s : State) :
    Host.Outcome State Fault Refusal := .next (cxlReq .rdShared site tag addr true 0 0 media s)

def execRdany (site : Fin 4) (tag : BitVec 12) (addr : BitVec 48) (media : MediaList) (s : State) :
    Host.Outcome State Fault Refusal := .next (cxlReq .rdShared site tag addr false 0 0 media s)

def execRdown (site : Fin 4) (tag : BitVec 12) (addr : BitVec 48) (media : MediaList) (s : State) :
    Host.Outcome State Fault Refusal := .next (cxlReq .rdUnique site tag addr false 0 0 media s)

def execRdownnodata (site : Fin 4) (tag : BitVec 12) (addr : BitVec 48) (media : MediaList) (s : State) :
    Host.Outcome State Fault Refusal := .next (cxlReq .upgrade site tag addr false 0 0 media s)

def execDirtyevict (site : Fin 4) (tag : BitVec 12) (addr : BitVec 48) (data : BitVec 512) (media : MediaList)
    (s : State) : Host.Outcome State Fault Refusal := .next (cxlReq .wbDirty site tag addr false data 0 media s)

def execCleanevict (site : Fin 4) (tag : BitVec 12) (addr : BitVec 48) (data : BitVec 512) (s : State) :
    Host.Outcome State Fault Refusal := .next (cxlReq .evictClean site tag addr false data 0 [] s)

def execCleanevictnodata (site : Fin 4) (tag : BitVec 12) (addr : BitVec 48) (s : State) :
    Host.Outcome State Fault Refusal := .next (cxlReq .evictClean site tag addr false 0 0 [] s)

def execItomwr (site : Fin 4) (tag : BitVec 12) (addr : BitVec 48) (data : BitVec 512) (media : MediaList) (s : State) :
    Host.Outcome State Fault Refusal := .next (cxlReq .wrFull site tag addr false data 0 media s)

def execWrcur (site : Fin 4) (tag : BitVec 12) (addr : BitVec 48) (data : BitVec 512) (media : MediaList) (s : State) :
    Host.Outcome State Fault Refusal := .next (cxlReq .wrFull site tag addr false data 0 media s)

def execWowrinvf (site : Fin 4) (tag : BitVec 12) (addr : BitVec 48) (data : BitVec 512) (media : MediaList)
    (s : State) : Host.Outcome State Fault Refusal := .next (cxlReq .wrFull site tag addr false data 0 media s)

def execWowrinv (site : Fin 4) (tag : BitVec 12) (addr : BitVec 48) (data : BitVec 512) (mask : BitVec 64)
    (media : MediaList) (s : State) : Host.Outcome State Fault Refusal :=
  .next (cxlReq .wrPartial site tag addr false data mask media s)

/-- One line of a CXL.io access to a tier address: a read, a full or a partial write; its answer is a completion. -/
def cxlIoLine (n : Nat) (write : Bool) (mask : Nat) (data : BitVec 512) (k : Nat) (s : State) : State :=
  let x := s.site n
  let op : MOp := if !write then .rdOnce else if mask = 2 ^ 64 - 1 then .wrFull else .wrPartial
  let m : Msg := { op, src := BitVec.ofNat 8 (siteAgent n), dst := 0xFE, addr := BitVec.ofNat 48 (64 * k), data,
                   mask := BitVec.ofNat 64 mask, ctx := BitVec.ofNat 20 x.cxlCtx, part := (onlyPart x.reqMask).getD 0,
                   who := whoCxlIo n }
  if (onlyPart x.reqMask).isNone then sendMsg (replyTo m .cmp .I stNotPermitted 0 false) s
  else if tierOf (64 * k) = 3 then sendMsg (replyTo m .cmp .I stBadParam 0 false) s
  else stopReq n m s

/-- CXL_IO_MEMORY_REQUEST (R408): the lines of the request, each with its byte mask and data. -/
def execCxlIoMemoryRequest (site : Fin 4) (write : Bool) (line : BitVec 42) (parts : List (BitVec 64 × BitVec 512))
    (media : MediaList) (s : State) : Host.Outcome State Fault Refusal :=
  let n := site.val
  let x := s.site n
  if !x.cxl || (x.state ≠ 4 && x.state ≠ 5) || x.resetting.isSome then .next s
  else .next { foldS ((List.range parts.length).zip parts)
    (fun e s => cxlIoLine n write e.2.1.toNat e.2.2 (line.toNat + e.1) s) { s with media } with media := [] }

/-! ### SITE_GRANT (R410) -/

def grantForm (site : Nat) : Option OpRes := if site > 3 then some (bad stBadParam 32) else none

def infoGrant : OpInfo := { code := 0x501, col := .p, stageable := true }

/-- The refusal of a grant on a CXL site. -/
def grantCxlRefused (p : Pkt) (n cxlCtx : Nat) (s : State) : Bool :=
  let x := s.site n
  x.cxl && (x.reqMask &&& (255 - 2 ^ pnum p) ≠ 0 || ((s.ctx cxlCtx).map fun k => k.part.val != pnum p).getD true)

def actGrantRequest (p : Pkt) (n cxlCtx : Nat) (s : State) : OpRes × State :=
  let x := s.site n
  if grantCxlRefused p n cxlCtx s then (bad stBadParam, s)
  else ({}, s.setSite n { x with reqMask := x.reqMask ||| 2 ^ pnum p, cxlCtx })

def actGrantAperture (p : Pkt) (n cxlCtx : Nat) (s : State) : OpRes × State :=
  let x := s.site n
  if x.apValid && x.apOwner ≠ pnum p then (bad stNotPermitted, s)
  else if grantCxlRefused p n cxlCtx s then (bad stBadParam, s)
  else ({}, s.setSite n { x with reqMask := x.reqMask ||| 2 ^ pnum p, cxlCtx, apValid := true, apOwner := pnum p })

/-- The checks of WITHDRAW. -/
def withdrawBusy (p : Pkt) (n : Nat) (s : State) : Bool :=
  (s.queues.any fun e => e.2.part.val == pnum p && e.2.ownerClass == 2 && e.2.site == n) ||
  (s.ctxs.any fun e => e.2.part.val == pnum p && e.2.segs.any fun g => g.2.target == 3 && g.2.tgt == n)

/-- WITHDRAW: the grants go. -/
def actGrantWithdraw (p : Pkt) (n : Nat) (s : State) : OpRes × State :=
  if withdrawBusy p n s then (bad stBusy, s)
  else
    let x := s.site n
    let mine := x.apValid && x.apOwner = pnum p
    let s := s.setSite n { x with reqMask := x.reqMask &&& (255 - 2 ^ pnum p), apValid := x.apValid && !mine,
                                  apOwner := if mine then 0 else x.apOwner }
    ({}, s)

/-- The drain work of WITHDRAW: the die's lines are recalled, or a reset of the site brings them back (R410). Its requests for
the partition are refused from here on. -/
def prepWithdraw (n : Nat) (p : Pkt) (s : State) : State :=
  let s := s.setSite n { s.site n with withdraws := (s.site n).withdraws ++ [p] }
  if (s.site n).state = 4 || (s.site n).state = 5 then recallStart n s else s

/-- The objects a SITE_GRANT names: the site, and the context of a CXL site's requests (R357, R410). -/
def grantObjs (n cxlCtx : Nat) (s : State) : List Nat :=
  objSite n :: (if (s.site n).cxl then [objCtx cxlCtx] else [])

def execSiteGrantRequest (p : Pkt) (site : BitVec 8) (cxlCtx : BitVec 20) (s : State) :
    Host.Outcome State Fault Refusal :=
  .next (stagePacket p infoGrant (p.paramLen = 16) (fun _ => grantForm site.toNat) (.siteGrantRequest p site cxlCtx) 16
    noReserve (grantObjs site.toNat cxlCtx.toNat) (fun _ => actGrantRequest p site.toNat cxlCtx.toNat) s)

def execSiteGrantAperture (p : Pkt) (site : BitVec 8) (cxlCtx : BitVec 20) (s : State) :
    Host.Outcome State Fault Refusal :=
  .next (stagePacket p infoGrant (p.paramLen = 16) (fun _ => grantForm site.toNat) (.siteGrantAperture p site cxlCtx) 16
    noReserve (grantObjs site.toNat cxlCtx.toNat) (fun _ => actGrantAperture p site.toNat cxlCtx.toNat) s)

/-- A direct WITHDRAW replies when every line of the die is back, or after step 3 of a reset. -/
def execSiteGrantWithdraw (p : Pkt) (site : BitVec 8) (cxlCtx : BitVec 20) (s : State) :
    Host.Outcome State Fault Refusal :=
  let n := site.toNat
  .next (stagePacket p { infoGrant with atL4 := true } (p.paramLen = 16) (fun _ => grantForm n)
    (.siteGrantWithdraw p site cxlCtx) 16 noReserve (grantObjs n cxlCtx.toNat) (fun _ => actGrantWithdraw p n) s
    (prepWithdraw n))

/-! ### Power (R411) -/

def siteBudget (x : Site) : Nat := bits x.decl 63 48

/-- SITE_POWER_SAMPLE: one average over 10 ms; ten of a kind are 100 ms. -/
def execSitePowerSample (site : Fin 4) (watts : BitVec 10) (s : State) : Host.Outcome State Fault Refusal :=
  let n := site.val
  let x := s.site n
  if x.state ≠ 4 && x.state ≠ 5 then .next s
  else
    let above := watts.toNat > siteBudget x
    let x := { x with measured := watts.toNat, overRun := if above then x.overRun + 1 else 0,
                      underRun := if above then 0 else x.underRun + 1 }
    if !x.limited && x.overRun ≥ 10 then
      .next (siteEvent n 5 0 (emit (.sideband n 0x20 (siteBudget x + 2 ^ 16))
        (s.setSite n { x with limited := true, overNow := true })))
    else if x.limited && x.underRun ≥ 10 then
      .next (emit (.sideband n 0x20 (siteBudget x)) (s.setSite n { x with limited := false }))
    else .next (s.setSite n x)

/-- SITE_POWER_RESET: still above its budget 1 s after POWER_LIMIT. -/
def execSitePowerReset (site : Fin 4) (s : State) : Host.Outcome State Fault Refusal :=
  let x := s.site site.val
  if x.limited && x.overRun > 0 then .next (siteReset site.val 6 s) else .next s

/-! ### SITE_TEST (R416) -/

/-- A write of SITE_TEST: acts while the site is OFF, FAILED or TEST. -/
def siteTest (n loopback : Nat) (prbs : Bool) (s : State) : State :=
  let x := s.site n
  if x.resetting.isSome || x.step ≠ 0 || (x.state ≠ 1 && x.state ≠ 6 && x.state ≠ 7) then s
  else
    let st := if loopback ≠ 0 then 7 else if x.state = 7 then 1 else x.state
    s.setSite n { x with state := st, loopback, prbs, prbsErrors := if prbs && !x.prbs then 0 else x.prbsErrors }

def execSiteTest (site : Fin 4) (loopback : BitVec 4) (prbs : Bool) (s : State) : Host.Outcome State Fault Refusal :=
  if hostOpen s then .next (siteTest site.val loopback.toNat prbs s) else .next s

end Sys2Proof.Machine
end

