-- ==== Sys2Proof/Machine/PowerHeat.lean ====
section
/-!
DEFINITION. Power control, die temperature, the coolant loop and POWER_QUERY (R498 to R507, R514).
-/
namespace Sys2Proof.Machine

/-! ### Registers of the block at 0xA000 -/

/-- Package limit and hub die cap of the variant (R498). -/
def pkgLimit (s : State) : Nat := if s.fuse.variant = 2 then 2800 else if s.fuse.variant = 3 then 2200 else 3400
def hubDieCap (s : State) : Nat := if s.fuse.variant = 2 then 1750 else if s.fuse.variant = 3 then 1400 else 2100

/-- LONG_W in effect: half of it in fail-safe (R504). -/
def longW (s : State) : Nat :=
  let w := bits (s.reg 0xA000 (pkgLimit s)) 11 0
  if s.power.failsafe then w / 2 else w

/-- TH_DIE.THROTTLE_C. -/
def throttleC (s : State) : Nat := bits (s.reg 0xA014 0x5F0000) 23 16

def loopCtl (s : State) : Nat := s.reg 0xA018 0x323C0AC8
def loopManual (s : State) : Bool := bit (loopCtl s) 0
def manualDuty (s : State) : Nat := bits (loopCtl s) 7 1
def dtTarget (s : State) : Nat := bits (loopCtl s) 15 8
def outletMax (s : State) : Nat := bits (loopCtl s) 23 16
def outletTarget (s : State) : Nat := bits (loopCtl s) 31 24

def loopParam (s : State) : Nat := s.reg 0xA020 0x1F42BC04B00F3C
def loopCp (s : State) : Nat := bits (loopParam s) 15 0
def flowMax (s : State) : Nat := bits (loopParam s) 31 16
def pIdle (s : State) : Nat := bits (loopParam s) 43 32
def coreMw (s : State) : Nat := bits (loopParam s) 55 44

def storeCfg (s : State) : Nat := s.reg 0xA034 0x5DC0BB80

/-! ### Caps (R25, R500, R501, R508) -/

/-- Some cluster of quadrant q stands at its threshold plus 10 °C. -/
def quadCritical (q : Nat) (s : State) : Bool :=
  s.power.die.any fun e => e.1 / 25 == q && decide ((10 * (throttleC s + 10) : Int) ≤ e.2.temp)

def shedClock (l : Nat) : Nat := if l ≥ 4 then 16 else if l ≥ 1 then 54 else 64

def alertHeld (s : State) : Bool := s.power.regAlert || s.aon < s.power.regUntil

/-- The lowest cap of this chapter on a cluster. -/
def clkCap (g : Nat) (s : State) : Nat :=
  let x := s.power
  let die := ((kget g x.die).getD {}).cap
  let m := min ((kget g x.cap).getD 64) (min die (shedClock x.shed))
  let m := if quadCritical (g / 25) s then min m 16 else m
  if alertHeld s then min m 32 else m

/-- The cluster is under the activity cap of R115. -/
def actCap (g : Nat) (s : State) : Bool :=
  (kget g s.power.act).isSome || s.power.shed ≥ 2 || quadCritical (g / 25) s || (s.co.running && s.co.stage = 6)

def lowestCap (s : State) : Nat := (List.range 200).foldl (fun m g => min m (clkCap g s)) 64
def anyActCap (s : State) : Bool := (List.range 200).any fun g => actCap g s

/-- Ratio in effect, CL_CLK_DIV.CURRENT (R39, R500). -/
def clkCurrent (g : Nat) (s : State) : Nat := min (bits (s.reg (clBase g) 0x40) 6 0) (clkCap g s)

/-! ### Power control (R499, R500, R506) -/

def avgOf (l : List Nat) : Nat := if l.isEmpty then 0 else l.foldl (· + ·) 0 / l.length

/-- Averages of package power over 10 ms and 1 s. -/
def pkg10 (s : State) : Nat := avgOf (s.power.samples.take 10)
def pkg1s (s : State) : Nat := avgOf s.power.samples

/-- The coolant limit in W (R506). -/
def coolantLimit (s : State) : Nat :=
  let rise : Int := 100 * (outletMax s : Int) - s.power.inlet
  loopCp s * s.power.flow * rise.toNat / (60 * 100 * 100)

/-- The limit of the hub die (R499). -/
def hubLimit (s : State) : Nat :=
  let sites := (s.sites.filter fun e => e.2.state == 4 || e.2.state == 5).foldl (fun n e => n + siteBudget e.2) 0
  min (hubDieCap s) (longW s - 500 - sites)

/-- Figure and limit of each comparison of R500. -/
def powerPairs (s : State) : List (Nat × Nat) :=
  [(100 * pkg1s s, 100 * longW s), (100 * pkg10 s, 115 * longW s), (100 * s.power.hubW, 100 * hubLimit s),
   (100 * pkg1s s, 100 * coolantLimit s)]

/-- Place of a cluster in the order of R500: in no partition, then shed class 3, 2, 1, 0. -/
def capGroup (s : State) (g : Nat) : Nat :=
  match s.clusterPart g with
  | none => 0
  | some p => 4 - bits (s.reg (ptBase p) 3) 1 0

/-- The first group, in the order given, with a cluster that meets a test: those of its clusters that do. -/
def firstGroup (order : List Nat) (test : Nat → Bool) (s : State) : List Nat :=
  let all := ((List.range 200).filter test).map fun g => (capGroup s g, g)
  match order.find? fun k => all.any fun e => e.1 == k with
  | none => []
  | some k => (all.filter fun e => e.1 == k).map (·.2)

def capOf (s : State) (g : Nat) : Nat := (kget g s.power.cap).getD 64
def setCap (f : Nat → Nat) (l : List Nat) (s : State) : State :=
  foldS l (fun g s => { s with power := { s.power with cap := kset g (f (capOf s g)) s.power.cap } }) s

/-- Over a limit: one step down. -/
def powerLower (s : State) : State :=
  let order := [0, 1, 2, 3, 4]
  match firstGroup order (fun g => 32 < capOf s g) s with
  | g :: l => setCap (fun c => max 32 (c - 2)) (g :: l) s
  | [] => match firstGroup order (fun g => (kget g s.power.act).isNone) s with
    | g :: l => foldS (g :: l) (fun g s => { s with power := { s.power with act := kset g true s.power.act } }) s
    | [] => setCap (fun c => max 16 (c - 2)) (firstGroup order (fun g => 16 < capOf s g) s) s

/-- Below the limits for 10 ms: one step up, in the reverse order. -/
def powerRaise (s : State) : State :=
  let order := [4, 3, 2, 1, 0]
  match firstGroup order (fun g => capOf s g < 32) s with
  | g :: l => setCap (· + 1) (g :: l) s
  | [] => match firstGroup order (fun g => (kget g s.power.act).isSome) s with
    | g :: l => foldS (g :: l) (fun g s => { s with power := { s.power with act := kdel g s.power.act } }) s
    | [] => setCap (· + 1) (firstGroup order (fun g => capOf s g < 64) s) s

/-- The coolant limit holds a cap: 1 s of it raises COOLANT_LIMIT, at most once in 10 s (R506). -/
def coolantWatch (s : State) : State :=
  let capped := s.power.cap.any (fun e => e.2 < 64) || !s.power.act.isEmpty
  let run := if capped && 95 * coolantLimit s ≤ 100 * pkg1s s then s.power.coolRun + 1 else 0
  let s := { s with power := { s.power with coolRun := run } }
  let soon := match s.power.coolTold with
    | some t => decide (s.aon < t + 1000000000)
    | none => false
  if run < 1000 || soon then s
  else thermalEvent 4 0 0 (coolantLimit s) { s with power := { s.power with coolTold := some s.aon } }

/-- POWER_CONTROL_TICK (R499, R500): one sample of package, hub die and stack power in W. -/
def execPowerControlTick (pkg hub hbm : BitVec 12) (s : State) : Host.Outcome State Fault Refusal :=
  let x := s.power
  let s := { s with power := { x with samples := (pkg.toNat :: x.samples).take 1000, hubW := hub.toNat, hbmW := hbm.toNat } }
  let l := powerPairs s
  if l.any fun e => e.2 < e.1 then .next (coolantWatch (powerLower { s with power := { s.power with under := 0 } }))
  else if l.all fun e => 100 * e.1 < 95 * e.2 then
    if s.power.under + 1 ≥ 10 then .next (coolantWatch (powerRaise { s with power := { s.power with under := 0 } }))
    else .next (coolantWatch { s with power := { s.power with under := s.power.under + 1 } })
  else .next (coolantWatch { s with power := { s.power with under := 0 } })

/-- REGULATOR_ALERT (R500): every cluster is capped at ratio 32. -/
def execRegulatorAlert (s : State) : Host.Outcome State Fault Refusal :=
  .next { s with power := { s.power with regAlert := true } }

/-- The alert clears: its cap is held for 1 ms more. -/
def execRegulatorAlertClear (s : State) : Host.Outcome State Fault Refusal :=
  if s.power.regAlert then .next { s with power := { s.power with regAlert := false, regUntil := s.aon + 100000 } } else .next s

/-! ### Die temperature (R501) -/

/-- A temperature in 0.1 °C as the 16-bit field of R512. -/
def tempField (t : Int) : Nat := (BitVec.ofInt 16 t).toNat

/-- THERMTRIP_N goes low and every PLL stops; latched until power-on reset. -/
def trip (s : State) : State :=
  { s with power := { s.power with tripped := true },
           clocks := kmap (fun d c => if d = 0 then c else { c with running := false }) s.clocks }

/-- THERMTRIP: a sensor reaches 115 °C. -/
def execThermtrip (s : State) : Host.Outcome State Fault Refusal := .next (trip s)

/-- DIE_TEMPERATURE_SAMPLE: a cluster's reading in 0.1 °C. -/
def execDieTemperatureSample (cluster : Fin 200) (temp : BitVec 16) (s : State) : Host.Outcome State Fault Refusal :=
  let g := cluster.val
  let t := temp.toInt
  let thr : Int := 10 * (throttleC s : Int)
  let x := (kget g s.power.die).getD {}
  let was := quadCritical (g / 25) s
  let put_ (d : DieSensor) (s : State) : State := { s with power := { s.power with die := kset g d s.power.die } }
  let s :=
    if thr ≤ t then
      let soon := match x.told with
        | some a => decide (s.aon < a + 100000000)
        | none => false
      let d := { x with temp := t, cap := max 16 (x.cap - 2), cool := 0 }
      if soon then put_ d s else thermalEvent 1 g (tempField t) 0 (put_ { d with told := some s.aon } s)
    else if t < thr - 30 then
      if x.cool + 1 ≥ 10 then put_ { x with temp := t, cap := min 64 (x.cap + 1), cool := 0 } s
      else put_ { x with temp := t, cool := x.cool + 1 } s
    else put_ { x with temp := t, cool := 0 } s
  let s := if !was && quadCritical (g / 25) s then thermalEvent 2 g (tempField t) 0 s else s
  if 1150 ≤ t then .next (trip s) else .next s

/-! ### The coolant loop (R503 to R506) -/

/-- Fail-safe: the pumps at 100 %, the valve fully open. -/
def enterFailsafe (s : State) : State := { s with power := { s.power with failsafe := true, duty := 100, valve := 100 } }

/-- STORE_PCT (R507). -/
def storePctOf (mv : Nat) (s : State) : Nat :=
  let full := bits (storeCfg s) 15 0
  let low := bits (storeCfg s) 31 16
  min 100 (100 * (mv * mv - low * low) / (full * full - low * low))

/-- A reading of the bank voltage: the level, and whether it falls fast. -/
def storeRead (mv : Nat) (s : State) : State :=
  let x := s.power
  let pct := storePctOf mv s
  let fast := match x.storeAt with
    | some t => pct + 5 ≤ x.storePct && decide (s.aon ≤ t + 100000)
    | none => false
  shedCheck { s with power := { x with bankMv := mv, storePct := pct, storeAt := some s.aon, fast,
                                       storeTrig := storeTrigs pct x.storeTrig } }

/-- SENSOR_READ: sensor 0 flow, 1 inlet, 2 outlet, 3 store; the third failed read in a row is a fault. -/
def execSensorRead (sensor : Fin 4) (value : Option (BitVec 16)) (s : State) : Host.Outcome State Fault Refusal :=
  let i := sensor.val
  let x := s.power
  match value with
  | none =>
    let n := (kget i x.badReads).getD 0 + 1
    let s := { s with power := { x with badReads := kset i n x.badReads } }
    if n < 3 || (kget i x.sensorFault).isSome then .next s
    else .next (enterFailsafe (thermalEvent 6 i 0 0
      { s with power := { s.power with sensorFault := kset i true s.power.sensorFault } }))
  | some v =>
    let x := { x with badReads := kdel i x.badReads, sensorFault := kdel i x.sensorFault }
    match i with
    | 0 => .next { s with power := { x with flow := v.toNat } }
    | 1 => .next { s with power := { x with inlet := v.toInt } }
    | 2 => .next { s with power := { x with outlet := v.toInt } }
    | _ => .next (storeRead v.toNat { s with power := x })

/-- FLOW_FAULT: a tachometer has read 0 for 1 s at a duty of 20 % or more. -/
def execFlowFault (pump : Fin 2) (s : State) : Host.Outcome State Fault Refusal :=
  if s.power.duty < 20 || (kget pump.val s.power.pumpFault).isSome then .next s
  else .next (enterFailsafe (thermalEvent 5 pump.val 0 0
    { s with power := { s.power with pumpFault := kset pump.val true s.power.pumpFault } }))

/-- FAILSAFE_END: 10 s after every fault has cleared. -/
def execFailsafeEnd (s : State) : Host.Outcome State Fault Refusal :=
  if s.power.sensorFault.isEmpty && s.power.pumpFault.isEmpty then .next { s with power := { s.power with failsafe := false } }
  else .next s

/-- Cores of running launches and of fetched LAUNCH descriptors that have not started, at most 4,000 (R505). -/
def pendingCores (s : State) : Nat :=
  let waiting (k : Queue) : Nat :=
    ((k.fetched.filter fun d => dType d.word = 1).foldl (fun n d => n + lCount d.word) 0)
  let loading (q : Nat) (k : Queue) : Nat :=
    ((k.flight.filter fun d => dType d.word = 1 && d.done.isNone &&
      (kget (2 ^ 32 * q + d.index.toNat) s.launches).isNone).foldl (fun n d => n + lCount d.word) 0)
  min 4000 ((s.cores.filter fun e => e.2.run).length + s.queues.foldl (fun n e => n + waiting e.2 + loading e.1 e.2) 0)

/-- LOOP_SETPOINT_UPDATE (R505): flows in 0.01 L/min, cut to whole units. -/
def execLoopSetpointUpdate (s : State) : Host.Outcome State Fault Refusal :=
  let fmax := flowMax s
  let p := max (pkg1s s) (pIdle s + coreMw s * pendingCores s / 1000)
  let ff := p * 6000 / (loopCp s * dtTarget s)
  let above : Int := s.power.outlet - 100 * (outletTarget s : Int)
  let fb := fmax * 2 * above.toNat / 10000
  let q := min fmax (max (fmax / 10) (ff + fb))
  let stack := s.ctls.any fun e => e.1 < 16 && e.2.step ≥ 1
  let x := s.power
  let x := { x with stackAt := if stack then some s.aon else x.stackAt }
  let hot := match x.stackAt with
    | some t => decide (s.aon ≤ t + 1000000000)
    | none => false
  let q := if hot then fmax else q
  .next { s with power := { x with setpoint := if x.setpoint ≤ q then q else max q (x.setpoint - fmax / 200) } }

/-- PUMP_DUTY_UPDATE (R503 to R505): the pump speeds in rpm, and the duties of the next 10 ms; at L5 they are held. -/
def execPumpDutyUpdate (tach0 tach1 : BitVec 16) (s : State) : Host.Outcome State Fault Refusal :=
  let x := s.power
  let f0 := if tach0 = 0 then x.pumpFault else kdel 0 x.pumpFault
  let f1 := if tach1 = 0 then f0 else kdel 1 f0
  let x := { x with tach0 := tach0.toNat, tach1 := tach1.toNat, pumpFault := f1 }
  if x.shed ≥ 5 then .next { s with power := x }
  else if x.failsafe then .next { s with power := { x with duty := 100, valve := 100 } }
  else if loopManual s then .next { s with power := { x with duty := manualDuty s, valve := 100 } }
  else
    let duty := if x.flow < x.setpoint then x.duty + 1 else if x.setpoint < x.flow then x.duty - 1 else x.duty
    .next { s with power := { x with duty := min 100 (max 20 duty),
                                     valve := max 20 (100 * x.setpoint / flowMax s) } }

/-! ### POWER_QUERY (R514) -/

/-- A temperature of 0.01 °C as a 16-bit field of 0.1 °C. -/
def tenths (t : Int) : Nat := tempField (t / 10)

/-- The 32 bytes of the reply. -/
def powerReply (s : State) : Nat :=
  let x := s.power
  let site (n : Nat) : Nat := put (64 + 16 * n) 16 (s.site n).measured
  put 0 16 (pkg10 s) + put 16 16 (pkg1s s) + put 32 16 x.hubW + put 48 16 x.hbmW + site 0 + site 1 + site 2 + site 3 +
  put 128 8 x.shed + put 136 8 (lowestCap s) + put 144 1 (b2n (anyActCap s)) + put 145 1 (b2n x.failsafe) +
  put 152 8 x.storePct + put 160 16 (coolantLimit s) + put 176 16 x.flow + put 192 16 (tenths x.inlet) +
  put 208 16 (tenths x.outlet)

def execPowerQuery (p : Pkt) (s : State) : Host.Outcome State Fault Refusal :=
  .next (directPacket p { code := 0x900, col := .f, query := true, early := true, from_ := 2 } (p.paramLen = 0)
    (fun s => ({ len := 32, data := powerReply s }, s)) s)

end Sys2Proof.Machine
end

