-- ==== Sys2Proof/Machine/RegFields.lean ====
section
/-!
DEFINITION. The registers that hold fields staged in transactions (RWT): where they lie, which of their bits are RWT or
reserved, their reset values and the rules of their own (R39, R242, R281, R354, R373 to R375, R427, and the register tables).
-/
namespace Sys2Proof.Machine

/-- A register with an RWT field. -/
structure Rwt where
  /-- 64 bits wide -/
  wide : Bool
  /-- its RWT bits -/
  mask : Nat
  /-- its reserved bits -/
  rsv : Nat
  reset : Nat
  /-- the rule on a staged value -/
  ok : Nat → Bool

/-- Index and offset of an address in an array of blocks of `stride` bytes. -/
def blockAt (off base stride count : Nat) : Option (Nat × Nat) :=
  if base ≤ off && (off - base) / stride < count then some ((off - base) / stride, (off - base) % stride) else none

/-- BAR0 base of site n's block (ch. 13). -/
def siteBlock (n : Nat) : Nat := 0xC80000 + n * 0x1000

def anyVal : Nat → Bool := fun _ => true

/-- Every one of the `n` nibbles is 0 to 7 or 0xF (R242). -/
def slotsOk : Nat → Nat → Bool
  | 0, _ => true
  | n + 1, v => (v % 16 < 8 || v % 16 == 15) && slotsOk n (v / 16)

/-- No class is 0, and only ports 8 to 11 have class 1 (R373). -/
def portClassOk (v : Nat) : Bool :=
  (List.range 17).all fun k =>
    let c := bits v (2 * k + 1) (2 * k)
    c != 0 && (c != 1 || (8 ≤ k && k ≤ 11))

/-- RWT registers of a partition block. -/
def rwtPart (o : Nat) : Option Rwt :=
  match o with
  | 0x000 => some { wide := false, mask := 3, rsv := 0xFFFFFFF0, reset := 3, ok := anyVal }
  | 0x100 => some { wide := true, mask := 2 ^ 64 - 1, rsv := 0, reset := 2 ^ 64 - 1, ok := anyVal }
  | 0x108 => some { wide := true, mask := 2 ^ 64 - 1, rsv := 0, reset := 2 ^ 64 - 1, ok := anyVal }
  | 0x110 => some { wide := true, mask := 2 ^ 48 - 1, rsv := maskFrom 48 16, reset := 0, ok := anyVal }
  | 0x120 => some { wide := false, mask := 0xFFFF01, rsv := 0xFF0000FE, reset := 1, ok := anyVal }
  | 0x200 => some { wide := false, mask := 7, rsv := 0xFFFFFFF8, reset := 5, ok := anyVal }
  | _ => none

/-- RWT registers of a cluster block. -/
def rwtCluster (o : Nat) : Option Rwt :=
  if o = 0 then
    some { wide := false, mask := 0x7F, rsv := 0xFFFF8080, reset := 0x40,
           ok := fun v => 16 ≤ bits v 6 0 && bits v 6 0 ≤ 64 }
  else if 0x100 ≤ o && o < 0x100 + 0x10 * 20 && o % 0x10 = 0 then
    some { wide := false, mask := 2, rsv := 0xFFFFFFF0, reset := 0, ok := anyVal }
  else none

/-- RWT registers of the block at 0xA000. -/
def rwtPower (o : Nat) (s : State) : Option Rwt :=
  match o with
  | 0x000 => some { wide := false, mask := 0xFFF, rsv := 0xFFFFF000, reset := pkgLimit s,
                    ok := fun v => bits v 11 0 != 0 && bits v 11 0 ≤ pkgLimit s }
  | 0x014 => some { wide := false, mask := 0xFF0000, rsv := 0xFF000000, reset := 0x5F0000,
                    ok := fun v => 80 ≤ bits v 23 16 && bits v 23 16 ≤ 100 }
  | 0x018 => some { wide := false, mask := 0xFFFFFFFF, rsv := 0, reset := 0x323C0AC8,
                    ok := fun v => 20 ≤ bits v 7 1 && bits v 7 1 ≤ 100 && 2 ≤ bits v 15 8 && bits v 15 8 ≤ 30 &&
                      bits v 31 24 < bits v 23 16 }
  | 0x020 => some { wide := true, mask := 2 ^ 56 - 1, rsv := maskFrom 56 8, reset := 0x1F42BC04B00F3C,
                    ok := fun v => bits v 15 0 != 0 && bits v 31 16 != 0 }
  | 0x030 => some { wide := false, mask := 0x7F7F7F7F, rsv := 0x80808080, reset := 0x40323130, ok := anyVal }
  | 0x034 => some { wide := false, mask := 0xFFFFFFFF, rsv := 0, reset := 0x5DC0BB80,
                    ok := fun v => bits v 31 16 < bits v 15 0 }
  | _ => none

/-- RWT registers among the hub-wide ones. -/
def rwtHub (off : Nat) : Option Rwt :=
  match off with
  | 0x1100 => some { wide := false, mask := 0xFFFFFFFF, rsv := 0, reset := 0x93A80, ok := fun v => v != 0 }
  | 0x2010 => some { wide := true, mask := 2 ^ 48 - 1, rsv := maskFrom 48 16, reset := 0x4004004010,
                     ok := fun v => bits v 7 0 != 0 }
  | 0x3008 => some { wide := true, mask := 0xFFC000000F, rsv := 2 ^ 64 - 1 - 0xFFC000000F, reset := 0,
                     ok := fun v => bits v 39 30 ≤ 960 }
  | 0x7000 => some { wide := true, mask := 2 ^ 34 - 1, rsv := maskFrom 36 28, reset := portClassReset, ok := portClassOk }
  | _ => none

/-- The register with an RWT field at a BAR0 offset. -/
def rwtOf (off : Nat) (s : State) : Option Rwt :=
  if 0xA000 ≤ off && off < 0xA100 then rwtPower (off - 0xA000) s
  else match blockAt off 0x100000 0x1000 8 with
  | some (_, o) => rwtPart o
  | none => match blockAt off 0x400000 0x10000 8 with
  | some (_, o) => if o = 0x300 then
      some { wide := false, mask := 0xFF, rsv := 0xFFFFFF00, reset := 0, ok := anyVal } else none
  | none => match blockAt off 0x800000 0x1000 200 with
  | some (_, o) => rwtCluster o
  | none => match blockAt off 0xC00000 0x1000 40 with
  | some (_, o) => if 0x100 ≤ o && o < 0x120 && o % 8 = 0 then
      some { wide := true, mask := 2 ^ 64 - 1, rsv := 0, reset := 2 ^ 64 - 1, ok := slotsOk 16 } else none
  | none => match blockAt off 0xC90000 0x1000 4 with
  | some (_, o) => if o = 0 then
      some { wide := false, mask := 1, rsv := 0xFFFFFFFE, reset := 1, ok := anyVal } else none
  | none => rwtHub off

/-- The RWT bits of a register as they are committed. -/
def rwtValue (off : Nat) (s : State) : Nat :=
  match rwtOf off s with
  | some r => s.reg off r.reset
  | none => 0

/-! ### REG_STAGE entries (R354) -/

/-- Partition p may stage a register: its PT_ block and the CL_ blocks of its clusters. -/
def stageMay (scope off : Nat) (s : State) : Bool :=
  scope == 15 ||
  (match blockAt off 0x100000 0x1000 8 with
   | some (p, _) => p == scope
   | none => match blockAt off 0x800000 0x1000 200 with
     | some (g, _) => (s.part scope).laidOut && bit (s.part scope).clusters g
     | none => false)

/-- The check of entry i, at packet offset 40 + 16 i. -/
def entryCheck (scope i : Nat) (e : BitVec 32 × Bool × BitVec 64) (s : State) : Option OpRes :=
  let off := e.1.toNat
  let v := e.2.2.toNat
  let at_ := 40 + 16 * i
  match rwtOf off s with
  | none => some (bad stBadParam at_)
  | some r =>
    if r.wide ≠ e.2.1 then some (bad stBadParam at_)
    else if (!r.wide && 2 ^ 32 ≤ v) || v &&& r.rsv ≠ 0 || !r.ok v then some (bad stBadParam (at_ + 8))
    else if !stageMay scope off s then some (bad stNotPermitted at_)
    else none

def entriesCheck (scope : Nat) : Nat → List (BitVec 32 × Bool × BitVec 64) → State → Option OpRes
  | _, [], _ => none
  | i, e :: l, s => match entryCheck scope i e s with
    | some r => some r
    | none => entriesCheck scope (i + 1) l s

/-- Groups whose mode a new QD_PCG_MODE changes must hold no granule that is owned or in motion (R232). -/
def pcgBlocked (changed : Nat) (s : State) : Bool :=
  s.pot.any fun e => !e.2.hub && bit changed (e.1 % 8) && tierOf (e.1 * 0x200000) == 0 && (e.2.owned || e.2.inMotion)

/-- The granules of changed groups, but for the hub region, are needs-scrub (R232). -/
def pcgScrub (changed : Nat) (s : State) : State :=
  { s with pot := kmap (fun g x => if !x.hub && bit changed (g % 8) && tierOf (g * 0x200000) == 0
      then { x with needsScrub := true } else x) s.pot }

/-- The hub region's granules of changed groups keep their contents (R232): the home of quadrant q reads their lines, holds
them, and writes them back in the new layout under the hub memory key. -/
def pcgHub (q changed : Nat) (s : State) : State :=
  let mine (g : Nat) : Bool := (s.gran g).hub && bit changed (g % 8) && tierOf (g * 0x200000) == 0
  let s := mscDrop (fun n => mine (granOf (64 * n)) && homeOf (64 * n) == q) true s
  let l := (s.pot.filter fun e => mine e.1).map (·.1)
  { s with heat := l.foldl (fun m g => kset (8 * g + q) (satAdd 16 ((kget (8 * g + q) m).getD 0) 8192) m) s.heat }

/-- Writes the RWT bits of one entry. -/
def entryApply (e : BitVec 32 × Bool × BitVec 64) (s : State) : Except Nat State :=
  let off := e.1.toNat
  match rwtOf off s with
  | none => .ok s
  | some r =>
    let old := s.reg off r.reset
    let new := e.2.2.toNat &&& r.mask
    let t := s.setReg off new
    match blockAt off 0x400000 0x10000 8 with
    | some (q, _) =>
      let changed := old ^^^ new
      if pcgBlocked changed s then .error stTxnConflict else .ok (pcgScrub changed (pcgHub q changed t))
    | none => match blockAt off 0xC90000 0x1000 4 with
      | some (p, _) =>
        if new = 0 && old ≠ 0 && (s.slPort p).state ≠ 0 then .ok (slReset p 1 none t)
        else if new ≠ 0 && old = 0 then .ok (if t.co.ready then slStartAll t else t)
        else .ok t
      | none => .ok t

def entriesApply : List (BitVec 32 × Bool × BitVec 64) → State → Except Nat State
  | [], s => .ok s
  | e :: l, s => match entryApply e s with
    | .error st => .error st
    | .ok s => entriesApply l s

/-! ### Rules that tie registers together (R231, R374, R375) -/

/-- Every quadrant holds the same QD_PCG_MODE. -/
def pcgEqual (s : State) : Bool := (List.range 8).all fun q => s.reg (qdBase q + 0x300) 0 == s.reg (qdBase 0 + 0x300) 0

def shedClass (p : Nat) (s : State) : Nat := bits (s.reg (ptBase p) 3) 1 0

def mscWays (p i : Nat) (s : State) : Nat := s.reg (ptBase p + 0x100 + 8 * i) (2 ^ 64 - 1)

/-- The ways of a guaranteed partition are in no other mask of the same quadrant. -/
def waysOk (s : State) : Bool :=
  (List.range 8).all fun p => shedClass p s ≥ 2 ||
    (List.range 8).all fun o => o == p || (List.range 2).all fun i => mscWays p i s &&& mscWays o i s == 0

/-- Reserved queue entries over all partitions, byte i of PT_CTLQ. -/
def ctlqSum (i : Nat) (s : State) : Nat :=
  (List.range 8).foldl (fun n p => n + bytesAt (s.reg (ptBase p + 0x110) 0) i 1) 0

def ctlqOk (s : State) : Bool :=
  4 * ctlqSum 0 s ≤ 448 && 2 * ctlqSum 1 s ≤ 224 && ctlqSum 2 s ≤ 112 && ctlqSum 3 s ≤ 56 &&
  ctlqSum 4 s ≤ 112 && ctlqSum 5 s ≤ 56

end Sys2Proof.Machine
end

