-- ==== Sys2Proof/Machine/Sloyth.lean ====
section
/-!
DEFINITION. The commands of the Sloyth links (ch. 14).
-/
namespace Sys2Proof.Machine

/-! ### Commands of HMF -/

/-- SL_PORT_RESET (R441): replies at the end of the reset. -/
def execSlPortReset (p : Pkt) (port : BitVec 8) (s : State) : Host.Outcome State Fault Refusal :=
  if packetWaits p [] s || (((s.slPort port.toNat).resetting.bind (·.pkt)).map (samePkt p)).getD false then .next s else
  match headerCheck p { code := 0x600, col := .f } (p.paramLen = 8) s with
  | some r => .next (reply p 0x600 r s)
  | none =>
    if port.toNat > 3 then .next (reply p 0x600 (bad stBadParam 32) s)
    else if (s.slPort port.toNat).resetting.isSome then .next (reply p 0x600 (bad stBusy) s)
    else .next (slSettle (slReset port.toNat 1 (some p) s))

/-- Fields of SL_WINDOW_SET (R438). -/
def wByte (d : BitVec 256) (i n : Nat) : Nat := bytesAt d.toNat i n

/-- The form of SL_WINDOW_SET: the packet offset of the first field that breaks its table. -/
def winForm (d : BitVec 256) : Option OpRes :=
  let inb := wByte d 0 1 = 1
  let base := wByte d 16 8
  let len := wByte d 24 4
  let at_ (o : Nat) : Option OpRes := some (bad stBadParam (32 + o))
  if wByte d 0 1 > 1 then at_ 0
  else if wByte d 1 1 > 63 then at_ 1
  else if (if inb then wByte d 2 1 > 7 else wByte d 2 1 ≠ 0) then at_ 2
  else if (if inb then wByte d 3 1 > 7 else wByte d 3 1 ≠ 0) then at_ 3
  else if (if inb then wByte d 4 1 ≠ 0 else wByte d 4 1 > 63) then at_ 4
  else if wByte d 5 3 ≠ 0 then at_ 5
  else if (if inb then base % 0x200000 ≠ 0 || base ≥ 2 ^ 48 else base ≠ 0) then at_ 16
  else if (if inb then len = 0 || len > 512 else len ≠ 0) then at_ 24
  else if wByte d 28 4 ≠ 0 then at_ 28
  else if inb && (tierOf base ≥ 3 || tierOf (base + len * 0x200000 - 1) ≥ 3) then at_ 16
  else none

/-- SL_WINDOW_SET (R438). -/
def actWindowSet (p : Pkt) (d : BitVec 256) (s : State) : OpRes × State :=
  let w := wByte d 1 1
  let q := pnum p
  if wByte d 0 1 = 0 then
    if (kget w s.winOut).isSome then (bad stNotPermitted 33, s)
    else ({}, { s with winOut := kset w { part := q, remote := wByte d 4 1, peer := wByte d 8 8 } s.winOut })
  else if (kget w s.winIn).isSome then (bad stNotPermitted 33, s)
  else
    let base := wByte d 16 8
    let len := wByte d 24 4
    let mine (g : Nat) : Bool := let x := s.gran g
      s.populated (g * 0x200000) && x.owned && x.owner.val == q
    if !((List.range len).all fun i => mine (granOf base + i)) then (bad stNotPermitted 48, s)
    else
      let perm := wByte d 2 1
      ({}, winTell w { s with winIn := kset w { part := q, srcPart := wByte d 3 1, r := bit perm 0, w := bit perm 1,
                                                a := bit perm 2, base, len, peer := wByte d 8 8 } s.winIn })

def winObj (dir win : Nat) : Nat := objWin (64 * dir + win)

def execSlWindowSet (p : Pkt) (desc : BitVec 256) (s : State) : Host.Outcome State Fault Refusal :=
  .next (stagePacket p { code := 0x601, col := .p, stageable := true } (p.paramLen = 32) (fun _ => winForm desc)
    (.slWindowSet p desc) 32 noReserve (fun _ => [winObj (wByte desc 0 1) (wByte desc 1 1)])
    (fun _ => actWindowSet p desc) s)

def winClearForm (dir win : Nat) : Option OpRes :=
  if dir > 1 then some (bad stBadParam 32) else if win > 63 then some (bad stBadParam 33) else none

/-- A segment leads to outbound window w. -/
def winUsed (w : Nat) (s : State) : Bool :=
  s.ctxs.any fun c => c.2.segs.any fun g => g.2.target == 2 && g.2.tgt == w

/-- SL_WINDOW_CLEAR (R439): an inbound clear sends WIN_STATE closed. -/
def actWindowClear (p : Pkt) (dir win : Nat) (s : State) : OpRes × State :=
  if dir = 0 then
    match kget win s.winOut with
    | none => (bad stBadParam 33, s)
    | some v =>
      if v.part ≠ pnum p then (bad stNotPermitted 33, s)
      else if winUsed win s then (bad stBusy, s)
      else ({}, { s with winOut := kdel win s.winOut })
  else match kget win s.winIn with
    | none => (bad stBadParam 33, s)
    | some v =>
      if v.part ≠ pnum p then (bad stNotPermitted 33, s)
      else if v.closing.isSome then (bad stBusy, s)
      else
        let s := winTell win { s with winIn := kset win { v with closing := some p } s.winIn }
        ({}, { s with winIn := kdel win s.winIn })

/-- The drain work of an inbound clear: from here on the window refuses every request that arrives, and those accepted before
are performed. -/
def prepWindowClear (dir win : Nat) (p : Pkt) (s : State) : State :=
  if dir = 0 then s
  else match kget win s.winIn with
    | some v => { s with winIn := kset win { v with closing := some p } s.winIn }
    | none => s

/-- SL_WINDOW_CLEAR: an inbound clear replies once every request accepted before is performed. -/
def execSlWindowClear (p : Pkt) (dir win : BitVec 8) (s : State) : Host.Outcome State Fault Refusal :=
  let d := dir.toNat
  let w := win.toNat
  .next (stagePacket p { code := 0x602, col := .p, stageable := true, atL4 := true } (p.paramLen = 8)
    (fun _ => winClearForm d w) (.slWindowClear p dir win) 8 noReserve (fun _ => [winObj d w])
    (fun _ => actWindowClear p d w) s (prepWindowClear d w))

/-- Starts a rekey, taking the initiator's part (R430). -/
def slRekey (p : Nat) (s : State) : State :=
  let x := s.slPort p
  slTransmit p { op := 0x11 } (s.setSlPort p { x with rekeying := 1 })

/-- A port whose keys can be renewed: in service, with no rekey in progress. -/
def slCanRekey (p : Nat) (s : State) : Bool :=
  let x := s.slPort p
  (x.state = 4 || x.state = 5) && x.resetting.isNone && x.rekeying = 0

/-- SL_REKEY (R430). The parameter layout is that of SL_PORT_RESET (log 63). -/
def execSlRekey (p : Pkt) (port : BitVec 8) (s : State) : Host.Outcome State Fault Refusal :=
  .next (directPacket p { code := 0x603, col := .f } (p.paramLen = 8) (fun s =>
    let n := port.toNat
    if n > 3 then (bad stBadParam 32, s)
    else if (s.slPort n).rekeying ≠ 0 || (s.slPort n).resetting.isSome then (bad stBusy, s)
    else if !slCanRekey n s then (bad stLinkDown, s)
    else ({}, slRekey n s)) s)

/-- REKEY_START (R430): the transmit SEQ has reached 2^47, or 24 hours of operating time have passed. -/
def execRekeyStart (port : Fin 4) (day : Bool) (s : State) : Host.Outcome State Fault Refusal :=
  let p := port.val
  let x := s.slPort p
  if !slCanRekey p s || !(day || 2 ^ 47 ≤ x.txSeq) then .next s
  else .next (slRekey p (if day then { s with opSeconds := max s.opSeconds (x.keyed + 86400) } else s))

/-! ### Control blocks (R421, R423 to R425, R440) -/

/-- HOLD (R425): in service or LPI the link is down; else it is the expected idle. -/
def execHold (port : Fin 4) (s : State) : Host.Outcome State Fault Refusal :=
  let x := s.slPort port.val
  if x.state = 4 || x.state = 5 then .next (slSettle (slReset port.val 2 none s)) else .next s

/-- READY (R425). A READY that comes before this hub's own is remembered. -/
def execReady (port : Fin 4) (s : State) : Host.Outcome State Fault Refusal :=
  let x := s.slPort port.val
  if x.state ≠ 3 then .next s
  else if x.step = 5 then .next (slEnter port.val s)
  else .next (s.setSlPort port.val { x with peerReady := true })

/-- ACK (R423): every packet up to SEQ leaves the replay buffer. -/
def execAckBlock (port : Fin 4) (seq : BitVec 64) (s : State) : Host.Outcome State Fault Refusal :=
  let p := port.val
  let x := s.slPort p
  if x.state ≠ 4 && x.state ≠ 5 then .next s
  else .next (slCount (slPump p (s.setSlPort p { x with replay := x.replay.filter fun k => seq.toNat < k.seq })))

/-- NAK (R423): the packets from SEQ are sent again; the eighth replay of a packet resets the port. -/
def execNak (port : Fin 4) (seq : BitVec 64) (s : State) : Host.Outcome State Fault Refusal :=
  let p := port.val
  let x := s.slPort p
  if x.state ≠ 4 && x.state ≠ 5 then .next s
  else
    let again := x.replay.filter fun k => seq.toNat ≤ k.seq
    let replay := x.replay.map fun k => if seq.toNat ≤ k.seq then { k with replays := k.replays + 1 } else k
    let s := s.setSlPort p { x with replay, replays := satAdd 16 x.replays 1 }
    let s := foldS again (fun k s => emit (.slPacket p x.txEpoch k) s) s
    if replay.any fun k => k.replays ≥ 8 then .next (slSettle (slReset p 3 none s)) else .next s

/-- CREDIT (R424): units returned by the peer. -/
def execCredit (port : Fin 4) (req rsp : BitVec 16) (s : State) : Host.Outcome State Fault Refusal :=
  let p := port.val
  let x := s.slPort p
  if x.state ≠ 4 && x.state ≠ 5 then .next s
  else .next (slPump p (s.setSlPort p { x with reqCredits := x.reqCredits + req.toNat,
                                               rspCredits := x.rspCredits + rsp.toNat }))

/-- LPI (R440): the peer idles its lanes; this hub sends on, and nothing here changes. -/
def execLpi (port : Fin 4) (s : State) : Host.Outcome State Fault Refusal :=
  let _ := port
  .next s

/-- WAKE of the peer (R440): a port in LPI sends WAKE and resumes, but at L5. -/
def execWake (port : Fin 4) (s : State) : Host.Outcome State Fault Refusal :=
  let p := port.val
  let x := s.slPort p
  if x.state = 5 && s.power.shed < 5 then .next (slPump p (emit (.slControl p 7 0) (s.setSlPort p { x with state := 4 })))
  else .next s

/-- LPI_ENTRY (R440): at L3 or deeper, an empty port that has acknowledged every packet idles its lanes. -/
def execLpiEntry (port : Fin 4) (s : State) : Host.Outcome State Fault Refusal :=
  let p := port.val
  let x := s.slPort p
  if x.state = 4 && s.power.shed ≥ 3 && x.txq.isEmpty && !x.unacked then
    .next (emit (.slControl p 6 0) (s.setSlPort p { x with state := 5 }))
  else .next s

/-- ACK_INTERVAL (R421): packets received and not acknowledged are acknowledged. -/
def execAckInterval (port : Fin 4) (s : State) : Host.Outcome State Fault Refusal :=
  let p := port.val
  let x := s.slPort p
  if x.unacked && (x.state = 4 || x.state = 5) then
    .next (emit (.slControl p 3 (x.rxSeq - 1)) (s.setSlPort p { x with unacked := false }))
  else .next s

/-! ### Packets (R423, R430, R431) -/

/-- An accepted packet: its transaction waits to be performed; an unknown OP is answered at once (R433). -/
def slAccept (p : Nat) (t : SlTxn) (s : State) : State :=
  let x := s.slPort p
  let op := t.op.toNat
  let known := [0x01, 0x02, 0x03, 0x04, 0x10, 0x11, 0x12, 0x81, 0x82, 0x83, 0x84].contains op
  if !known then
    slTransmit p { op := 0x81, tag := t.tag.toNat, status := stBadOpcode } (emit (.slControl p 5 (slCost op 0)) s)
  else
    let late := match kget t.win.toNat s.winIn with
      | some v => v.closing.isSome
      | none => false
    s.setSlPort p { x with rxq := x.rxq ++ [{ txn := t, peer := x.peer, late }] }

/-- A packet that is not the next of its direction: discarded, with one NAK of the expected SEQ. -/
def slDiscard (p : Nat) (again : Bool) (s : State) : State :=
  let x := s.slPort p
  if x.nakSent && !again then s else emit (.slControl p 4 x.rxSeq) (s.setSlPort p { x with nakSent := true })

/-- PACKET (R423, R430, R431): accepted in order under the current key, or as the first of the next epoch; a tag failure
is a lost packet, and the second within one second resets the port. -/
def execPacket (port : Fin 4) (k : SlPacket) (s : State) : Host.Outcome State Fault Refusal :=
  let p := port.val
  let x := s.slPort p
  if x.state ≠ 4 && x.state ≠ 5 then .next s
  else
    let next := k.epoch == x.rxEpoch && k.seq.toNat == x.rxSeq
    let first := x.rekeying = 2 && !x.rxSwitched && k.epoch != x.rxEpoch && k.seq = 0
    if !next && !first then .next (slDiscard p false s)
    else if !k.tagOk then
      let near := match x.lastTag with
        | some t => decide (s.aon < t + 100000000)
        | none => false
      let s := s.setSlPort p { x with authFail := satAdd 14 x.authFail 1, lastTag := some s.aon }
      if near then .next (slSettle (slReset p 4 none s)) else .next (slDiscard p true s)
    else
      let x := if first then { x with rxSwitched := true, rxEpoch := k.epoch, rxSeq := 0, rxKey := x.rxNext } else x
      let s := s.setSlPort p { x with rxSeq := x.rxSeq + 1, nakSent := false, unacked := true }
      .next (slCount (slAccept p k.txn (slRekeyed p s)))

/-! ### Requests of the peer (R434, R435) -/

/-- The first request of a flow that waits, with its place. -/
def slHead (p src : Nat) (s : State) : Option SlIn :=
  (s.slPort p).rxq.find? fun i => i.txn.op.toNat ≤ 4 && i.txn.src.val == src

/-- The first transaction of an operation that waits. -/
def slFirst (p op : Nat) (s : State) : Option SlIn := (s.slPort p).rxq.find? fun i => i.txn.op.toNat == op

/-- Replaces a waiting transaction, or removes it. -/
def slPut (p : Nat) (i : SlIn) (n : Option SlIn) (s : State) : State :=
  let x := s.slPort p
  let rec go : List SlIn → List SlIn
    | [] => []
    | e :: t => if e = i then n.toList ++ t else e :: go t
  s.setSlPort p { x with rxq := go x.rxq }

/-- Returns the credits of a transaction (R424). -/
def slReturn (p : Nat) (i : SlIn) (s : State) : State :=
  if i.mute then s
  else
    let c := slCost i.txn.op.toNat i.txn.len.toNat
    emit (.slControl p 5 (if i.txn.op.toNat ≥ 0x80 then 2 ^ 16 * c else c)) s

/-- A request is performed: it leaves the queue, its answer goes out unless a reset has begun, and what waited for it
goes on. -/
def slDone (p : Nat) (i : SlIn) (answer : Option SlSent) (s : State) : State :=
  let s := slReturn p i (slPut p i none s)
  let s := match answer with
    | some k => if i.mute then s else slTransmit p { k with tag := i.txn.tag.toNat } s
    | none => s
  slCount (slSettle s)

/-- The checks of R434, steps 1 and 2: ST_OK, or the refusal; `n` is the length of the access. -/
def slCheck (i : SlIn) (n : Nat) (needR needW : Bool) (s : State) : Nat :=
  match kget i.txn.win.toNat s.winIn with
  | none => stNotPermitted
  | some v =>
    let off := i.txn.off.toNat
    let atomic := i.txn.op.toNat = 3
    if i.late || v.peer ≠ i.peer || v.srcPart ≠ i.txn.src.val then stNotPermitted
    else if (needR && !v.r) || (needW && !v.w) then stNotPermitted
    else if off + n > v.len * 0x200000 || (atomic && off % n ≠ 0) || i.txn.rsv then stBadParam
    else if (if atomic then i.txn.len ≠ 0 || bits i.txn.atom.toNat 7 5 ≠ 0 else n > 512 || i.txn.atom ≠ 0) then stBadParam
    else stOk

/-- The requester that performs the requests of a flow of the peer (R434 step 3). -/
def slWho (p : Nat) (i : SlIn) (s : State) : Who :=
  { code := 0x30000 + 8 * p + i.txn.src.val, cluster := none, ctx := 0,
    part := Fin.ofNat 8 (((kget i.txn.win.toNat s.winIn).map (·.part)).getD 0) }

def slBasePa (i : SlIn) (s : State) : Nat := ((kget i.txn.win.toNat s.winIn).map (·.base)).getD 0 + i.txn.off.toNat

/-- Status of a home's answer. -/
def ansStatus (a : Ans) : Nat := if a.status = 0x100 || a.poison then stPoisoned else a.status

/-- Performs lines of a WRITE from byte `pos`, in ascending order: the bytes done, and the status when it has ended. -/
def slWriteLines (w : Who) (pa : Nat) (t : SlTxn) : Nat → Nat → State → Nat × Option Nat × State
  | 0, pos, s => (pos, some stOk, s)
  | fuel + 1, pos, s =>
    if t.len.toNat ≤ pos then (pos, some stOk, s)
    else
      let a := pa + pos
      let n := min (t.len.toNat - pos) (64 - a % 64)
      let mask := maskFrom (a % 64) n
      let data := bytesAt t.payload.toNat pos n <<< (8 * (a % 64))
      match once w { homeMsg (if mask = 2 ^ 64 - 1 then .wrFull else .wrPartial) a false with
          data := BitVec.ofNat 512 data, mask := BitVec.ofNat 64 mask } s with
      | (none, s) => (pos, none, s)
      | (some x, s) => if x.status ≠ stOk then (pos, some (ansStatus x), s) else slWriteLines w pa t fuel (pos + n) s

/-- WRITE (R434): line by line; a refused or failed one is answered with ERROR. -/
def execWrite (port : Fin 4) (src : Fin 8) (media : MediaList) (s : State) : Host.Outcome State Fault Refusal :=
  let p := port.val
  match slHead p src.val s with
  | none => .next s
  | some i =>
    if i.txn.op.toNat ≠ 1 then .next s
    else
      let st := slCheck i i.txn.len.toNat false true s
      let err (st : Nat) : Option SlSent := if st = stOk then none else some { op := 0x81, status := st }
      if st ≠ stOk then .next (slDone p i (err st) s)
      else match slWriteLines (slWho p i s) (slBasePa i s) i.txn 10 i.pos { s with media } with
        | (pos, none, s) => .next { slPut p i (some { i with pos }) s with media := [] }
        | (_, some st, s) => .next { slDone p i (err st) s with media := [] }

/-- Reads lines of a READ from byte `pos`. -/
def slReadLines (w : Who) (pa len : Nat) : Nat → Nat → Nat → State → (Nat × Nat) × Option Nat × State
  | 0, pos, acc, s => ((pos, acc), some stOk, s)
  | fuel + 1, pos, acc, s =>
    if len ≤ pos then ((pos, acc), some stOk, s)
    else
      let a := pa + pos
      let n := min (len - pos) (64 - a % 64)
      match once w (homeMsg .rdOnce a false) s with
      | (none, s) => ((pos, acc), none, s)
      | (some x, s) =>
        if ansStatus x ≠ stOk then ((pos, acc), some (ansStatus x), s)
        else slReadLines w pa len fuel (pos + n) (acc + bytesAt x.data.toNat (a % 64) n <<< (8 * pos)) s

/-- READ (R434, R435): answered with READ_DATA, or with its status alone. -/
def execRead (port : Fin 4) (src : Fin 8) (media : MediaList) (s : State) : Host.Outcome State Fault Refusal :=
  let p := port.val
  match slHead p src.val s with
  | none => .next s
  | some i =>
    if i.txn.op.toNat ≠ 2 then .next s
    else
      let st := slCheck i i.txn.len.toNat true false s
      if st ≠ stOk then .next (slDone p i (some { op := 0x82, status := st }) s)
      else match slReadLines (slWho p i s) (slBasePa i s) i.txn.len.toNat 10 i.pos i.acc { s with media } with
        | ((pos, acc), none, s) => .next { slPut p i (some { i with pos, acc }) s with media := [] }
        | ((_, acc), some st, s) =>
          .next { slDone p i (some (if st = stOk then { op := 0x82, len := i.txn.len.toNat, payload := acc }
            else { op := 0x82, status := st })) s with media := [] }

/-- ATOMIC (R434): at the home, at DEV scope; the window must permit both reading and writing. -/
def execRemoteAtomic (port : Fin 4) (src : Fin 8) (media : MediaList) (s : State) : Host.Outcome State Fault Refusal :=
  let p := port.val
  match slHead p src.val s with
  | none => .next s
  | some i =>
    if i.txn.op.toNat ≠ 3 then .next s
    else
      let size := if bit i.txn.atom.toNat 4 then 8 else 4
      let st := slCheck i size true true s
      let res (st v : Nat) : Option SlSent := some { op := 0x83, status := st, payload := v }
      if st ≠ stOk then .next (slDone p i (res st 0) s)
      else
        let pa := slBasePa i s
        let m := { homeMsg .atomic pa false with
          addr := BitVec.ofNat 48 pa, operand := BitVec.ofNat 64 i.txn.payload.toNat,
          compare := BitVec.ofNat 64 (i.txn.payload.toNat / 2 ^ 64),
          aux := BitVec.ofNat 16 (bits i.txn.atom.toNat 4 0 + 4 * 32) }
        match once (slWho p i s) m { s with media } with
        | (none, s) => .next { s with media := [] }
        | (some a, s) => .next { slDone p i (res (ansStatus a) (if ansStatus a = stOk then a.data.toNat else 0)) s with
            media := [] }

/-- FENCE (R435): every earlier request of the flow is performed. -/
def execRemoteFence (port : Fin 4) (src : Fin 8) (s : State) : Host.Outcome State Fault Refusal :=
  match slHead port.val src.val s with
  | none => .next s
  | some i => if i.txn.op.toNat ≠ 4 then .next s else .next (slDone port.val i (some { op := 0x84 }) s)

/-! ### Management operations (R430, R433) -/

/-- WIN_STATE (R433): REMOTE_OPEN of every outbound window that leads to it. -/
def execWinState (port : Fin 4) (s : State) : Host.Outcome State Fault Refusal :=
  let p := port.val
  match slFirst p 0x10 s with
  | none => .next s
  | some i =>
    let o := bit i.txn.payload.toNat 0
    let win := kmap (fun _ (v : WinOut) =>
      if v.peer == i.peer && v.remote == i.txn.win.toNat then { v with isOpen := o } else v) s.winOut
    .next (slDone p i none { s with winOut := win })

/-- The next keys are there; the transmit side switches when it can. -/
def slNextKeys (p : Nat) (initiator : Bool) (s : State) : State :=
  let x := s.slPort p
  let (tx, rx) := slKeys s.free initiator
  s.bump.setSlPort p { x with rekeying := 2, txNext := tx, rxNext := rx, txSwitched := false, rxSwitched := false }

/-- REKEY_KEM (R430): the responder derives the next keys and answers with REKEY_ENCAP. When both hubs have started a
rekey, the one of the handshake's initiator stands. -/
def execRekeyKem (port : Fin 4) (s : State) : Host.Outcome State Fault Refusal :=
  let p := port.val
  match slFirst p 0x11 s with
  | none => .next s
  | some i =>
    let x := s.slPort p
    if x.rekeying = 2 || (x.rekeying = 1 && x.initiator) then .next (slDone p i none s)
    else
      let s := slNextKeys p false s
      .next (slDone p i none (slTransmit p { op := 0x12 } s))

/-- REKEY_ENCAP (R430): the initiator derives the next keys. -/
def execRekeyEncap (port : Fin 4) (s : State) : Host.Outcome State Fault Refusal :=
  let p := port.val
  match slFirst p 0x12 s with
  | none => .next s
  | some i =>
    if (s.slPort p).rekeying ≠ 1 then .next (slDone p i none s)
    else .next (slDone p i none (slPump p (slNextKeys p true s)))

/-! ### Responses (R437) -/

/-- Takes the response at the head of an operation's responses, with the request it answers. -/
def slResponse (p op : Nat) (ok : SlReq → Bool) (act : SlIn → SlReq → State → State) (s : State) : State :=
  match slFirst p op s with
  | none => s
  | some i =>
    let s := slReturn p i (slPut p i none s)
    let s := match kget i.txn.tag.toNat (s.slPort p).reqs with
      | none => s
      | some r =>
        if !ok r then s
        else
          let x := s.slPort p
          act i r (s.setSlPort p { x with reqs := kdel i.txn.tag.toNat x.reqs })
    partResetSettle (settleLaunches (slSettle s))

/-- ERROR: a refused WRITE faults its context, moved on or not; any other request completes with the status. -/
def execError (port : Fin 4) (s : State) : Host.Outcome State Fault Refusal :=
  .next (slResponse port.val 0x81 (fun _ => true) (fun i r s => slComplete r i.txn.status.toNat 0 s) s)

def execReadData (port : Fin 4) (s : State) : Host.Outcome State Fault Refusal :=
  .next (slResponse port.val 0x82 (fun r => r.op == 2)
    (fun i r s => slComplete r i.txn.status.toNat (i.txn.payload.toNat % 2 ^ (8 * r.len)) s) s)

def execAtomicData (port : Fin 4) (s : State) : Host.Outcome State Fault Refusal :=
  .next (slResponse port.val 0x83 (fun r => r.op == 3)
    (fun i r s => slComplete r i.txn.status.toNat (i.txn.payload.toNat % 2 ^ 64) s) s)

/-- The writes that a FENCE of request r covers leave the table; they and the FENCE's waiters. -/
def slCovered (p : Nat) (r : SlReq) (s : State) : List SlReq × State :=
  let x := s.slPort p
  let mine (e : SlReq) : Bool := e.op == 1 && e.covered && e.part == r.part && e.peer == r.peer
  ((x.reqs.filter fun e => mine e.2).map (·.2), s.setSlPort p { x with reqs := kfilter (fun _ e => !mine e) x.reqs })

/-- FENCE_ACK: the writes it covers are confirmed, for every waiter. -/
def execFenceAck (port : Fin 4) (s : State) : Host.Outcome State Fault Refusal :=
  .next (slResponse port.val 0x84 (fun r => r.op == 4) (fun _ r s => (slCovered port.val r s).2) s)

/-- REMOTE_TIMEOUT (R437): 10 ms without an answer to a READ, ATOMIC or FENCE. The writes that a lost FENCE covers
complete with it. -/
def execRemoteTimeout (port : Fin 4) (tag : BitVec 12) (s : State) : Host.Outcome State Fault Refusal :=
  let p := port.val
  match kget tag.toNat (s.slPort p).reqs with
  | none => .next s
  | some r =>
    if r.op = 1 then .next s
    else
      let x := s.slPort p
      let s := s.setSlPort p { x with reqs := kdel tag.toNat x.reqs,
                                      txq := x.txq.filter fun k => k.op ≥ 0x10 || k.tag ≠ tag.toNat }
      let s := if r.op = 4 then
          let (ws, s) := slCovered p r s
          slFailAll ws stTimeout s
        else slComplete r stTimeout 0 s
      .next (partResetSettle (settleLaunches s))

/-! ### Training (R425 to R428) -/

/-- PHY_LOCK: all 8 lanes lock within 200 ms, or the port tries again. -/
def execPhyLock (port : Fin 4) (locked : Bool) (s : State) : Host.Outcome State Fault Refusal :=
  let p := port.val
  let x := s.slPort p
  if x.state ≠ 1 || x.step ≠ 1 then .next s
  else if locked then .next (s.setSlPort p { x with state := 2, step := 2 })
  else .next (slFail p 2 s)

def execTransmitEqualisationComplete (port : Fin 4) (s : State) : Host.Outcome State Fault Refusal :=
  let p := port.val
  let x := s.slPort p
  if x.state = 2 && x.step = 2 then .next (s.setSlPort p { x with step := 3 }) else .next s

/-- QUALIFICATION_COMPLETE: at most 10^6 errors in 10^12 bits pass; then the handshake begins with HELLO. -/
def execQualificationComplete (port : Fin 4) (errors : BitVec 64) (s : State) : Host.Outcome State Fault Refusal :=
  let p := port.val
  let x := s.slPort p
  if x.state ≠ 2 || x.step ≠ 3 then .next s
  else if errors.toNat ≤ 1000000 then
    .next (emit (.slHandshake p 1) (s.setSlPort p { x with state := 3, step := 4, hs := 0 }))
  else .next (slFail p 7 s)

/-- HELLO (R428): the chain must verify and the serial be allowed; the lower serial is the initiator. -/
def execHello (port : Fin 4) (serial : BitVec 64) (chainOk : Bool) (s : State) : Host.Outcome State Fault Refusal :=
  let p := port.val
  let x := s.slPort p
  if x.state ≠ 3 || x.step ≠ 4 || x.hs ≠ 0 then .next s
  else
    let allowed := ((kget p s.slConf).getD {}).peers
    let x := { x with cand := serial.toNat, hs := 1, initiator := decide (s.fuse.serial < serial.toNat) }
    let s := s.setSlPort p x
    if !chainOk || (!allowed.isEmpty && !allowed.contains serial.toNat) then .next (slAuthFail p s)
    else if x.initiator then .next (emit (.slHandshake p 2) s) else .next s

/-- KEM: the responder answers with its ciphertext and signature. -/
def execKem (port : Fin 4) (s : State) : Host.Outcome State Fault Refusal :=
  let p := port.val
  let x := s.slPort p
  if x.state = 3 && x.step = 4 && x.hs = 1 && !x.initiator then
    .next (emit (.slHandshake p 3) (s.setSlPort p { x with hs := 2 }))
  else .next s

/-- ENCAP: the initiator verifies the responder's signature and sends its own. -/
def execEncap (port : Fin 4) (sigOk : Bool) (s : State) : Host.Outcome State Fault Refusal :=
  let p := port.val
  let x := s.slPort p
  if x.state = 3 && x.step = 4 && x.hs = 1 && x.initiator then
    if sigOk then .next (slAgreed p (emit (.slHandshake p 4) s)) else .next (slAuthFail p s)
  else .next s

/-- FINISH: the responder verifies the initiator's signature. -/
def execFinish (port : Fin 4) (sigOk : Bool) (s : State) : Host.Outcome State Fault Refusal :=
  let p := port.val
  let x := s.slPort p
  if x.state = 3 && x.step = 4 && x.hs = 2 && !x.initiator then
    if sigOk then .next (slAgreed p s) else .next (slAuthFail p s)
  else .next s

/-- BER_MEASUREMENT (R426): the bits that the decoder corrected and the codewords it could not, over 10^12 bits. -/
def execBerMeasurement (port : Fin 4) (corrected uncorrectable : BitVec 40) (s : State) :
    Host.Outcome State Fault Refusal :=
  let p := port.val
  let x := s.slPort p
  if x.state ≠ 4 && x.state ≠ 5 then .next s
  else
    let s := s.setSlPort p { x with fecCorrected := satAdd 32 x.fecCorrected corrected.toNat,
                                    fecUncorrectable := satAdd 16 x.fecUncorrectable uncorrectable.toNat }
    if corrected.toNat + 16 * uncorrectable.toNat > 10000000 then .next (slEvent p 6 0 x.peer s) else .next s

/-- SLOYTH_LINK_LOSS (R441): in service the port is reset; in training the step fails. -/
def execSloythLinkLoss (port : Fin 4) (s : State) : Host.Outcome State Fault Refusal :=
  let x := s.slPort port.val
  if x.state = 4 || x.state = 5 then .next (slSettle (slReset port.val 2 none s))
  else if 1 ≤ x.step then .next (slFail port.val 2 s) else .next s

end Sys2Proof.Machine
end

