-- ==== Sys2Proof/Machine/Txn.lean ====
section
/-!
DEFINITION. Configuration transactions: REG_STAGE, TXN_BEGIN, TXN_COMMIT, TXN_ROLLBACK, TXN_QUERY and the idle limit
(R353 to R362).
-/
namespace Sys2Proof.Machine

/-! ### Staged operations -/

/-- The packet of a staged operation. -/
def opPkt : StageOp → Pkt
  | .ctxCreate p _ _ _ | .ctxDestroy p _ | .segSet p _ _ _ | .segClear p _ _ | .map p _ _ _ _ | .unmap p _ _ _ _
  | .granuleBind p _ _ _ | .granuleUnbind p _ _ | .queueCreate p _ _ _ _ _ _ _ _ | .queueEnable p _ | .queueDisable p _
  | .queueDestroy p _ | .fenceCreate p _ _ | .fenceDestroy p _ | .autotierPoolGrant p _ _ | .autotierPoolWithdraw p _ _
  | .partitionLayout p _ _ _ _ | .instanceCreate p _ _ | .instanceDestroy p _ | .siteGrantRequest p _ _
  | .siteGrantAperture p _ _ | .siteGrantWithdraw p _ _ | .slWindowSet p _ | .slWindowClear p _ _ | .keySlotBind p _
  | .regStage p _ => p

/-- The objects a staged operation names (R357). -/
def opObjs (o : StageOp) (s : State) : List Nat :=
  match o with
  | .ctxCreate _ _ _ _ => []
  | .ctxDestroy _ c => [objCtx c.toNat]
  | .segSet _ c i _ | .segClear _ c i | .unmap _ c i _ _ => [objCtx c.toNat, objSeg c.toNat i.toNat]
  | .map _ c i _ fs => [objCtx c.toNat, objSeg c.toNat i.toNat] ++ granObjs c.toNat i.toNat (fs.map (·.toNat)) s
  | .granuleBind _ a _ n | .granuleUnbind _ a n => granRange a.toNat n.toNat
  | .queueCreate _ _ _ _ _ _ c _ _ => [objCtx c.toNat]
  | .queueEnable _ q | .queueDisable _ q | .queueDestroy _ q => [objQueue q.toNat]
  | .fenceCreate _ c _ => [objCtx c.toNat]
  | .fenceDestroy _ f => [objFence f.toNat]
  | .autotierPoolGrant _ _ fs | .autotierPoolWithdraw _ _ fs => poolObjs (fs.map (·.toNat))
  | .partitionLayout p _ _ _ _ => [objPart (pnum p)]
  | .instanceCreate _ _ cs => cs.map fun c => objCtx c.toNat
  | .instanceDestroy _ i => [objInst i.toNat]
  | .siteGrantRequest _ n c | .siteGrantAperture _ n c | .siteGrantWithdraw _ n c => grantObjs n.toNat c.toNat s
  | .slWindowSet _ d => [winObj (wByte d 0 1) (wByte d 1 1)]
  | .slWindowClear _ d w => [winObj d.toNat w.toNat]
  | .keySlotBind _ k => [objKey k.toNat]
  | .regStage _ es => es.map fun e => objReg e.1.toNat

/-- Performs a staged operation; a creation takes the id it reserved. -/
def opAct (o : StageOp) (id : Option Nat) (s : State) : OpRes × State :=
  match o with
  | .ctxCreate p a b c => actCtxCreate p a b c id s
  | .ctxDestroy p c => actCtxDestroy p c.toNat s
  | .segSet p c i d => actSegSet p c.toNat i.toNat d.toNat s
  | .segClear p c i => actSegClear p c.toNat i.toNat s
  | .map p c i f fs => actMap p c.toNat i.toNat f.toNat (fs.map (·.toNat)) s
  | .unmap p c i f n => actUnmap p c.toNat i.toNat f.toNat n.toNat s
  | .granuleBind p a st n => actGranuleBind p a.toNat st n.toNat s
  | .granuleUnbind p a n => actGranuleUnbind p a.toNat n.toNat s
  | .queueCreate p k n v l c x r h => actQueueCreate p k.toNat n.toNat v l.toNat c.toNat x.toNat r.toNat h.toNat id s
  | .queueEnable p q => actQueueEnable p q.toNat s
  | .queueDisable p q => actQueueDisable p q.toNat s
  | .queueDestroy p q => actQueueDestroy p q.toNat s
  | .fenceCreate p c m => actFenceCreate p c.toNat m.toNat id s
  | .fenceDestroy p f => actFenceDestroy p f.toNat s
  | .autotierPoolGrant p t fs => actPool p t.toNat grantOne (fs.map (·.toNat)) s
  | .autotierPoolWithdraw p t fs => actPool p t.toNat withdrawOne (fs.map (·.toNat)) s
  | .partitionLayout p c a b d => actLayout p c.toNat a.toNat b.toNat d.toNat s
  | .instanceCreate p t cs => actInstCreate p t.toNat (cs.map (·.toNat)) id s
  | .instanceDestroy p i => actInstDestroy p i.toNat s
  | .siteGrantRequest p n c => actGrantRequest p n.toNat c.toNat s
  | .siteGrantAperture p n c => actGrantAperture p n.toNat c.toNat s
  | .siteGrantWithdraw p n _ => actGrantWithdraw p n.toNat s
  | .slWindowSet p d => actWindowSet p d s
  | .slWindowClear p d w => actWindowClear p d.toNat w.toNat s
  | .keySlotBind p k => actKeyBind p k.toNat s
  | .regStage _ es => match entriesApply es s with
    | .ok s => ({}, s)
    | .error st => (bad st, s)

/-- Starts the drain work of a staged operation for packet k (R358 step 5). -/
def opPrep (o : StageOp) (k : Pkt) (s : State) : State :=
  match o with
  | .unmap _ c i f n => prepUnmap c.toNat i.toNat f.toNat n.toNat k s
  | .segClear _ c i => prepSegClear c.toNat i.toNat k s
  | .queueDisable _ q => prepQueueDisable q.toNat k s
  | .granuleUnbind _ a n => prepUnbind (granOf a.toNat) n.toNat k s
  | .siteGrantWithdraw _ n _ => prepWithdraw n.toNat k s
  | .slWindowClear _ d w => prepWindowClear d.toNat w.toNat k s
  | _ => s

/-- Served while a partition reset runs (R385): a destroy command, or an operation that names no object of a partition. -/
def opInReset : StageOp → Bool
  | .ctxDestroy _ _ | .queueDestroy _ _ | .fenceDestroy _ _ | .instanceDestroy _ _ | .regStage _ _ => true
  | _ => false

def isRegStage : StageOp → Bool
  | .regStage _ _ => true
  | _ => false

def isLayout : StageOp → Bool
  | .partitionLayout _ _ _ _ _ => true
  | _ => false

/-! ### Commit (R357, R358) -/

/-- Objects made by the transaction itself: its reserved ids, with the segments of its contexts. -/
def madeHere (t : Txn) (o : Nat) : Bool :=
  t.ops.any fun x => match x.reserved with
    | none => false
    | some k => o == reservedObj k || (k / 2 ^ 32 == 1 && o / 64 == objSeg (k % 2 ^ 32) 0 / 64)

/-- An operation names an object changed since TXN_BEGIN. `gens` is the table at the start of the commit. -/
def conflicts (t : Txn) (gens : KV Nat) (o : StageOp) (s : State) : Bool :=
  (opObjs o s).any fun k => !madeHere t k && decide (t.beginGen < (kget k gens).getD 0)

/-- Step 3: every operation in staged order, against what the operations before it leave; the first failure with its index. -/
def runOps (t : Txn) (gens : KV Nat) : Nat → List Staged → State → Except (Nat × Nat) State
  | _, [], s => .ok s
  | i, x :: l, s =>
    if conflicts t gens x.op s then .error (i, stTxnConflict)
    else if (opPkt x.op).partition.toNat < 8 && (s.part (pnum (opPkt x.op))).resetting.isSome && !opInReset x.op then
      .error (i, stBusy)
    else
      let (r, s') := opAct x.op x.reserved s
      if r.status ≠ stOk then .error (i, r.status) else runOps t gens (i + 1) l s'

/-- The place of the last operation of a kind. -/
def lastOf (f : StageOp → Bool) (l : List Staged) : Nat :=
  (l.foldl (fun (a : Nat × Nat) x => (a.1 + 1, if f x.op then a.1 else a.2)) (0, 0)).2

/-- The checks over the whole commit (R231, R368, R374, R375); a failure is charged to the last operation that it ties. -/
def wholeCheck (t : Txn) (s : State) : Option (Nat × Nat) :=
  if layoutClash s then some (lastOf isLayout t.ops, stTxnConflict)
  else if (t.ops.any fun x => isRegStage x.op) && !(pcgEqual s && waysOk s && ctlqOk s) then
    some (lastOf isRegStage t.ops, stTxnConflict)
  else none

/-- The 8 bytes of the reply. -/
def commitData (applied index status : Nat) : Nat := put 0 32 applied + put 32 16 index + put 48 16 status

/-- What a failed commit leaves: nothing applied, the transaction ended. -/
def commitFail (id index status : Nat) (s : State) : OpRes × State :=
  ({ status, len := 8, data := commitData 0 index status },
   { s with txns := kdel id s.txns,
            txnConflicts := if status = stTxnConflict then satAdd 16 s.txnConflicts 1 else s.txnConflicts })

/-- Step 3 on the whole commit: the first failure with its index. -/
def commitCheck (t : Txn) (s : State) : Option (Nat × Nat) :=
  match runOps t s.gens 0 t.ops s with
  | .error e => some e
  | .ok u => wholeCheck t u

/-- Step 5 once the drain work has ended: the operations in staged order. The checks have been made; an operation that an
action of the hub has overtaken since leaves everything as it is. -/
def applyOps (l : List Staged) (s : State) : State :=
  l.foldl (fun s x => let (r, t) := opAct x.op x.reserved s; if r.status = stOk then t else s) s

/-- A change whose drain work has ended is made, and its packet replies (R358 steps 5 and 6, R360). -/
def changeEnd (c : Change) (s : State) : State :=
  let s := unprep c.pkt { s with changes := s.changes.filter fun x => !samePkt x.pkt c.pkt }
  let g := s.cfgGen
  if c.txn = 0 then
    match c.rest with
    | x :: _ =>
      let (r, s) := opAct x.op x.reserved s
      reply c.pkt c.opcode r (if r.status = stOk then stampAll g (c.objs ++ createdObj c.opcode r) s else s)
    | [] => reply c.pkt c.opcode {} s
  else
    let s := stampAll g (c.objs ++ c.rest.filterMap fun x => x.reserved.map reservedObj) (applyOps c.rest s)
    let s := slSettle (foldS (List.range 4) siteSettle { s with txns := kdel c.txn s.txns, lastCommit := c.txn })
    reply c.pkt c.opcode { len := 8, data := commitData c.rest.length 0xFFFF 0 } s

/-- Goes on with a change in hand: none ends before its drain work, or while L5 halts it (R273, R362). -/
def changeGo (c : Change) (s : State) : State := if s.halted || packetOpen c.pkt s then s else changeEnd c s

/-- Goes on with every change in hand. -/
def settleChanges (s : State) : State := foldS s.changes changeGo s

/-- Another commit is between its steps 2 and 6, or an earlier accepted one has not begun (R358 step 1). -/
def commitAhead (p : Pkt) (s : State) : Bool :=
  (s.changes.any fun c => c.txn != 0) || (s.accepted.takeWhile fun a => !samePkt a.pkt p).any fun a => a.opcode == 0x11

/-- TXN_COMMIT on an open transaction, from its step 2: all of its operations or none. -/
def commitTxn (p : Pkt) (t : Txn) (s : State) : State :=
  let id := p.txn.toNat
  if t.ops.isEmpty then reply p 0x11 { len := 8, data := commitData 0 0xFFFF 0 } { s with txns := kdel id s.txns }
  else match commitCheck t s with
    | some (i, st) =>
      let (r, s) := commitFail id i st s
      reply p 0x11 r s
    | none =>
      let c : Change := { pkt := p, opcode := 0x11, txn := id, objs := (t.ops.map fun x => opObjs x.op s).flatten, rest := t.ops }
      let s := { s with txns := kset id { t with committing := true } s.txns, changes := s.changes ++ [c] }
      changeGo c (foldS t.ops (fun x s => opPrep x.op p s) s)

/-- QUEUE_DISABLED (R305): the last dispatched descriptor of a queue that is being disabled has completed, and its change is
made. -/
def execQueueDisabled (queue : BitVec 14) (s : State) : Host.Outcome State Fault Refusal :=
  match (s.queue queue.toNat).bind (·.stopping) with
  | none => .next s
  | some p => .next (foldS (s.changes.filter fun c => samePkt c.pkt p) changeGo s)

/-! ### The packets -/

/-- The header checks of a packet that names a transaction, which no row of R351 makes stageable. -/
def txnHeader (p : Pkt) (i : OpInfo) (s : State) : Option OpRes :=
  headerCheck { p with txn := 0 } i (p.paramLen = 0) s

/-- The open transaction a packet names (R355, R361). -/
def txnOf (p : Pkt) (s : State) : Except OpRes Txn :=
  match kget p.txn.toNat s.txns with
  | none => .error (bad stTxnAborted 4)
  | some t =>
    if t.path ≠ p.path then .error (bad stNotPermitted 4)
    else if t.scope ≠ p.partition.toNat then .error (bad stNotPermitted 2)
    else .ok t

/-- The next id: a 32-bit count that skips 0. -/
def nextId (n : Nat) : Nat := if n + 1 < 2 ^ 32 then n + 1 else 1

/-- TXN_BEGIN (R355). -/
def execTxnBegin (p : Pkt) (idleMs : BitVec 32) (s : State) : Host.Outcome State Fault Refusal :=
  if packetWaits p [] s then .next s else
  match headerCheck p { code := 0x10, col := .any } (p.paramLen = 4) s with
  | some r => .next (reply p 0x10 r s)
  | none =>
    if idleMs.toNat < 1 || 600000 < idleMs.toNat then .next (reply p 0x10 (bad stBadParam 32) s)
    else if s.txns.length ≥ 16 then .next (reply p 0x10 (bad stNoResource) s)
    else
      let id := s.nextTxn
      let t : Txn := { scope := p.partition.toNat, path := p.path, idleMs := idleMs.toNat, beginGen := s.cfgGen }
      .next (replyTo' p 0x10 { len := 4, data := id } id 0xFFFF
        { s with txns := kset id t s.txns, nextTxn := nextId id })

/-- A TXN_COMMIT that a warm reset still admits: it names a transaction that was begun, which step 2 has rolled back (R36,
R361). -/
def commitInReset (p : Pkt) (s : State) : Bool := s.rst.inProgress && p.txn != 0 && p.txn.toNat < s.nextTxn

/-- TXN_COMMIT (R358): it waits in step 1 for an earlier commit, and for the objects that its operations name. -/
def execTxnCommit (p : Pkt) (s : State) : Host.Outcome State Fault Refusal :=
  if packetWaits p [] s then .next s
  else if commitInReset p s then .next (reply p 0x11 (bad stTxnAborted 4) s)
  else match txnHeader p { code := 0x11, col := .any, atL4 := true } s with
  | some r => .next (reply p 0x11 r s)
  | none => match txnOf p s with
    | .error r => .next (reply p 0x11 r s)
    | .ok t =>
      if commitAhead p s || packetWaits p (t.ops.map fun x => opObjs x.op s).flatten s then
        .next { s with txns := kset p.txn.toNat { t with committing := true } s.txns }
      else .next (commitTxn p t s)

/-- TXN_ROLLBACK (R361). -/
def execTxnRollback (p : Pkt) (s : State) : Host.Outcome State Fault Refusal :=
  if packetWaits p [] s then .next s else
  match txnHeader p { code := 0x12, col := .any, atL4 := true } s with
  | some r => .next (reply p 0x12 r s)
  | none => match txnOf p s with
    | .error r => .next (reply p 0x12 r s)
    | .ok _ =>
      if s.changes.any fun c => c.txn == p.txn.toNat then .next (reply p 0x12 (bad stTxnAborted 4) s)
      else .next (reply p 0x12 {} { s with txns := kdel p.txn.toNat s.txns })

/-- TXN_QUERY (R355). -/
def execTxnQuery (p : Pkt) (s : State) : Host.Outcome State Fault Refusal :=
  if packetWaits p [] s then .next s else
  match txnHeader p { code := 0x13, col := .any, query := true } s with
  | some r => .next (reply p 0x13 r s)
  | none => match txnOf p s with
    | .error r => .next (reply p 0x13 r s)
    | .ok t =>
      let data := put 0 8 (b2n t.committing) + put 16 16 t.ops.length +
        put 32 32 (t.ops.foldl (fun n o => n + o.bytes) 0)
      .next (reply p 0x13 { len := 8, data } s)

/-- TXN_IDLE_TIMEOUT (R355, R361): HMF rolls the transaction back; one that is committing is idle no more. -/
def execTxnIdleTimeout (txn : BitVec 32) (s : State) : Host.Outcome State Fault Refusal :=
  match kget txn.toNat s.txns with
  | none => .next s
  | some t => if t.committing then .next s else .next { s with txns := kdel txn.toNat s.txns, txnAborts := satAdd 16 s.txnAborts 1 }

/-! ### REG_STAGE (R354, R364) -/

def infoRegStage : OpInfo := { code := 3, col := .any, stageable := true }

/-- The scope of the transaction a packet names. -/
def scopeOf (p : Pkt) (s : State) : Nat := ((kget p.txn.toNat s.txns).map (·.scope)).getD 15

/-- The form of REG_STAGE. -/
def regForm (p : Pkt) (entries : List (BitVec 32 × Bool × BitVec 64)) (s : State) : Option OpRes :=
  entriesCheck (scopeOf p s) 0 entries s

/-- REG_STAGE is only staged; with no entries it uses no staging entry. -/
def execRegStage (p : Pkt) (entries : List (BitVec 32 × Bool × BitVec 64)) (s : State) :
    Host.Outcome State Fault Refusal :=
  let lenOk : Bool := p.paramLen.toNat = 8 + 16 * entries.length && entries.length ≤ 253
  if packetWaits p (entries.map fun e => objReg e.1.toNat) s then .next s
  else if p.txn = 0 then
    match headerCheck p infoRegStage lenOk s with
    | some r => .next (reply p 3 r s)
    | none => .next (reply p 3 (bad stBadParam 4) s)
  else if entries.isEmpty then
    match headerCheck p infoRegStage lenOk s with
    | some r => .next (reply p 3 r s)
    | none => match kget p.txn.toNat s.txns with
      | none => .next (reply p 3 (bad stTxnAborted 4) s)
      | some t =>
        if t.path ≠ p.path then .next (reply p 3 (bad stNotPermitted 4) s)
        else if t.scope ≠ 15 && t.scope ≠ p.partition.toNat then .next (reply p 3 (bad stNotPermitted 2) s)
        else .next (reply p 3 {} s)
  else
    .next (stagePacket p infoRegStage lenOk (regForm p entries) (.regStage p entries) (8 + 16 * entries.length) noReserve
      (fun _ => entries.map fun e => objReg e.1.toNat) (fun _ s => (bad stBadParam 4, s)) s)

end Sys2Proof.Machine
end

