-- ==== Sys2Proof/Machine/Resets.lean ====
section
/-!
DEFINITION. Power-on reset, PERST# and the warm reset (R29, R33 to R39, R299, R475, and what each chapter keeps).
-/
namespace Sys2Proof.Machine

/-! ### Cast-on begins -/

/-- The last `n` entries of a list. -/
def lastN {α : Type} (n : Nat) (l : List α) : List α := l.drop (l.length - n)

/-- Cast-on starts at a stage (R473); flash keeps the reports of the last four (R477). -/
def castOnStart (stage : Nat) (warm : Bool) (s : State) : State :=
  { s with co := { s.co with stage, running := true, ready := false, failed := false, failCode := 0, warm, halted := false,
                             start := s.aon, castOns := satAdd 16 s.co.castOns 1, spent := [] },
           flash := { s.flash with reports := lastN 3 s.flash.reports ++ [[]] } }

/-! ### Power-on reset and PERST# (R33, R38) -/

/-- Everything volatile goes, at once, with no write-back. What stays: fuses, boot flash with the offline list, the repair
records and the operating time, the pins, and over PERST# the always-on counter and the THERMTRIP latch. -/
def hardReset (por : Bool) (s : State) : State :=
  let r := s.rep
  let rails := (List.range 4).filter fun n => (s.site n).powered
  let t : State := { State.reset with
    fuse := s.fuse, flash := s.flash, offline := s.offline, offOverflow := s.offOverflow, opSeconds := s.opSeconds,
    rep := { r with running := none, margins := [], marginLow := [], recordLost := false }
    sec := { lc := lcDecode s.fuse.lc, invalid := lcPartial s.fuse.lc }
    clocks := if por then [] else kset 0 (s.clock 0) []
    rst := { lastKind := if por then 1 else 2, porN := s.rst.porN, perstN := s.rst.perstN }
    power := { tripped := !por && s.power.tripped, pwrFail := s.power.pwrFail }
    journal := s.flashJournal.getD (if por then (0, 0, 0) else s.journal)
    out := s.out, free := s.free, pending := s.pending }
  shedCheck (foldS rails (fun n t => emit (.pin pinSitePwrEn n 0) t) t)

/-- The cast-on after both pins are released. -/
def released (s : State) : State := if s.rst.porN && s.rst.perstN then castOnStart 0 false s else s

/-- POWER_ON_RESET: POR_N goes low, or VDD_AON leaves tolerance. -/
def execPowerOnReset (s : State) : Host.Outcome State Fault Refusal :=
  .next (hardReset true { s with rst := { s.rst with porN := false } })

/-- POR_N_DEASSERT: the always-on clock runs, and the cold cast-on starts at CO0. -/
def execPorNDeassert (s : State) : Host.Outcome State Fault Refusal :=
  if s.rst.porN then .next s
  else .next (released { s with rst := { s.rst with porN := true },
                                clocks := kset 0 { count := 0, started := true, running := true } s.clocks })

/-- PERST#: a reset while POR_N is high. -/
def execPerst (s : State) : Host.Outcome State Fault Refusal :=
  if !s.rst.perstN then .next s
  else
    let s := { s with rst := { s.rst with perstN := false } }
    if s.rst.porN then .next (hardReset false s) else .next s

/-- PERST_DEASSERT: with POR_N high, cast-on starts at CO0, and the link may train (R299). -/
def execPerstDeassert (s : State) : Host.Outcome State Fault Refusal :=
  if s.rst.perstN then .next s else .next (released { s with rst := { s.rst with perstN := true } })

/-! ### Packets outstanding at a warm reset (R37) -/

/-- Packets whose partition reset, site reset or port reset has started, with their opcodes. -/
def startedPkts (s : State) : List (Pkt × Nat) :=
  (s.parts.filterMap fun e => e.2.resetting.bind fun p => p.map fun k => (k, 0x400)) ++
  (s.sites.map fun e => e.2.waiters.map fun k => (k, 0x500)).flatten ++
  (s.slPorts.filterMap fun e => e.2.resetting.bind fun r => r.pkt.map fun k => (k, 0x600))

/-- Packets whose effect has begun and is taken back, with their opcodes: direct changes that drain, an instance that
freezes, an abandonment and a REPAIR_QUIESCE (R37, R273). -/
def halfPkts (s : State) : List (Pkt × Nat) :=
  (s.changes.filterMap fun c => if c.txn = 0 then some (c.pkt, c.opcode) else none) ++
  (s.insts.map fun e => e.2.freezing.map fun k => (k, 0x412)).flatten ++
  (s.ctxs.filterMap fun e => e.2.abandonFor.map fun k => (k, 0x103)) ++
  (match s.rep.running with
    | some (k, _, _) => [(k, 0x800)]
    | none => [])

/-- Steps 1 and 2 for the command paths: resets that have started complete with ST_OK, everything else with ST_BUSY and no
effect, but for a commit that has started; open transactions are rolled back, and a TXN_COMMIT of one gets ST_TXN_ABORTED. A
KEY_SLOT_DRAIN leaves its slot DRAINING (R461). -/
def cutPackets (s : State) : State :=
  let ok := startedPkts s
  let half := halfPkts s ++ (s.sec.drains.map fun d => (d.2.pkt, 0x701))
  let s := { s with
    parts := kmap (fun _ x => { x with resetting := none, commitWait := false }) s.parts
    sites := kmap (fun _ x => { x with waiters := [] }) s.sites
    slPorts := kmap (fun _ x => { x with resetting := none }) s.slPorts
    insts := kmap (fun _ x => { x with freezing := [] }) s.insts
    ctxs := kmap (fun _ c => if c.abandonFor.isSome then { c with abandon := 0, abandonFor := none, refc := c.refc - 1 }
      else c) s.ctxs
    rep := { s.rep with running := none }
    sec := { s.sec with drains := [], challenge := none } }
  let s := foldS ok (fun e s => reply e.1 e.2 {} s) s
  let s := foldS half (fun e s => reply e.1 e.2 (bad stBusy)
    (unprep e.1 { s with changes := s.changes.filter fun c => !samePkt c.pkt e.1 })) s
  let s := foldS (s.accepted.filter fun a => !(s.changes.any fun c => samePkt c.pkt a.pkt)) (fun a s =>
    reply a.pkt a.opcode (if a.opcode = 0x11 then bad stTxnAborted 4 else bad stBusy) s) s
  rollbackAll s

/-! ### The steps of R36 -/

/-- A transaction that a peer sent and that is accepted is still to be performed. -/
def inboundOpen (s : State) : Bool :=
  s.slPorts.any fun e => e.2.rxq.any fun i => 1 ≤ i.txn.op.toNat && i.txn.op.toNat ≤ 4

/-- Every in-flight counter is zero. -/
def warmIdle (s : State) : Bool :=
  s.moves.isEmpty && (slReqs s).isEmpty && !inboundOpen s && s.posted.isEmpty && s.port.writes.isEmpty

/-- Some commit has started and not ended (R36 step 2). -/
def commitRuns (s : State) : Bool := s.changes.any fun c => c.txn != 0

/-- Step 3 begins: engines stop, contexts are LOST (R34), moves follow R249, writes to host space are dropped (R297), a FENCE
goes out on every Sloyth flow (R441). Writes that cluster caches and homes have taken go on. -/
def warmStop (s : State) : State :=
  let s := foldS (s.cores.filter fun e => e.2.run) (fun e s => stopCore e.1 true s) s
  let s := foldS (s.ctxs.map (·.1)) loseByReset s
  let s := abandonMoves (fun _ => true) stBusy s
  let posted := kfilter (fun _ w => w.target != 1) s.posted
  let kept (k : Nat) : Bool := (kget (k / 2 ^ 48) posted).isSome || 0x60000 ≤ k / 2 ^ 48 && k / 2 ^ 48 < 0x60000 + 200
  let s := { s with port := { s.port with parked := [], atsAsked := [], atsBad := [] }, posted,
                    asked := kfilter (fun k _ => kept k) s.asked, ans := kfilter (fun k _ => kept k) s.ans }
  slFenceAll (fun _ => true) { s with rst := { s.rst with step := 3 } }

/-- Data that is on its way to a home reaches it. -/
def landData (s : State) : State :=
  let put (n : Nat) (d : LineData) (p : Bool) (s : State) : State := homeWrite n (2 ^ 64 - 1) d p 0 false s
  let land (m : Msg) (s : State) : State :=
    if m.op = .wbDirty || m.op = .snpData then put (m.addr.toNat / 64) m.data m.poison s else s
  let s := foldS (s.lines.map (·.1)) (fun n s =>
    let l := s.line n
    let s := match l.tx.bind (·.got) with
      | some (d, p) => put n d p s
      | none => s
    foldS l.queue land s) s
  foldS s.net land { s with net := [], posted := [], asked := [], ans := [], reqTxn := [] }

/-- The sites a transaction waits for. -/
def waitsDie (t : HomeTx) : List Nat := t.waiting.filter fun a => 0xC8 ≤ a && a < 0xCC

/-- Only recalls from dies go on at the homes. -/
def cutLines (s : State) : State :=
  { s with lines := kmap (fun _ l =>
      let tx := l.tx.bind fun t => match waitsDie t with
        | [] => none
        | a :: _ => some { t with why := .site (a - 0xC8), waiting := waitsDie t, ackOf := none, got := none }
      { l with tx, queue := [], hold := none }) s.lines }

/-- A site takes part in the warm reset: its reset ends at step 3 (R413). -/
def warmSite (n : Nat) (s : State) : State :=
  if (s.site n).resetting.isSome then siteSettle n (s.setSite n { s.site n with resetting := some 7 })
  else siteReset n 7 s

/-- Step 4: caches write back, and the lines of partner dies are recalled. -/
def warmRecall (s : State) : State :=
  let s := cutLines (landData s)
  let s := foldS (s.clusters.map (·.1)) clusterGone s
  foldS (List.range 4) warmSite { s with rst := { s.rst with step := 4 } }

/-- Some site still owes recalled lines. -/
def warmOwes (s : State) : Bool := s.sites.any fun e => e.2.resetting.isSome

/-- Step 4 ends with the memory-side caches written back. Step 5: self-refresh; at L5 or deeper the reset halts here (R38). -/
def warmSelfRefresh (s : State) : State :=
  let s := mscDrop (fun _ => true) true s
  { s with rst := { s.rst with step := 5, halted := s.power.shed ≥ 5 } }

/-- Controller, site and Sloyth clocks stop (R39). -/
def stopClocks (s : State) : State :=
  { s with clocks := kmap (fun d c => if d ≥ 0x20 then { c with running := false } else c) s.clocks }

/-- Registers that a warm reset keeps: fields of type RWT and RWS (R10). -/
def keepsWarm (off : Nat) (s : State) : Bool := (rwtOf off s).isSome || off == 0x4200

/-- Counters of a site at warm reset (R419). -/
def siteWarm (x : Site) : Site :=
  { x with errProtocol := 0, errDb := 0, errEarly := 0, errTimeout := 0, retrains := 0, admissions := 0 }

/-- Registers of the host port at warm reset, and its caches (R301). -/
def portWarm (x : Port) : Port :=
  { x with retrains := 0, asserted := false, atsAsked := [], atsBad := [], writes := [], releasing := false, asserts := 0, refused := 0, poisoned := 0, errOffset := 0, errReason := 0, errValid := false,
           dbLast := 0, dbDrop := 0, atc := [], atcRequests := 0, atcInvals := 0, atcRefused := 0 }

/-- Step 6: the blocks of R33 are reset; step 7 begins (R36, R39, R121, R156, R174, R223, R253, R277, R301, R365, R394, R419,
R444, R497, R515, R521). -/
def warmReset (s : State) : State :=
  let s := { s with slPorts := kmap (fun _ x => { x with rxq := [] }) s.slPorts }
  let s := slWarm s
  let s := foldS (s.queues.map (·.1)) emptyQueue s
  let s := stopClocks s
  let s := { s with
    regs := kfilter (fun o _ => keepsWarm o s) s.regs
    cores := [], clusters := [], net := [], heldSnp := [], ans := [], asked := [], launches := [], resv := [], served := []
    lines := (kfilter (fun _ (l : Line) => l.poison) s.lines).map fun e => (e.1, { poison := true })
    ctls := kmap (fun _ c => { present := c.present, rate := c.rate, dataMb := c.dataMb }) s.ctls
    parts := kmap (fun _ x => { x with resets := 0 }) s.parts
    sites := kmap (fun _ x => siteWarm x) s.sites
    reqTxn := [], posted := [], msc := [], resetDue := [], shoots := [], changes := [], drops := []
    heat := [], heatVal := [], miss := [], moves := [], autos := []
    port := portWarm s.port
    cmd := { s.cmd with overrun := false, staleTail := 0 }
    power := { s.power with peak := s.power.shed, entries := 0 }
    txnConflicts := 0, txnAborts := 0
    rst := { s.rst with step := 7, halted := false, drained := false, recalled := false } }
  castOnStart 3 true s

/-- Goes on with the warm reset as far as its conditions allow. -/
def warmAdvance (s : State) : State :=
  let s := if s.rst.step = 2 && !commitRuns s then warmStop s else s
  let s := if s.rst.step = 3 && (warmIdle s || s.rst.drained) then warmRecall s else s
  let s := if s.rst.step = 4 && !warmOwes s then warmSelfRefresh s else s
  if s.rst.step = 5 && !s.rst.halted then warmReset s else s

/-- Step 1 at once, then as far as possible. -/
def warmStart (source : Nat) (s : State) : State :=
  let s := { s with
    rst := { s.rst with lastKind := 3, warmSource := source, inProgress := true, deferred := none,
                        warmCount := satAdd 16 s.rst.warmCount 1, step := 2, halted := false, drained := false,
                        recalled := false }
    co := { s.co with ready := false, warm := true } }
  warmAdvance (cutPackets s)

/-- A warm-reset trigger (R38, R475): ignored before CO10 and during a warm reset, deferred at L4 or deeper. DESIGN CHOICE
(log 89): a second trigger while one is deferred is dropped, and the first one's source is kept for WARM_SOURCE. -/
def warmTrigger (source : Nat) (s : State) : State :=
  if !s.co.ready || s.rst.inProgress || s.rst.deferred.isSome then s
  else if s.power.shed ≥ 4 then { s with rst := { s.rst with deferred := some source } }
  else warmStart source s

/-- A write of HUB_RESET_CTL. -/
def resetCtl (v : Nat) (s : State) : State := if bits v 15 0 = 0xCA57 && bit v 16 then warmTrigger 1 s else s

/-- WARM_RESET: a host write of HUB_RESET_CTL. -/
def execWarmReset (value : BitVec 32) (s : State) : Host.Outcome State Fault Refusal :=
  if hostOpen s then .next (resetCtl value.toNat s) else .next s

/-- WARM_N is low for 1 µs. -/
def execWarmN (s : State) : Host.Outcome State Fault Refusal := .next (warmTrigger 2 s)

/-- HMF_WATCHDOG_EXPIRY. -/
def execHmfWatchdogExpiry (s : State) : Host.Outcome State Fault Refusal := .next (warmTrigger 3 s)

/-- DEFERRED_WARM_RESET_START (R38): the level is L3 or shallower again. -/
def execDeferredWarmResetStart (s : State) : Host.Outcome State Fault Refusal :=
  match s.rst.deferred with
  | none => .next s
  | some source => if s.power.shed ≥ 4 then .next s else .next (warmStart source s)

/-- WARM_RESET_RESUME (R38): step 6 of a halted warm reset, at L3 or shallower. -/
def execWarmResetResume (s : State) : Host.Outcome State Fault Refusal :=
  if s.rst.halted && s.power.shed ≤ 3 then .next (warmAdvance { s with rst := { s.rst with halted := false } }) else .next s

/-- Sloyth requests that are still outstanding are dropped with their status. -/
def dropRequests (test : SlReq → Bool) (s : State) : State :=
  let l := (slReqs s).filter fun e => test e.2.2
  let s := foldS l (fun e s => match slTake e.1 e.2.1 s with
    | some (_, t) => t
    | none => s) s
  slFailAll (l.map fun e => e.2.2) stLinkDown s

/-- DRAIN_TIMEOUT (R36 step 3, R384 step 2): 10 ms have passed; the recalls of moves are answered as R219 states. Without a
partition it is the warm reset's. -/
def execDrainTimeout (partition : Option (Fin 8)) (s : State) : Host.Outcome State Fault Refusal :=
  match partition with
  | none =>
    if s.rst.step ≠ 3 then .next s
    else
      let s := settleMoves (foldS (List.range 4) recallLost (dropRequests (fun _ => true) s))
      .next (warmAdvance { s with rst := { s.rst with drained := true } })
  | some p =>
    if (s.part p.val).resetting.isNone then .next s
    else
      let s := dropRequests (fun r => r.part == p.val) (postedGone (fun w => w.part == p) s)
      let s := if s.moves.any fun m => m.part == p.val then settleMoves (foldS (List.range 4) recallLost s) else s
      .next (partResetSettle (settleLaunches s))

/-- RECALL_TIMEOUT (R35): 1 ms has passed; lines that the die of a site does not return are marked poisoned. -/
def execRecallTimeout (site : Fin 4) (s : State) : Host.Outcome State Fault Refusal :=
  let n := site.val
  if (s.site n).resetting.isNone && (s.site n).withdraws.isEmpty then .next s
  else .next (warmAdvance (siteSettle n (recallLost n s)))

end Sys2Proof.Machine
end

