-- ==== Sys2Proof/Machine/CastOn.lean ====
section
/-!
DEFINITION. The stages of cast-on, their reports, SERVICE_QUERY and TIME_SAMPLE (R30 to R32, R450, R452, R473 to R485, R491,
R492, R495).
-/
namespace Sys2Proof.Machine

/-! ### Clocks -/

/-- The clock of a domain starts; its counter is cleared when it first starts after a power-on reset or PERST# (R29). -/
def startClock (d : Nat) (s : State) : State :=
  let c := s.clock d
  { s with clocks := kset d { count := if c.started then c.count else 0, started := true, running := true } s.clocks }

def stopClock (d : Nat) (s : State) : State :=
  let c := s.clock d
  if c.started then { s with clocks := kset d { c with running := false } s.clocks } else s

/-! ### What a stage gives -/

/-- The outcome of a stage: RESULT, CODE, REPAIRS and DETAIL of its report. -/
structure StageRes where
  result : Nat := 0
  code : Nat := 0
  repairs : Nat := 0
  detail : Nat := 0
  deriving DecidableEq, Repr, Inhabited

def failed (code : Nat) (detail : Nat := 0) : StageRes := { result := 3, code, detail }

/-- A check of the stage fails with one of its codes. -/
def failWith (obs : StageObs) (codes : List Nat) : Option Nat :=
  obs.failCode.bind fun c => if codes.contains c.toNat then some c.toNat else none

/-- PASS, or REPAIRED when something was repaired. -/
def passed (repairs detail : Nat) : StageRes :=
  { result := if repairs = 0 then 0 else 1, repairs := min repairs 65535, detail }

/-- CO0: rails and PLLs; the management, ring, PCIe and core clocks start. -/
def stage0 (obs : StageObs) (s : State) : StageRes × State :=
  match failWith obs [0x1, 0x2] with
  | some c => (failed c, s)
  | none => ({}, foldS ([1, 2, 3] ++ (List.range 8).map (0x10 + ·)) startClock s)

/-- CO1: the active bank, or the other one, whose bundle verifies and whose SVN is not below the fuses (R450). A swap that
FW_UPDATE staged takes place first (R451). -/
def stage1 (obs : StageObs) (s : State) : StageRes × State :=
  match failWith obs [0x102] with
  | some c => (failed c, s)
  | none =>
    let a := if s.flash.swap then 1 - s.flash.active else s.flash.active
    let bank (i : Nat) : Bank := (kget i s.flash.banks).getD {}
    let good (i : Nat) : Bool := (if i = 0 then obs.bankA else obs.bankB) && decide (s.fuse.svn ≤ (bank i).svn)
    let s := { s with flash := { s.flash with swap := false } }
    if good a then ({}, { s with flash := { s.flash with active := a } }.extend 0 (bank a).head 128)
    else if good (1 - a) then ({}, { s with flash := { s.flash with active := 1 - a } }.extend 0 (bank (1 - a)).head 128)
    else (failed 0x101, s)

/-- The fused entries: those made while field fuse entries were free, without source and time (R491). -/
def fusedRecords (l : List Rec) : List Rec :=
  ((l.filter fun r => r.kind < 8).take 64).map fun r => { r with source := 0, seconds := 0 }

/-- The map that the retirements of a list give, in their order (R485). -/
def rebuildMap (s : State) : State :=
  let l := s.rep.records
  let start := { s with rep := { s.rep with records := [], slots := [] } }
  let t := l.foldl (fun (t : State) r =>
    let t := { t with rep := { t.rep with records := t.rep.records ++ [r] } }
    if r.kind ≠ 1 then t
    else match (List.range 20).find? fun i => slotOf t (20 * r.unit + i) == r.slot, spareSlots t r.unit with
      | some i, sl :: _ => { t with rep := { t.rep with slots := kset (20 * r.unit + i) sl t.rep.slots } }
      | _, _ => t) start
  { s with rep := { s.rep with slots := t.rep.slots } }

/-- The integrator configuration goes into effect, or none (R450). -/
def takeConf (obs : StageObs) (s : State) : State :=
  let off (s : State) : State := ({ s with siteRecs := [], slConf := [], sec := { s.sec with debugHash := 0, migKey := false } }).extend 2 0 64
  match s.flash.conf with
  | none => off s
  | some (b, head) =>
    if !obs.confOk || !(s.sec.lc = 1 || s.sec.lc = 2) then secEvent 8 0 (off s)
    else
      let recs := (b.sites.take 4).foldl (fun (m : KV SiteRec) r => kset m.length r m) []
      let ports := (b.ports.take 4).foldl (fun (m : KV SlConf) e =>
        kset m.length { enable := e.1, peers := e.2.map (·.toNat) } m) []
      ({ s with siteRecs := recs, slConf := ports,
                sec := { s.sec with debugHash := b.debugHash, migKey := b.mig } }).extend 2 head 128

/-- CO2: entropy, fuses and life cycle, repair records, configuration. -/
def stage2 (obs : StageObs) (s : State) : StageRes × State :=
  match failWith obs [0x201, 0x203] with
  | some c => (failed c, s)
  | none =>
    let s := lcBoot s
    let s := if obs.recordOk then s
      else rebuildMap { s with rep := { s.rep with records := fusedRecords s.rep.records, recordLost := true } }
    let s := extendM3 (takeConf obs s)
    if s.sec.lc = 4 || s.sec.lc = 7 then (failed 0x202, s) else ({}, s)

/-- CO3: rings and spine; each repaired lane has a record. -/
def stage3 (obs : StageObs) (s : State) : StageRes × State :=
  match failWith obs [0x301] with
  | some c => (failed c obs.lanes.toNat, s)
  | none =>
    let l := obs.found.filter fun f => f.kind = 6
    let s := foldS l (fun f s => addRecord { kind := 6, source := 1, unit := f.unit.toNat, index := f.index.toNat } s) s
    (passed obs.lanes.toNat obs.lanes.toNat, s)

/-- MEM_PHY_TEST of a stack (R484). -/
def phyWord (e : BitVec 16 × Bool × Bool × BitVec 32) : Nat :=
  put 0 16 e.1.toNat + put 16 1 (b2n e.2.1) + put 17 1 (b2n e.2.2.1) + put 32 32 e.2.2.2.toNat

/-- Marks the controllers of a tier present, with their rate and capacity. -/
def tierPresent (first n rate granBytes grans : Nat) (s : State) : State :=
  foldS (List.range n) (fun i s =>
    let x := first + i
    startClock (0x20 + x) (s.setCtl x { s.ctl x with present := true, rate, dataMb := grans * granBytes / 1000000 })) s

/-- The smallest of the capacities, if all `n` are there. -/
def minCap (l : List Nat) (n : Nat) : Nat := if l.length < n then 0 else l.foldl min (2 ^ 32)

/-- CO4: the stacks (R225, R480). -/
def stage4 (obs : StageObs) (s : State) : StageRes × State :=
  let caps := (obs.capacity.take 16).map (·.toNat)
  let c := minCap caps 16
  let unit := 0x10000 * obs.failUnit.toNat + obs.lanes.toNat
  match failWith obs [0x401] with
  | some k => (failed k unit, s)
  | none =>
    if c = 0 then (failed 0x401 unit, s)
    else
      let grans := c * 1000000 * 16 / 0x200000
      let s := tierPresent 0 16 ((obs.rates[0]?).getD 0).toNat 131072 grans { s with granA := grans }
      let s := foldS ((List.range 16).zip obs.phy) (fun e s => s.setReg (ctlBase e.1 + 0x400) (phyWord e.2)) s
      let l := obs.found.filter fun f => f.kind = 7
      let s := foldS l (fun f s => addRecord { kind := 7, source := 1, unit := f.unit.toNat, index := f.index.toNat } s) s
      (passed obs.lanes.toNat (0xFF0000 + obs.lanes.toNat), s)

/-- A tier that is absent: its range is a hole and no clock of it runs (R228, R516). -/
def tierAbsent (first n : Nat) (s : State) : State :=
  foldS (List.range n) (fun i s =>
    let c := { s.ctl (first + i) with present := false, rate := 0, dataMb := 0 }
    stopClock (0x20 + first + i) (s.setCtl (first + i) c)) s

/-- CO5: tiers B and C at the highest rate all of their parts pass (R226 to R228). -/
def stage5 (obs : StageObs) (s : State) : StageRes × State :=
  let caps := obs.capacity.map (·.toNat)
  let rb := ((obs.rates[0]?).getD 0).toNat
  let rc := ((obs.rates[1]?).getD 0).toNat
  let cb := if [9600, 10667, 12800].contains rb then minCap (caps.take 16) 16 else 0
  let cc := if [6400, 7200, 8000, 8800].contains rc then minCap ((caps.drop 16).take 8) 8 else 0
  let gb := 15 * cb * 1000000 / (16 * 131072)
  let gc := 15 * cc * 1000000 / (16 * 262144)
  let s := { s with granB := gb, granC := gc }
  let s := if gb = 0 then tierAbsent 0x10 16 s else tierPresent 0x10 16 rb 131072 gb s
  let s := if gc = 0 then tierAbsent 0x20 8 s else tierPresent 0x20 8 rc 262144 gc s
  if gb = 0 || gc = 0 then
    ({ result := 2, code := if gb = 0 then 0x501 else 0x502, repairs := obs.lanes.toNat,
       detail := 0x10000 * obs.failUnit.toNat + obs.lanes.toNat }, s)
  else (passed obs.lanes.toNat (0xFF0000 + obs.lanes.toNat), s)

/-- A slot fails self-test: it is retired, and its logical core takes the lowest spare (R485). -/
def testRetire (g sl source : Nat) (s : State) : State :=
  if slotRetired s g sl then s
  else
    let s := addRecord { kind := 1, source, unit := g, slot := sl } s
    match (List.range 20).find? fun i => slotOf s (20 * g + i) == sl, spareSlots s g with
    | some i, n :: _ =>
      let c := 20 * g + i
      let s := addRecord { kind := 9, source, unit := g, slot := n, logical := i } s
      let x := s.rep
      let s := { s with rep := { x with slots := kset c n x.slots, margins := kdel c x.margins,
                                        marginLow := kdel c x.marginLow, worn := kdel c x.worn } }
      if (spareSlots s g).isEmpty then { s with co := { s.co with spent := s.co.spent ++ [g] } } else s
    | _, _ => s

/-- The slots that carry the logical cores of a cluster. -/
def clusterSlots (g : Nat) (s : State) : List Nat := (List.range 20).map fun i => slotOf s (20 * g + i)

/-- A fault that self-test finds (R483): the repair; true when CO6 fails with SPARES. -/
def testRepair (f : Found) (s : State) : Bool × State :=
  let g := f.unit.toNat
  let sl := f.slot.toNat
  let r : Rec := { kind := f.kind.toNat, source := 1, unit := g, slot := sl, index := f.index.toNat }
  match f.kind.toNat with
  | 1 => (false, testRetire g sl 1 s)
  | 2 => (false, addRecord r s)
  | 3 =>
    if recordCount s 3 g (fun q => q.slot == sl && q.index / 1024 == r.index / 1024) < 4 then (false, addRecord r s)
    else (false, testRetire g sl 1 s)
  | 4 => if recordCount s 4 g (fun _ => true) < 2 then (false, addRecord { r with slot := 0xFF } s)
    else (false, foldS (clusterSlots g s) (fun k s => testRetire g k 1 s) s)
  | 5 => if recordCount s 5 g (fun _ => true) < 2 then (false, addRecord { r with slot := 0xFF } s) else (true, s)
  | _ => (false, s)

/-- Usable slots of a cluster. -/
def usableSlots (s : State) (g : Nat) : Nat := ((List.range 22).filter fun sl => !slotRetired s g sl).length

/-- Records of a kind. -/
def kindCount (k : Nat) (s : State) : Nat := (s.rep.records.filter fun r => r.kind == k).length

/-- CO6: firmware, self-test and spare mapping; repairs that are due are made (R482 to R485, R489). -/
def stage6 (obs : StageObs) (s : State) : StageRes × State :=
  match failWith obs [0x602, 0x603] with
  | some c => (failed c, s)
  | none =>
    let s := if s.co.warm then s else s.extend 1 obs.image.toNat 64
    let r0 := kindCount 1 s
    let f0 := kindCount 2 s
    let (n, s) := makeIdle (fun _ => true) s
    let (bad_, s) := obs.found.foldl (fun (a : Bool × State) f =>
      let (b, t) := testRepair f a.2
      (a.1 || b, t)) (false, s)
    let s := foldS (s.rep.records.filter fun r => r.kind == 2) (fun r s => foldS ((List.range 20).map (20 * r.unit + ·)) setSegments s) s
    let detail := put 0 16 (kindCount 1 s - r0) + put 16 16 (kindCount 2 s - f0)
    if bad_ || (s.rep.records.any fun r => r.kind == 1 && usableSlots s r.unit < 20) then (failed 0x601 detail, s)
    else (passed (n + obs.found.length) detail, s)

/-- CO7: DEGRADED when a site with a record is FAILED. -/
def stage7 (s : State) : StageRes × State :=
  let states := (List.range 4).foldl (fun v n => v + put (4 * n) 4 (s.site n).state) 0
  if (List.range 4).any fun n => (s.site n).state = 6 && (kget n s.siteRecs).isSome then
    ({ result := 2, code := 0x701, detail := states }, s)
  else ({ detail := states }, s)

/-- States of the Sloyth ports, for DETAIL. -/
def portStates (s : State) : Nat := (List.range 4).foldl (fun v p => v + put (4 * p) 3 (s.slPort p).state) 0

/-- CO8: every enabled Sloyth port starts. -/
def stage8 (s : State) : StageRes × State :=
  let s := slStartAll (foldS (List.range 4) (fun p s => startClock (0x60 + p) s) s)
  ({ detail := portStates s }, s)

/-- The granules of the hub region (R254). -/
def hubGrans (s : State) : List Nat := (List.range 16).map fun i => s.granA - 16 + i

/-- CO9: the hub region, the hub memory key and empty tables at a cold cast-on (R254, R445). -/
def stage9 (s : State) : StageRes × State :=
  if s.granA < 16 then (failed 0x901, s)
  else if s.co.warm then ({}, s)
  else
    let key := entropy s.free 96
    let s := { s with free := s.free + 96, sec := { s.sec with hubKey := key }, pot := [], allocs := [], ctxs := [],
                      queues := [], fences := [], fenceBlocks := [] }
    ({}, foldS (hubGrans s) (fun g s => s.setGran g { hub := true, needsScrub := true }) s)

/-! ### Reports (R476, R477) -/

/-- The 32 bytes of a stage report. -/
def stageWord (stage : Nat) (r : StageRes) (warm halted : Bool) (s : State) : Nat :=
  put 0 8 stage + put 8 8 r.result + put 16 1 (b2n warm) + put 17 1 (b2n halted) + put 32 16 r.code + put 48 16 r.repairs +
  put 64 64 s.co.start + put 128 32 (min (2 ^ 32 - 1) ((s.aon - s.co.start) / 100)) + put 160 32 r.detail +
  put 192 32 s.co.castOns

/-- Appends a report to the log and to the copy in flash. -/
def appendReport (w : Nat) (s : State) : State :=
  let c := s.co
  let reports := s.flash.reports.dropLast ++ [(s.flash.reports.getLast?.getD []) ++ [w]]
  { s with co := { c with log := kset c.next w c.log, next := (c.next + 1) % 64, wrapped := c.wrapped || c.next = 63 },
           flash := { s.flash with reports } }

/-! ### CO10 -/

/-- SVN fuses are blown when a bundle of higher SVN first reaches CO10 (R451). -/
def blowSvn (s : State) : State :=
  let b : Bank := (kget s.flash.active s.flash.banks).getD {}
  { s with fuse := { s.fuse with svn := max s.fuse.svn (min 64 b.svn) } }

/-- CO10: READY; a warm reset has ended; held report writes go out (R300, R521), and RECORD_LOST and SPARES_LOW are raised
(R489, R491). -/
def stage10 (s : State) : State :=
  let s := { s with co := { s.co with start := s.aon } }
  let s := appendReport (stageWord 10 { detail := portStates s } s.co.warm false s) s
  let s := { s with co := { s.co with ready := true, running := false }
                    rst := { s.rst with inProgress := false, step := 0 } }
  let s := blowSvn s
  let s := if s.port.frozen then s else flushHeld s
  let s := if s.rep.recordLost then serviceEvent 6 0 0 0xFF { s with rep := { s.rep with recordLost := false } } else s
  let s := foldS s.co.spent (fun g s => serviceEvent 2 1 g 0xFF s) s
  intxEval s

/-! ### The stages in order (R473, R475) -/

/-- The work of a stage. -/
def stageWork (obs : StageObs) (s : State) : StageRes × State :=
  match s.co.stage with
  | 0 => stage0 obs s
  | 1 => stage1 obs s
  | 2 => stage2 obs s
  | 3 => stage3 obs s
  | 4 => stage4 obs s
  | 5 => stage5 obs s
  | 6 => stage6 obs s
  | 7 => stage7 s
  | 8 => stage8 s
  | _ => stage9 s

/-- The next stage begins; CO7 begins with the first site, and CO10 has no work of its own. -/
def stageNext (s : State) : State :=
  let n := s.co.stage + 1
  let s := { s with co := { s.co with stage := n, halted := false, start := s.aon } }
  if n = 7 then admitFrom 4 0 (foldS (List.range 4) (fun i s => startClock (0x50 + i) s) s)
  else if n = 10 then stage10 s
  else s

/-- A stage ends: its report, then FAILED, a halt at L4 or deeper, or the next stage. -/
def stageEnd (obs : StageObs) (s : State) : State :=
  let n := s.co.stage
  let (r, s) := stageWork obs s
  let halted := r.result < 3 && s.power.shed ≥ 4
  let s := appendReport (stageWord n r obs.warm halted s) s
  if r.result = 3 then { s with co := { s.co with running := false, failed := true, failCode := r.code } }
  else if halted then { s with co := { s.co with halted := true } }
  else stageNext s

/-- CAST_ON_STAGE_END. CO7 ends when every site's admission has ended. -/
def execCastOnStageEnd (obs : StageObs) (s : State) : Host.Outcome State Fault Refusal :=
  if !s.co.running || s.co.halted || (s.co.stage = 7 && admitting s) then .next s else .next (stageEnd obs s)

/-- CAST_ON_RESUME (R475). -/
def execCastOnResume (s : State) : Host.Outcome State Fault Refusal :=
  if s.co.running && s.co.halted && s.power.shed ≤ 3 then .next (stageNext s) else .next s

/-! ### SERVICE_QUERY (R492, R495) -/

def infoService : OpInfo := { code := 0x801, col := .f, query := true, early := true, from_ := 2, anyLc := true }

def servicePacket (p : Pkt) (act : State → OpRes) (s : State) : State :=
  directPacket p infoService (p.paramLen = 8) (fun s => (act s, s)) s

/-- The 16 bytes of a record entry (R490). -/
def recWord (r : Rec) : Nat :=
  put 0 8 r.kind + put 8 8 r.source + put 16 16 r.unit + put 32 8 r.slot + put 40 8 r.logical + put 48 16 r.index +
  put 64 32 r.seconds

/-- Words of `n` bytes, one after another. -/
def packWords (n : Nat) : List Nat → Nat
  | [] => 0
  | w :: l => w % 2 ^ (8 * n) + (packWords n l) <<< (8 * n)

def execServiceQuerySummary (p : Pkt) (first : BitVec 32) (s : State) : Host.Outcome State Fault Refusal :=
  let _ := first
  .next (servicePacket p (fun s =>
    let low := ((List.range 200).filter fun g => (spareSlots s g).isEmpty).length
    { len := 8, data := put 0 16 s.rep.records.length + put 16 8 s.rep.fuseFree + put 24 8 low +
        put 32 16 s.rep.due.length + put 48 16 (min 65535 s.rep.fieldRepairs) }) s)

def execServiceQueryRecords (p : Pkt) (first : BitVec 32) (s : State) : Host.Outcome State Fault Refusal :=
  .next (servicePacket p (fun s =>
    let l := (s.rep.records.drop first.toNat).take 253
    { len := 16 + 16 * l.length, data := put 0 16 l.length + (packWords 16 (l.map recWord)) <<< 128 }) s)

def execServiceQueryReports (p : Pkt) (first : BitVec 32) (s : State) : Host.Outcome State Fault Refusal :=
  let _ := first
  .next (servicePacket p (fun s =>
    let l := s.flash.reports.flatten
    { len := 32 * l.length, data := packWords 32 l }) s)

/-- The presentation record: its register digest is a hash of the reset image, which depends on variant and profile. -/
def presentation (s : State) : Nat :=
  let head := put 0 8 s.fuse.variant + put 8 8 s.fuse.profile + put 16 16 4000 + put 32 32 s.granA + put 64 32 s.granB +
    put 96 32 s.granC + put 128 32 (if s.pot.any fun e => e.2.hub then s.granA - 16 else 0)
  let body := head + (Config.shake512 (s.fuse.variant + 256 * s.fuse.profile) 0).toNat <<< 256
  body + (Config.shake256 body 96).toNat <<< 768

def execServiceQueryPresentation (p : Pkt) (first : BitVec 32) (s : State) : Host.Outcome State Fault Refusal :=
  let _ := first
  .next (servicePacket p (fun s => { len := 128, data := presentation s }) s)

/-! ### TIME_SAMPLE (R30 to R32) -/

/-- A captured count: the domain's count at the launching edge, or one less, as the free value of the sample says. -/
def captured (d k : Nat) (s : State) : Nat :=
  let n := s.count d
  if d = 1 || !Config.freeBool k then n else n - 1

/-- One 16-byte entry. -/
def sampleEntry (d k : Nat) (s : State) : Nat :=
  let c := s.clock d
  put 0 8 d + put 8 1 (b2n (c.started && !c.running)) + put 9 1 (b2n !c.started) +
  put 64 64 (if !c.started then 0 else if c.running then captured d k s else c.count)

/-- TIME_SAMPLE (R30, R31). DESIGN CHOICE (log 88): ERR_OFFSET of a list that repeats an identifier is 40, that of the list,
whichever identifiers repeat; that of a reserved identifier is its own byte. -/
def actTimeSample (domains : List Nat) (s : State) : OpRes × State :=
  if domains.length > 64 then (bad stBadParam 32, s)
  else match domains.findIdx? fun d => !domainOk d with
    | some i => (bad stBadParam (40 + i), s)
    | none =>
      if domains.eraseDups.length ≠ domains.length then (bad stBadParam 40, s)
      else
        let k := s.free
        let es := (List.range domains.length).zip domains
        ({ len := 32 + 16 * domains.length,
           data := put 0 64 (captured 0 k s) + put 64 64 (s.count 1) + put 128 16 domains.length +
             (packWords 16 (es.map fun e => sampleEntry e.2 (k + 1 + e.1) s)) <<< 256 },
         { s with free := s.free + 1 + domains.length })

def execTimeSample (p : Pkt) (domains : List (BitVec 8)) (s : State) : Host.Outcome State Fault Refusal :=
  .next (directPacket p { code := 2, col := .f, atL4 := true, early := true, from_ := 2 }
    (p.paramLen.toNat = 8 + domains.length) (actTimeSample (domains.map (·.toNat))) s)

end Sys2Proof.Machine
end

