-- ==== Sys2Proof/Machine/Coherence.lean ====
section
/-!
DEFINITION. The messages of the coherence protocol as steps: a home accepts requests and answers, an agent takes snoops and
replies (R196 to R221).
-/
namespace Sys2Proof.Machine

/-- Removes the first message in flight that equals m; false when none does. -/
def takeMsg (m : Msg) : List Msg → Bool × List Msg
  | [] => (false, [])
  | x :: t => if x = m then (true, t) else
    let (f, r) := takeMsg m t
    (f, x :: r)

/-- A message is in flight inside the hub, the first of its channel, source and destination (R201). -/
def mayArrive (m : Msg) (s : State) : Bool :=
  (takeMsg m s.net).1 &&
    (s.net.takeWhile (· ≠ m)).all fun k => !(chanOf k.op == chanOf m.op && k.src == m.src && k.dst == m.dst)

/-- A message in flight reaches its receiver, and what waited for it goes on. -/
def arrive (m : Msg) (media : MediaList) (s : State) : State :=
  { settleMoves (settlePosted (deliver true m { s with net := (takeMsg m s.net).2, media })) with media := [] }

/-- The line state of a cluster cache from which it makes a request (R206). -/
def mayAsk (op : MOp) (l : Option CLine) : Bool :=
  match op with
  | .rdShared | .rdUnique | .wrFull | .wrPartial => l.isNone
  | .upgrade => (l.map fun l => !l.stream && (l.st == 1 || l.st == 3)).getD false
  | .wbDirty => (l.map fun l => !l.stream && !l.hold && (l.st == 3 || l.st == 4)).getD false
  | .evictClean => (l.map fun l => !l.stream && !l.hold && (l.st == 1 || l.st == 2)).getD false
  | _ => true

/-- A new request of a cluster cache or a hub agent under the TXN it chose: none where R205 or R206 forbids it, or where a
change holds the granule (R359). A partner die's requests come in its frames. A line that leaves goes with its data. -/
def newRequest (m : Msg) (s : State) : Option (Msg × State) :=
  let a := m.src.toNat
  let n := m.addr.toNat / 64
  let c := s.cluster a
  let l := kget n c.lines
  let key := 4096 * a + m.txn.toNat
  let taken := (kget key s.reqTxn).isSome || (a < 200 && s.reqTxn.any fun e => e.1 / 4096 == a && e.2 == n)
  if (200 ≤ a && a ≠ 0xFF) || taken || granHeld n m.ctx.toNat s || (a < 200 && !mayAsk m.op l) then none
  else
    let dirty := a < 200 && m.op == .wbDirty
    let m := { m with who := 0, note := 0, fwd := none, dst := homeAgent n, hubAgent := m.hubAgent && 200 ≤ a,
                      addr := if m.op == .atomic then m.addr else BitVec.ofNat 48 (64 * n),
                      data := if dirty then (l.map (·.data)).getD 0 else m.data,
                      poison := if dirty then (l.map (·.poison)).getD false else m.poison }
    let s := { s with reqTxn := kset key n s.reqTxn }
    let caches := m.op == .rdShared || m.op == .rdUnique || m.op == .upgrade || gives m.op
    some (m, if a < 200 && caches then s.setCluster a { c with reqs := kset n (reqCode m.op) c.reqs } else s)

/-- A message of operation `op`: one in flight arrives, if none of its way is before it. -/
def msgRow (op : MOp) (m : Msg) (media : MediaList) (s : State) : State :=
  let m := { m with op }
  if mayArrive m s then arrive m media s else s

/-- A request reaches its home: one in flight, or a new one. -/
def reqRow (op : MOp) (m : Msg) (media : MediaList) (s : State) : State :=
  let m := { m with op }
  if (takeMsg m s.net).1 then msgRow op m media s
  else match newRequest m s with
    | none => s
    | some (m, s) => arrive m media s

/-- What a row's flag says of the directory: its entry of the line is found to be uncorrectable (R221). -/
def dirBad (m : Msg) : Bool → MediaList
  | true => [(m.addr.toNat / 64, .dirUncorrectable)]
  | false => []

def execRdShared (m : Msg) (dirErr : Bool) (media : MediaList) (s : State) : Host.Outcome State Fault Refusal :=
  .next (reqRow .rdShared m (dirBad m dirErr ++ media) s)

def execRdUnique (m : Msg) (dirErr : Bool) (media : MediaList) (s : State) : Host.Outcome State Fault Refusal :=
  .next (reqRow .rdUnique m (dirBad m dirErr ++ media) s)

def execUpgrade (m : Msg) (dirErr : Bool) (media : MediaList) (s : State) : Host.Outcome State Fault Refusal :=
  .next (reqRow .upgrade m (dirBad m dirErr ++ media) s)

def execRdOnce (m : Msg) (media : MediaList) (s : State) : Host.Outcome State Fault Refusal :=
  .next (reqRow .rdOnce m media s)

def execWrFull (m : Msg) (media : MediaList) (s : State) : Host.Outcome State Fault Refusal :=
  .next (reqRow .wrFull m media s)

def execWrPartial (m : Msg) (media : MediaList) (s : State) : Host.Outcome State Fault Refusal :=
  .next (reqRow .wrPartial m media s)

def execWbDirty (m : Msg) (media : MediaList) (s : State) : Host.Outcome State Fault Refusal :=
  .next (reqRow .wbDirty m media s)

def execEvictClean (m : Msg) (media : MediaList) (s : State) : Host.Outcome State Fault Refusal :=
  .next (reqRow .evictClean m media s)

def execAtomic (m : Msg) (media : MediaList) (s : State) : Host.Outcome State Fault Refusal :=
  .next (reqRow .atomic m media s)

def execSnpShared (m : Msg) (s : State) : Host.Outcome State Fault Refusal := .next (msgRow .snpShared m [] s)
def execSnpUnique (m : Msg) (s : State) : Host.Outcome State Fault Refusal := .next (msgRow .snpUnique m [] s)
def execSnpInv (m : Msg) (s : State) : Host.Outcome State Fault Refusal := .next (msgRow .snpInv m [] s)
def execSnpCurrent (m : Msg) (s : State) : Host.Outcome State Fault Refusal := .next (msgRow .snpCurrent m [] s)
def execSnpRecall (m : Msg) (s : State) : Host.Outcome State Fault Refusal := .next (msgRow .snpRecall m [] s)

def execSnpRsp (m : Msg) (media : MediaList) (s : State) : Host.Outcome State Fault Refusal :=
  .next (msgRow .snpRsp m media s)

def execSnpData (m : Msg) (media : MediaList) (s : State) : Host.Outcome State Fault Refusal :=
  .next (msgRow .snpData m media s)

def execGrant (m : Msg) (s : State) : Host.Outcome State Fault Refusal := .next (msgRow .grant m [] s)
/-- A CMP or DATA of a partner die answers an aperture request (R407). -/
def answerRow (op : MOp) (m : Msg) (s : State) : State :=
  let a := m.src.toNat
  if 0xC8 ≤ a && a ≤ 0xCB then (apAnswer (a - 0xC8) { m with op } s).2 else msgRow op m [] s

def execCmp (m : Msg) (s : State) : Host.Outcome State Fault Refusal := .next (answerRow .cmp m s)

def execAck (m : Msg) (media : MediaList) (s : State) : Host.Outcome State Fault Refusal :=
  .next (msgRow .ack m media s)

def execData (m : Msg) (s : State) : Host.Outcome State Fault Refusal := .next (answerRow .data m s)

/-- HOLD_TIME_END (R209): once the access that the grant was asked for is made, the hold ends, and a snoop held meanwhile is
answered as R207. -/
def execHoldTimeEnd (cluster : Fin 200) (line : BitVec 42) (s : State) : Host.Outcome State Fault Refusal :=
  let g := cluster.val
  let n := line.toNat
  let c := s.cluster g
  let k := g * 2 ^ 48 + n
  let owed := match kget n c.lines with
    | some l => l.due ≠ 0 && engineWaits g n s
    | none => false
  if owed then .next s
  else
    let s := match kget n c.lines with
      | some l => s.setCluster g { c with lines := kset n { l with hold := false, due := 0 } c.lines }
      | none => s
    match kget k s.heldSnp with
    | some m => .next (agentSnoop m { s with heldSnp := kdel k s.heldSnp })
    | none => .next s

end Sys2Proof.Machine
end

