-- ==== Sys2Proof/Machine/Float.lean ====
section
/-!
DEFINITION. Exact values and their roundings: the float formats of R122, IEEE 754-2019 binary32 as R69 states, the
conversions of R70 and R142, and the special functions of R71.
-/
namespace Sys2Proof.Machine

/-! ### Exact numbers -/

/-- 2 to the power e. -/
def p2 (e : Int) : Rat := if 0 ≤ e then (2 ^ e.toNat : Nat) else mkRat 1 (2 ^ (-e).toNat)

/-- floor(log2 q), for q > 0. -/
def ilog2 (q : Rat) : Int :=
  let e : Int := (Nat.log2 q.num.natAbs : Int) - Nat.log2 q.den
  if p2 e ≤ q then e else e - 1

def rabs (q : Rat) : Rat := if q < 0 then -q else q

/-- Rounds a magnitude to a multiple of a step: RM 0 nearest even, 1 toward zero, 2 down, 3 up. -/
def roundStep (rm : Nat) (neg : Bool) (a step : Rat) : Rat :=
  let q := a / step
  let l := q.floor
  let fr := q - l
  let up := match rm with
    | 0 => decide (fr > 1 / 2) || (decide (fr = 1 / 2) && decide (l % 2 = 1))
    | 1 => false
    | 2 => neg && decide (fr > 0)
    | _ => !neg && decide (fr > 0)
  ((if up then l + 1 else l : Int) : Rat) * step

/-! ### Float formats (R122) -/

/-- A float format: exponent and mantissa bits, bias, and how its top exponent reads: 0 finite, 1 as IEEE, 2 only
S.1…1 is a NaN. -/
structure FltFmt where
  eb : Nat
  mb : Nat
  bias : Nat
  style : Nat
  deriving DecidableEq, Repr, Inhabited

def fp32 : FltFmt := { eb := 8, mb := 23, bias := 127, style := 1 }
def bf16 : FltFmt := { eb := 8, mb := 7, bias := 127, style := 1 }
def e5m2 : FltFmt := { eb := 5, mb := 2, bias := 15, style := 1 }
def e4m3 : FltFmt := { eb := 4, mb := 3, bias := 7, style := 2 }
def e2m1 : FltFmt := { eb := 2, mb := 1, bias := 1, style := 0 }
def e3m2 : FltFmt := { eb := 3, mb := 2, bias := 3, style := 0 }
def e2m3 : FltFmt := { eb := 2, mb := 3, bias := 1, style := 0 }

/-- A decoded value. -/
inductive FVal where
  | nan (signalling : Bool)
  | inf (neg : Bool)
  | fin (neg : Bool) (mag : Rat)
  deriving DecidableEq, Repr, Inhabited

/-- Reads a code of a format (R122, R142). -/
def decodeFlt (f : FltFmt) (code : Nat) : FVal :=
  let m := bits code (f.mb - 1) 0
  let e := bits code (f.mb + f.eb - 1) f.mb
  let neg := bit code (f.mb + f.eb)
  let top := e = 2 ^ f.eb - 1
  if f.style = 1 && top then (if m = 0 then .inf neg else .nan (!bit m (f.mb - 1)))
  else if f.style = 2 && top && m = 2 ^ f.mb - 1 then .nan false
  else if e = 0 then .fin neg ((m : Rat) * p2 (1 - (f.bias : Int) - f.mb))
  else .fin neg (((2 ^ f.mb + m : Nat) : Rat) * p2 ((e : Int) - f.bias - f.mb))

/-- The largest finite magnitude, Fmax. -/
def FltFmt.fmax (f : FltFmt) : Rat :=
  let e := 2 ^ f.eb - 1 - (if f.style = 1 then 1 else 0)
  let m := 2 ^ f.mb - 1 - (if f.style = 2 then 1 else 0)
  ((2 ^ f.mb + m : Nat) : Rat) * p2 ((e : Int) - f.bias - f.mb)

/-- The smallest normal magnitude. -/
def FltFmt.minNormal (f : FltFmt) : Rat := p2 (1 - (f.bias : Int))

/-- Spacing of the format at magnitude a > 0. -/
def FltFmt.step (f : FltFmt) (a : Rat) : Rat := p2 (max (ilog2 a) (1 - (f.bias : Int)) - f.mb)

def FltFmt.signBit (f : FltFmt) (neg : Bool) : Nat := if neg then 2 ^ (f.mb + f.eb) else 0

/-- The code of a representable magnitude. -/
def encodeFlt (f : FltFmt) (neg : Bool) (a : Rat) : Nat :=
  f.signBit neg +
  (if a < f.minNormal then (a / p2 (1 - (f.bias : Int) - f.mb)).floor.toNat
   else
     let e := ilog2 a
     ((e + f.bias).toNat <<< f.mb) + ((a / p2 (e - f.mb)).floor.toNat - 2 ^ f.mb))

/-- The format's NaN (R69, R138). -/
def FltFmt.nanCode (f : FltFmt) : Nat :=
  if f.style = 2 then 2 ^ (f.mb + f.eb) - 1
  else (2 ^ f.eb - 1) * 2 ^ f.mb + 2 ^ (f.mb - 1)

def FltFmt.infCode (f : FltFmt) (neg : Bool) : Nat := f.signBit neg + (2 ^ f.eb - 1) * 2 ^ f.mb

/-! ### Flags of CL_CORE_VFLAGS (R60) and rounded results -/

def vfInvalid : Nat := 1
def vfDivZero : Nat := 2
def vfOverflow : Nat := 4
def vfUnderflow : Nat := 8
def vfInexact : Nat := 16
def vfIntSat : Nat := 32

/-- A result and the flags it sets. -/
structure FRes where
  code : Nat
  flags : Nat := 0
  deriving DecidableEq, Repr, Inhabited

/-- Rounds a magnitude a > 0 to a format (R69, R142). `sat`: beyond the range the result is ±Fmax; else as IEEE. -/
def roundFlt (f : FltFmt) (rm : Nat) (sat neg : Bool) (a : Rat) : FRes :=
  let r := roundStep rm neg a (f.step a)
  let free := roundStep rm neg a (p2 (ilog2 a - f.mb))
  if r > f.fmax then
    let toMax := sat || rm = 1 || (rm = 2 && !neg) || (rm = 3 && neg)
    { code := if toMax then encodeFlt f neg f.fmax else f.infCode neg, flags := vfOverflow ||| vfInexact }
  else
    let inexact := decide (r ≠ a)
    { code := encodeFlt f neg r,
      flags := (if inexact then vfInexact else 0) + (if inexact && decide (free < f.minNormal) then vfUnderflow else 0) }

def nan32 : Nat := 0x7FC00000

def FVal.signalling : FVal → Bool
  | .nan b => b
  | _ => false

def FVal.isNan : FVal → Bool
  | .nan _ => true
  | _ => false

/-- The signed value of a finite operand. -/
def FVal.val : FVal → Rat
  | .fin neg a => if neg then -a else a
  | _ => 0

def FVal.neg? : FVal → Bool
  | .fin n _ => n
  | .inf n => n
  | .nan _ => false

/-- The canonical quiet NaN, with INVALID when `b`. -/
def nanRes (b : Bool) : FRes := { code := nan32, flags := if b then vfInvalid else 0 }

/-- Rounds an exact sum or product to FP32; an exact zero takes the sign `zneg`. -/
def round32 (rm : Nat) (v : Rat) (zneg : Bool) : FRes :=
  if v = 0 then { code := fp32.signBit zneg } else roundFlt fp32 rm false (decide (v < 0)) (rabs v)

/-- Sign of an exact zero sum of operands with these signs. -/
def zeroSign (rm : Nat) (a b : Bool) : Bool := if a == b then a else rm = 2

def add32 (rm : Nat) (x y : FVal) : FRes :=
  match x, y with
  | .nan a, y => nanRes (a || y.signalling)
  | _, .nan b => nanRes b
  | .inf a, .inf b => if a == b then { code := fp32.infCode a } else nanRes true
  | .inf a, _ => { code := fp32.infCode a }
  | _, .inf b => { code := fp32.infCode b }
  | .fin a u, .fin b v =>
    round32 rm ((FVal.fin a u).val + (FVal.fin b v).val) (zeroSign rm a b)

def FVal.negate : FVal → FVal
  | .fin n a => .fin (!n) a
  | .inf n => .inf (!n)
  | .nan b => .nan b

def mul32 (rm : Nat) (x y : FVal) : FRes :=
  match x, y with
  | .nan a, y => nanRes (a || y.signalling)
  | _, .nan b => nanRes b
  | .inf a, .inf b => { code := fp32.infCode (a != b) }
  | .inf a, .fin b v => if v = 0 then nanRes true else { code := fp32.infCode (a != b) }
  | .fin a u, .inf b => if u = 0 then nanRes true else { code := fp32.infCode (a != b) }
  | .fin a u, .fin b v => round32 rm ((FVal.fin a u).val * (FVal.fin b v).val) (a != b)

/-- x × y + z with one rounding. IEEE 754-2019 leaves open whether 0 × ∞ + a quiet NaN is invalid. -/
def fma32 (rm : Nat) (x y z : FVal) : FRes :=
  let zeroInf := match x, y with
    | .inf _, .fin _ v => decide (v = 0)
    | .fin _ u, .inf _ => decide (u = 0)
    | _, _ => false
  if x.isNan || y.isNan || z.isNan then
    nanRes (x.signalling || y.signalling || z.signalling || (zeroInf && Config.fmaNanInvalid))
  else if zeroInf then nanRes true
  else
    let neg := x.neg? != y.neg?
    match x, y, z with
    | .inf _, _, .inf c => if neg == c then { code := fp32.infCode c } else nanRes true
    | _, .inf _, .inf c => if neg == c then { code := fp32.infCode c } else nanRes true
    | .inf _, _, _ => { code := fp32.infCode neg }
    | _, .inf _, _ => { code := fp32.infCode neg }
    | _, _, .inf c => { code := fp32.infCode c }
    | x, y, z => round32 rm (x.val * y.val + z.val) (zeroSign rm neg z.neg?)

/-- x orders below y, −0 below +0. -/
def FVal.lt : FVal → FVal → Bool
  | .inf a, .inf b => a && !b
  | .inf a, .fin _ _ => a
  | .fin _ _, .inf b => !b
  | .fin a u, .fin b v =>
    let x := (FVal.fin a u).val
    let y := (FVal.fin b v).val
    x < y || (x = y && a && !b)
  | _, _ => false

/-- minimumNumber (`big` false) or maximumNumber of two FP32 codes (R67). -/
def minMax32 (big : Bool) (a b : Nat) : FRes :=
  let x := decodeFlt fp32 a
  let y := decodeFlt fp32 b
  let flags := if x.signalling || y.signalling then vfInvalid else 0
  if x.isNan && y.isNan then { code := nan32, flags }
  else if x.isNan then { code := b, flags }
  else if y.isNan then { code := a, flags }
  else if big then { code := if x.lt y then b else a, flags } else { code := if y.lt x then b else a, flags }

/-! ### Conversions (R70, R142) -/

/-- Two's-complement reading of the low `n` bits. -/
def sint (n v : Nat) : Int := (BitVec.ofNat n v).toInt

/-- The value of a code of a VCVT type. -/
def cvtDecode (ty code : Nat) : FVal :=
  let int (v : Int) : FVal := .fin (decide (v < 0)) (v.natAbs : Nat)
  match ty with
  | 0 => decodeFlt fp32 code
  | 1 => int (sint 32 code)
  | 2 => decodeFlt bf16 code
  | 3 => int (sint 8 code)
  | 4 => int (code % 256)
  | 5 => decodeFlt e4m3 code
  | _ => decodeFlt e5m2 code

/-- Bytes of an element of a VCVT type. -/
def cvtBytes (ty : Nat) : Nat :=
  match ty with
  | 0 | 1 => 4
  | 2 => 2
  | _ => 1

/-- Rounds to an integer type of `w` bits; clips with INT_SAT. The spec states no INEXACT for it: free. -/
def cvtInt (signed : Bool) (w rm : Nat) (x : FVal) : FRes :=
  let lo : Int := if signed then -(2 ^ (w - 1) : Nat) else 0
  let hi : Int := if signed then (2 ^ (w - 1) : Nat) - 1 else (2 ^ w : Nat) - 1
  let code (v : Int) : Nat := (v % (2 ^ w : Nat)).toNat
  match x with
  | .nan _ => { code := 0, flags := vfInvalid }
  | .inf neg => { code := code (if neg then lo else hi), flags := vfIntSat }
  | .fin neg a =>
    let r := (roundStep rm neg a 1).floor
    let v := if neg then -r else r
    let inexact := if decide ((r : Rat) ≠ a) && Config.cvtIntInexact then vfInexact else 0
    if v < lo then { code := code lo, flags := vfIntSat + inexact }
    else if v > hi then { code := code hi, flags := vfIntSat + inexact }
    else { code := code v, flags := inexact }

/-- Converts to a float type; beyond the range the result is ±Fmax. -/
def cvtFlt (f : FltFmt) (rm : Nat) (x : FVal) : FRes :=
  match x with
  | .nan s => { code := f.nanCode, flags := if s then vfInvalid else 0 }
  | .inf neg =>
    if f.style = 2 then { code := encodeFlt f neg f.fmax, flags := vfOverflow ||| vfInexact }
    else { code := f.infCode neg }
  | .fin neg a => if a = 0 then { code := f.signBit neg } else roundFlt f rm true neg a

/-- VCVT of one element. -/
def vcvt (from_ dest rm code : Nat) : FRes :=
  let x := cvtDecode from_ code
  match dest with
  | 0 => cvtFlt fp32 rm x
  | 1 => cvtInt true 32 rm x
  | 2 => cvtFlt bf16 rm x
  | 3 => cvtInt true 8 rm x
  | 4 => cvtInt false 8 rm x
  | 5 => cvtFlt e4m3 rm x
  | _ => cvtFlt e5m2 rm x

/-! ### Special functions (R71)

A transcendental value is computed in fixed point with 2^-700 as the unit, which lies far below the distance between any
such value at an FP32 argument and an FP32 rounding boundary. -/

def fxBits : Nat := 700
def fxOne : Int := (2 ^ fxBits : Nat)

def toFx (q : Rat) : Int := (q * (2 ^ fxBits : Nat)).floor
def ofFx (v : Int) : Rat := mkRat v (2 ^ fxBits)
def fxMul (a b : Int) : Int := a * b / fxOne
def fxDiv (a b : Int) : Int := a * fxOne / b

/-- Σ x^k / k! from term number k, over `n` terms. -/
def expSeries (x : Int) : Nat → Nat → Int → Int
  | 0, _, _ => 0
  | n + 1, k, term => term + expSeries x n (k + 1) (fxMul term x / ((k : Int) + 1))

/-- artanh by its series: Σ z^(2k+1) / (2k+1). -/
def artanhSeries (z2 : Int) : Nat → Nat → Int → Int
  | 0, _, _ => 0
  | n + 1, k, p => p / ((2 * k + 1 : Nat) : Int) + artanhSeries z2 n (k + 1) (fxMul p z2)

def artanhFx (z : Int) : Int := artanhSeries (fxMul z z) 360 0 z

/-- ln 2 = 2 artanh(1/3). -/
def ln2Fx : Int := 2 * artanhFx (fxOne / 3)

/-- arctan(1/n) × 2^700. -/
def arctanInv (n : Int) : Nat → Nat → Int → Int
  | 0, _, _ => 0
  | m + 1, k, p => (if k % 2 = 0 then p else -p) / ((2 * k + 1 : Nat) : Int) + arctanInv n m (k + 1) (p / (n * n))

/-- π by Machin's formula. -/
def piFx : Int := 4 * (4 * arctanInv 5 170 0 (fxOne / 5) - arctanInv 239 50 0 (fxOne / 239))

/-- e^x for a fixed-point x, as a rational: range reduction by ln 2. Far below, a positive value below every boundary. -/
def expFx (x : Int) : Rat :=
  let k := (x + ln2Fx / 2) / ln2Fx
  if k < -1200 then p2 (-1200)
  else if k > 600 then p2 600
  else ofFx (expSeries (x - k * ln2Fx) 160 0 fxOne) * p2 k

/-- ln q for q > 0: the exponent times ln 2 and artanh of the mantissa. -/
def lnFx (q : Rat) : Int :=
  let k := ilog2 q
  let m := toFx (q / p2 k)
  k * ln2Fx + 2 * artanhFx (fxDiv (m - fxOne) (m + fxOne))

/-- (cos x, sin x) for a reduced x, by their series. -/
def trigSeries (x2 : Int) : Nat → Nat → Int → Int
  | 0, _, _ => 0
  | n + 1, k, t => t + trigSeries x2 n (k + 2) (-(fxMul t x2) / (((k + 1) * (k + 2) : Nat) : Int))

def sinFx (x : Int) : Int := trigSeries (fxMul x x) 90 1 x
def cosFx (x : Int) : Int := trigSeries (fxMul x x) 90 0 fxOne

/-- sin (`c` false) or cos of q, reduced by multiples of π/2. -/
def trig (c : Bool) (q : Rat) : Rat :=
  let x := toFx q
  let h := piFx / 2
  let k := (x + h / 2) / h
  let r := x - k * h
  let n := ((k + if c then 1 else 0) % 4).toNat
  ofFx (match n with
    | 0 => sinFx r
    | 1 => cosFx r
    | 2 => -sinFx r
    | _ => -cosFx r)

/-- tanh q = (1 − e^(−2q)) / (1 + e^(−2q)); tiny arguments keep their leading terms. -/
def tanhQ (q : Rat) : Rat :=
  let a := rabs q
  let t :=
    if a < p2 (-60) then a - a * a * a / 3
    else
      let e := expFx (toFx (-2 * a))
      (1 - e) / (1 + e)
  if q < 0 then -t else t

/-- √(2/π) in fixed point. -/
def sqrt2piFx : Int := (Nat.sqrt ((2 * fxOne * fxOne * fxOne / piFx).toNat) : Nat)

/-- GELU in its tanh form: x/2 × (1 + tanh(√(2/π) (x + 0.044715 x³))), with 1 + tanh u = 2 / (1 + e^(−2u)). -/
def geluQ (q : Rat) : Rat :=
  let u := ofFx sqrt2piFx * (q + 44715 / 1000000 * q * q * q)
  if u < -400 then q * p2 (-900)
  else if u > 400 then q - q * p2 (-900)
  else q / (1 + expFx (toFx (-2 * u)))

/-- A square root to 2^-400 below, with a sticky half unit when it is not exact. -/
def sqrtQ (q : Rat) : Rat :=
  let n := q.num.natAbs * q.den * 2 ^ 1400
  let r := Nat.sqrt n
  (if r * r = n then (r : Rat) else (r : Rat) + 1 / 2) / ((q.den * 2 ^ 700 : Nat) : Rat)

/-- The value of special function `f` at a finite argument, where it is a real number. -/
def vsfValue (f : Nat) (q : Rat) : Option Rat :=
  match f with
  | 0 => if q = 0 then none else some (1 / q)
  | 1 => if q ≤ 0 then none else some (sqrtQ (1 / q))
  | 2 => if q < 0 then none else some (sqrtQ q)
  | 3 =>
    if q > 200 then some (p2 200)
    else if q < -400 then some (p2 (-400))
    else some (ofFx (expSeries (fxMul (toFx (q - q.floor)) ln2Fx) 160 0 fxOne) * p2 q.floor)
  | 4 => if q ≤ 0 then none
    else if q = p2 (ilog2 q) then some (ilog2 q) else some (ofFx (fxDiv (lnFx q) ln2Fx))
  | 5 => if q > 200 then some (p2 200) else if q < -400 then some (p2 (-500)) else some (expFx (toFx q))
  | 6 => if q ≤ 0 then none else if q = 1 then some 0 else some (ofFx (lnFx q))
  | 7 => some (tanhQ q)
  | 8 => if q < -400 then some (p2 (-500)) else if q > 400 then some (1 - p2 (-500))
    else some (1 / (1 + expFx (toFx (-q))))
  | 9 => some (geluQ q)
  | 10 => if rabs q > 4096 then none else if rabs q < p2 (-60) then some (q - q * q * q / 6) else some (trig false q)
  | _ => if rabs q > 4096 then none else if q = 0 then some 1
    else if rabs q < p2 (-60) then some (1 - q * q / 2) else some (trig true q)

/-- A result the spec states for a special value (R71, IEEE 754-2019); none for a value to be computed. DESIGN CHOICE
(log 30): a result that is exact is returned exactly outside deterministic mode too, where R71 gives only a bound: GELU of
±0 is a zero of the operand's sign and SIGMOID of ±0 is 1/2. -/
def vsfSpecial (f : Nat) (code : Nat) : Option FRes :=
  match decodeFlt fp32 code with
  | .nan s => some (nanRes s)
  | .inf neg =>
    match f with
    | 0 => some { code := fp32.signBit neg }
    | 1 => some (if neg then nanRes true else { code := 0 })
    | 2 | 4 | 6 => some (if neg then nanRes true else { code := fp32.infCode false })
    | 3 | 5 => some { code := if neg then 0 else fp32.infCode false }
    | 7 => some { code := encodeFlt fp32 neg 1 }
    | 10 | 11 => some (nanRes true)
    | _ => some { code := (Config.vsfOpen f (BitVec.ofNat 32 code)).toNat }
  | .fin neg a =>
    if a = 0 then
      match f with
      | 0 | 1 => some { code := fp32.infCode neg, flags := vfDivZero }
      | 2 | 7 | 9 | 10 => some { code := fp32.signBit neg }
      | 4 | 6 => some { code := fp32.infCode true, flags := vfDivZero }
      | 8 => some { code := encodeFlt fp32 false (1 / 2) }
      | _ => some { code := encodeFlt fp32 false 1 }
    else
      match f with
      | 1 | 2 | 4 | 6 => if neg then some (nanRes true) else none
      | 10 | 11 => if a > 4096 then some (nanRes true) else none
      | _ => none

/-- The bound of R71 outside deterministic mode holds between a candidate and the exact value at x. -/
def vsfWithin (f : Nat) (x v cand : Rat) : Bool :=
  let d := rabs (cand - v)
  let ulp (k : Nat) : Bool := v != 0 && d ≤ (k : Rat) * fp32.step (rabs v)
  match f with
  | 0 | 1 => ulp 1
  | 3 => ulp 2
  | 4 | 6 => if 1 / 2 ≤ x && x ≤ 2 then d ≤ p2 (-22) else ulp 2
  | 5 => ulp 3
  | 7 => if rabs x < 55 / 100 then d ≤ p2 (-22) else ulp 2
  | 8 => d ≤ p2 (-23)
  | 9 => d ≤ p2 (-20) * (if rabs x < 1 then 1 else rabs x)
  | 10 | 11 => d ≤ p2 (-21)
  | _ => false

/-- VSF of one element (R71). Outside deterministic mode the hardware's own candidate stands when it lies within the
bound, and the flags of its rounding are free. -/
def vsf (f rm : Nat) (det : Bool) (code : Nat) : FRes :=
  match vsfSpecial f code with
  | some r => r
  | none =>
    let x := (decodeFlt fp32 code).val
    match vsfValue f x with
    | none => nanRes true
    | some v =>
      let r := round32 rm v false
      if det || f = 2 then r
      else
        let c := (Config.vsfCandidate f (BitVec.ofNat 32 code) rm).toNat
        match decodeFlt fp32 c with
        | .fin neg a =>
          if vsfWithin f x v (FVal.fin neg a).val then
            { code := c, flags := (Config.vsfFlags f (BitVec.ofNat 32 code) rm).toNat &&& 28 }
          else r
        | _ => r

end Sys2Proof.Machine
end

