-- ==== Sys2Proof/Machine/Narrow.lean ====
section
/-!
DEFINITION. The narrow formats of R75: element widths, element values, block scales and their decoding (R94, R96, R97,
R100, R106, R122 to R127).
-/
namespace Sys2Proof.Machine

/-- Element bits of a format code (R75, R96). -/
def fmtBits : Nat → Nat
  | 3 => 16
  | 4 => 2
  | 5 | 6 | 9 => 4
  | 7 | 8 | 10 | 11 => 6
  | _ => 8

/-- K formats. -/
def isK (f : Nat) : Bool := 4 ≤ f && f ≤ 8
/-- MX formats. -/
def isMx (f : Nat) : Bool := 9 ≤ f && f ≤ 14
/-- Block-scaled formats (R100). -/
def blockScaled (f : Nat) : Bool := isK f || isMx f
/-- Formats that accumulate in INT32 (R75, R106). -/
def intAcc (f : Nat) : Bool := f = 0 || f = 4 || f = 5 || f = 14

/-- Tile pitch in bytes: 32 packed elements (R97). -/
def tilePitch (f : Nat) : Nat := 4 * fmtBits f

/-- An integer as an exact value. -/
def intVal (v : Int) : FVal := .fin (decide (v < 0)) (v.natAbs : Nat)

/-- Integer code of a K2 element; bit 7 of the scale byte selects the value set (R123). -/
def k2Code (ternary : Bool) (code : Nat) : Int :=
  match ternary, code % 4 with
  | false, 0 => 1
  | false, 1 => 3
  | false, 2 => -1
  | false, _ => -3
  | true, 1 => 1
  | true, 3 => -1
  | true, _ => 0

/-- MXFP8 codes have no NaN and no infinity on input (R127). -/
def mxFinite (f : FltFmt) (v : FVal) : FVal :=
  match v with
  | .nan _ => .fin false 0
  | .inf n => .fin n f.fmax
  | x => x

/-- The float format of an element code, where the format is a float one. -/
def fltOf : Nat → Option FltFmt
  | 1 | 12 => some e4m3
  | 2 | 13 => some e5m2
  | 3 => some bf16
  | 6 | 9 => some e2m1
  | 7 | 10 => some e3m2
  | 8 | 11 => some e2m3
  | _ => none

/-- The value of an element in the array: the integer code for integer-accumulating formats (R104, R106). -/
def elemArray (f scale code : Nat) : FVal :=
  match fltOf f with
  | some k => if isMx f then mxFinite k (decodeFlt k code) else decodeFlt k code
  | none =>
    if f = 4 then intVal (k2Code (bit scale 7) code)
    else if f = 5 then intVal (sint 4 code)
    else intVal (sint 8 code)

/-- The unit of an integer code (R106). -/
def elemUnit (f scale : Nat) : Rat :=
  if f = 4 then (if bit scale 7 then 1 else 1 / 2) else if f = 14 then 1 / 64 else 1

/-- The value of an element (R122, R123). -/
def elemReal (f scale code : Nat) : FVal :=
  match elemArray f scale code with
  | .fin n a => .fin n (a * elemUnit f scale)
  | v => v

/-- The e5m3 scale of a code (R124). -/
def e5m3 (code : Nat) : Rat :=
  let e := bits code 7 3
  let m := bits code 2 0
  if e = 0 then (m : Rat) * p2 (-17) else ((8 + m : Nat) : Rat) * p2 ((e : Int) - 18)

/-- The block scale of a scale byte (R124, R125, R127). -/
def scaleVal (f code : Nat) : Rat :=
  if f = 4 then e5m3 (code % 128)
  else if isK f then e5m3 code
  else if isMx f then (if code = 0xFF then 0 else p2 ((code : Int) - 127))
  else 1

/-- Element j of a packed string (R96). -/
def packedAt (f v j : Nat) : Nat := (v >>> (fmtBits f * j)) % 2 ^ fmtBits f

/-- Bytes that hold k packed elements (R98). -/
def packedBytes (f k : Nat) : Nat := (k * fmtBits f + 7) / 8

/-- Largest finite magnitude of a format; `t` is the ternary set (R122, R123). -/
def fmaxOf (f : Nat) (t : Bool) : Rat :=
  match fltOf f with
  | some k => k.fmax
  | none => if f = 4 then (if t then 1 else 3 / 2) else if f = 5 then 7 else if f = 14 then 127 / 64 else 127

end Sys2Proof.Machine
end

