-- ==== Sys2Proof/Machine/Flags.lean ====
section
/-!
DEFINITION. The status flags of a core: CL_CORE_VFLAGS, CL_CORE_MFLAGS and CL_CORE_ECC (R60, R69, R84, R107, R108).
-/
namespace Sys2Proof.Machine

/-- Sets sticky flags of CL_CORE_VFLAGS (R69). -/
def Core.setVflags (x : Core) (f : Nat) : Core := { x with vflags := x.vflags ||| BitVec.ofNat 6 f }

/-- A RW1C write of CL_CORE_VFLAGS. -/
def Core.clearVflags (x : Core) (v : W64) : Core := { x with vflags := x.vflags &&& ~~~(v.truncate 6) }

/-- Sets CL_CORE_MFLAGS.ACC_SAT (R107, R108). -/
def Core.setAccSat (x : Core) (b : Bool) : Core := { x with accSat := x.accSat || b }

/-- A RW1C write of CL_CORE_MFLAGS. -/
def Core.clearAccSat (x : Core) (v : W64) : Core := { x with accSat := x.accSat && !v.getLsbD 0 }

/-- Counts corrected stall-memory errors (R84). -/
def Core.countEcc (x : Core) (n : Nat) : Core := { x with eccStall := satAdd 16 x.eccStall n }

/-- Counts an L1 parity error (R85). -/
def Core.countL1 (x : Core) : Core := { x with eccL1 := satAdd 16 x.eccL1 1 }

end Sys2Proof.Machine
end

