-- ==== Sys2Proof/Machine/Operands.lean ====
section
/-!
DEFINITION. The operand forms of the scalar engine: general registers, instruction fetch, the program counter, stall
memory and context addresses (R48, R53, R54, R81 to R86).
-/
namespace Sys2Proof.Machine

/-! ### General registers (R48, R90) -/

/-- Reads general register r; g0 reads as 0. -/
def Core.get (x : Core) (r : Nat) : W64 := if r = 0 then 0 else (kget r x.g).getD 0

/-- Writes general register r; a write to g0 is discarded. -/
def Core.put (x : Core) (r : Nat) (v : W64) : Core :=
  if r = 0 then x else { x with g := if v = 0 then kdel r x.g else kset r v x.g }

/-- Sets the program counter. -/
def Core.setPc (x : Core) (pc : W64) : Core := { x with pc := pc.toNat }

/-- The program counter of the next instruction. -/
def Core.nextPc (x : Core) : W64 := BitVec.ofNat 64 x.pc + 4

/-- Retires an instruction that falls through. -/
def retire (c : Nat) (x : Core) (s : State) : State := s.setCore c (x.setPc x.nextPc)

/-! ### Fetch (R48, R54, R86, R509) -/

/-- The scalar engine of core c issues an instruction: a kernel runs, it is not blocked, and no shed pause holds. -/
def issues (c : Nat) (s : State) : Bool := (s.core c).run && (s.core c).blk.isNone && decide (s.power.shed < 4)

/-- The class and the function value of an instruction word name an instruction (R48 to R58). Reserved fields are checked
by the instruction's own row. -/
def wordDefined (w : Nat) : Bool :=
  match bits w 31 28 with
  | 0x0 => let fn := bits w 12 6
    fn ≤ 0x0D || (0x10 ≤ fn && fn ≤ 0x12) || (0x14 ≤ fn && fn ≤ 0x17)
  | 0x1 => bits w 17 14 ≤ 8
  | 0x5 => bits w 27 24 ≤ 5
  | 0x8 => bits w 27 26 ≤ 2
  | 0x9 => bits w 27 22 ≤ 7
  | 0xA => bits w 12 9 ≤ 9
  | k => k ≤ 0xA

/-- The instruction word at the program counter. -/
def Core.fetched (x : Core) : Nat := mread x.imem x.pc 4

/-- A core that issues fetches a word that encodes no instruction: ILLEGAL_INSTRUCTION (R48, R57). A defined word waits for
the row of its instruction. -/
def fetchIllegal (c : Nat) (s : State) : State :=
  if issues c s && decide ((s.core c).pc < (s.core c).codeSize) && !wordDefined (s.core c).fetched then
    engineFault c 0 fcIllegal s
  else s

/-- One instruction: bounds of the fetch, parity, its encoding, then its body. -/
def scalarRow (f : Fetch) (legal : Bool) (body : Nat → Core → State → State) (s : State) : State :=
  let c := f.core.val
  let x := s.core c
  if !issues c s then s
  else if x.codeSize ≤ x.pc then engineFault c 0 fcImemBounds s
  else if f.parity then engineFault c 0 fcImemParity s
  else if !legal then engineFault c 0 fcIllegal s
  else body c x s

/-! ### Stall memory (R53, R81, R84) -/

def stallSize : Nat := 0x100000

/-- Corrected errors of one row of core c's stall memory: 16 within 24 hours make a spare row due (R84, R486). -/
def rowErrors (c row n : Nat) (s : State) : State :=
  let k := c * 32768 + row
  let l := lastDay s ((kget k s.rep.rowErrs).getD []) ++ [(s.opSeconds, n)]
  if countSum l < 16 then { s with rep := { s.rep with rowErrs := kset k l s.rep.rowErrs } }
  else addDue { kind := 3, source := 4, unit := coreCluster c, slot := slotOf s c, index := row }
    { s with rep := { s.rep with rowErrs := kdel k s.rep.rowErrs } }

/-- Corrected errors of an access to core c's stall memory: counted in CL_CORE_ECC and by row. -/
def countErrors (c : Nat) (found : List (BitVec 15 × BitVec 16)) (s : State) : State :=
  foldS found (fun e s => rowErrors c e.1.toNat e.2.toNat (s.setCore c ((s.core c).countEcc e.2.toNat))) s

/-- Applies what the SECDED code found to a read by engine e: counts, or a fault. -/
def withEcc (c e : Nat) (ecc : Ecc) (s : State) (go : State → State) : State :=
  match ecc with
  | .clean => go s
  | .corrected found => go (countErrors c found s)
  | .double => engineFault c e fcStallUncorrectable s

/-! ### Addresses of loads, stores and atomics (R53) -/

/-- ga + sext(OFF) × size. -/
def effAddr (x : Core) (ra : Nat) (off : BitVec 14) (sz : Nat) : Nat :=
  (x.get ra + (off.signExtend 64) * BitVec.ofNat 64 (2 ^ sz)).toNat

/-- Extends a loaded value of `n` bytes. -/
def extendLoad (sx : Bool) (n v : Nat) : W64 := if sx then sext (8 * n) v else BitVec.ofNat 64 v

/-! ### The L1 data cache (R85) -/

/-- Fills a line: a full set of four loses one of its lines, chosen freely. -/
def Core.l1Fill (x : Core) (n v free : Nat) : Core :=
  let mates := x.l1.filter fun e => Config.setHash 1 e.1 % 256 == Config.setHash 1 n % 256
  let l1 := if mates.length < 4 then x.l1
    else match mates[(Config.free64 free).toNat % 4]? with
      | some e => kdel e.1 x.l1
      | none => x.l1
  { x with l1 := kset n (BitVec.ofNat 512 v) l1 }

/-- A store updates a line it hits. -/
def Core.l1Store (x : Core) (pa len v : Nat) : Core :=
  match kget (pa / 64) x.l1 with
  | none => x
  | some d =>
    { x with l1 := kset (pa / 64) (BitVec.ofNat 512 (mergeBytes 64 (maskFrom (pa % 64) len)
        ((v % 2 ^ (8 * len)) <<< (8 * (pa % 64))) d.toNat)) x.l1 }

/-- A line leaves the L1. -/
def Core.l1Drop (x : Core) (pa : Nat) : Core := { x with l1 := kdel (pa / 64) x.l1 }

/-- L1INV, and an acquire of CLUS scope or wider. -/
def Core.l1Inv (x : Core) : Core := { x with l1 := [] }

/-- A load of `len` bytes at a translated address, through the L1 where the address is cached (R85, R164, R191). A
parity error drops the line, which is then fetched again. -/
def loadThrough (c : Nat) (w : Who) (x : Xlat) (len : Nat) (parity : Bool) (s : State) : Acc × State :=
  if x.target ≠ 0 then readPiece w x len s
  else if behindPosted w x.pa s then (.wait, s)
  else
    let n := x.pa / 64
    let k := s.core c
    let s := if parity && (kget n k.l1).isSome then s.setCore c { k.countL1 with l1 := kdel n k.l1 } else s
    match kget n (s.core c).l1 with
    | some d => (.ok (bytesAt d.toNat (x.pa % 64) len), s)
    | none => match readLine (w.under x) x.pa (maskFrom (x.pa % 64) len) x.stream s with
      | (.ok v, s) =>
        (.ok (bytesAt v (x.pa % 64) len), (s.setCore c ((s.core c).l1Fill n v s.free)).bump)
      | r => r

/-- An access of an engine of core c at a context address (R53, R263): a translation fault, or the access; while it
waits for an answer from outside, the command has to be given again. -/
def ctxAccess (c : Nat) (e : Eng) (va : Nat) (need : Need) (act : Who → Xlat → State → Acc × State)
    (done : Nat → State → State) (s : State) : State :=
  let w := whoCore s c e
  match xlate w va need s with
  | .wait => s
  | .err cause i => engineFault c (engCode e) cause s (va := some va) (seg := i)
  | .ok x => match act w x (seen w x s) with
    | (.ok v, t) => done v t
    | (.wait, t) => putBack w.code s t
    | (.fault cause d, t) => engineFault c (engCode e) cause t (va := some va) (pa := some x.pa) (seg := x.seg) (detail := d)

end Sys2Proof.Machine
end

