-- ==== Sys2Proof/Machine/Engines.lean ====
section
/-!
DEFINITION. Command engines: FIFOs, validation, core semaphores, completion and deadlock (R40 to R47, R55, R56, R61, R62,
R73 to R78, R101, R102, R132, R149).
-/
namespace Sys2Proof.Machine

/-! ### Engines of a core -/

def Core.eng (x : Core) : Eng → EngSt
  | .vector => x.vec
  | .matrix => x.mtx
  | .dma => x.dma
  | .scalar => {}

def Core.setEng (x : Core) (e : Eng) (k : EngSt) : Core :=
  match e with
  | .vector => { x with vec := k }
  | .matrix => { x with mtx := k }
  | .dma => { x with dma := k }
  | .scalar => x

/-- Engine codes of ENQ and WAITE (R55, R57). -/
def engOf : Nat → Eng
  | 0 => .vector
  | 1 => .matrix
  | _ => .dma

def fifoDepth : Nat := 32

/-- FIFO empty and nothing in hand (R57). -/
def EngSt.idle (k : EngSt) : Bool := k.fifo.isEmpty && k.granted.isNone && k.done.isEmpty

/-! ### Command fields -/

/-- Bits of a command word: word i of the four, bits hi to lo. -/
def cf (w : BitVec 256) (i hi lo : Nat) : Nat := bits w.toNat (64 * i + hi) (64 * i + lo)

def cOp (w : BitVec 256) : Nat := cf w 0 7 0
def cWaitSem (w : BitVec 256) : Nat := cf w 0 11 8
def cSigSem (w : BitVec 256) : Nat := cf w 0 15 12
def cWaitCnt (w : BitVec 256) : Nat := cf w 0 23 16
def cSigCnt (w : BitVec 256) : Nat := cf w 0 31 24

/-! Vector commands (R62); operand 0 is A, 1 is B, 2 is C. -/

def vVd (w : BitVec 256) : Nat := cf w 0 36 32
def vReg (w : BitVec 256) (o : Nat) : Nat := cf w 0 (41 + 5 * o) (37 + 5 * o)
def vRm (w : BitVec 256) : Nat := cf w 0 53 52
def vSat (w : BitVec 256) : Bool := cf w 0 54 54 = 1
def vAddr (w : BitVec 256) (o : Nat) : Nat := cf w 1 (19 + 20 * o) (20 * o)
def vSel (w : BitVec 256) (o : Nat) : Nat := cf w 2 (21 + 2 * o) (20 + 2 * o)
def vAddrD (w : BitVec 256) : Nat := cf w 2 19 0
def vSelD (w : BitVec 256) : Nat := cf w 2 27 26
def vCount (w : BitVec 256) : Nat := cf w 2 47 32
def vImm (w : BitVec 256) : Nat := cf w 3 31 0
def vStr (w : BitVec 256) (o : Nat) : Nat := cf w 3 (39 + 8 * o) (32 + 8 * o)
def vStrD (w : BitVec 256) : Nat := cf w 3 63 56

/-- Source operands an opcode uses (R67); none for an unknown opcode. -/
def vUses (op : Nat) : Option (List Nat) :=
  if op = 0x04 || op = 0x20 then some [0, 1, 2]
  else if (0x01 ≤ op && op ≤ 0x03) || op = 0x05 || op = 0x06 || (0x10 ≤ op && op ≤ 0x1A) then some [0, 1]
  else if op = 0x08 || op = 0x30 || op = 0x40 || (0x50 ≤ op && op ≤ 0x52) then some [0]
  else if op = 0x60 || op = 0x61 then some []
  else none

/-- The limits every vector command keeps (R62). -/
def vCommonOk (w : BitVec 256) : Bool :=
  cf w 0 63 55 = 0 && cf w 1 63 60 = 0 && cf w 2 31 28 = 0 && cf w 2 63 48 = 0 && vSelD w ≤ 1 &&
  vAddrD w % 32 = 0 && (List.range 3).all (fun o => vAddr w o % 32 = 0 && (vSel w o = 0 || vStr w o = 0)) &&
  (vSelD w = 0 || vStrD w = 0)

/-- Fields an opcode of R67 limits: its needed operands, VCVT's types, VSF's function, SEL_D of the reductions. -/
def vOpOk (w : BitVec 256) (uses : List Nat) : Bool :=
  let op := cOp w
  let imm := vImm w
  uses.all (fun o => vSel w o ≠ 3) && (!vSat w || (0x10 ≤ op && op ≤ 0x12)) &&
  (if op = 0x30 then imm % 16 ≤ 6 && bits imm 7 4 ≤ 6 && imm < 256 && vSel w 0 ≠ 2
   else if op = 0x40 then imm ≤ 11 && vSel w 0 ≠ 2
   else if op = 0x50 || op = 0x51 then vSelD w = 1
   else true)

/-- Fields of VQUANT (R132). -/
def vquantOk (w : BitVec 256) : Bool :=
  let imm := vImm w
  let fmt := imm % 16
  vSel w 0 = 0 && vSel w 1 = 1 && vSel w 2 = 3 && vSelD w = 0 && vAddr w 1 = 0 && vAddr w 2 = 0 && vStr w 1 = 0 &&
  vStr w 2 = 0 && vReg w 0 = 0 && vReg w 2 = 0 && vVd w = 0 && vRm w = 0 && !vSat w && fmt ≠ 15 && imm < 2 ^ 13 &&
  (!bit imm 9 || blockScaled fmt) && (!bit imm 10 || fmt = 4)

/-- Fields of VDEQ (R149). -/
def vdeqOk (w : BitVec 256) : Bool :=
  vSel w 0 = 0 && vSel w 1 = 3 && vSel w 2 = 3 && vSelD w = 0 && vAddr w 1 = 0 && vAddr w 2 = 0 && vStr w 1 = 0 &&
  vStr w 2 = 0 && vReg w 0 = 0 && vReg w 1 = 0 && vReg w 2 = 0 && vVd w = 0 && vRm w = 0 && !vSat w && vImm w ≤ 1

/-- A vector command is valid (R42, R62, R67, R132, R149). -/
def vectorOk (w : BitVec 256) : Bool :=
  match vUses (cOp w) with
  | none => false
  | some u =>
    vCommonOk w && (if cOp w = 0x60 then vquantOk w else if cOp w = 0x61 then vdeqOk w else vOpOk w u)

/-! Matrix commands (R74). -/

def mFmtW (w : BitVec 256) : Nat := cf w 0 35 32
def mFmtA (w : BitVec 256) : Nat := cf w 0 39 36
def mTranspose (w : BitVec 256) : Bool := cf w 0 40 40 = 1
def mClear (w : BitVec 256) : Bool := cf w 0 41 41 = 1
def mAddrW (w : BitVec 256) : Nat := cf w 1 19 0
def mAddrA (w : BitVec 256) : Nat := cf w 1 39 20
def mAddrAcc (w : BitVec 256) : Nat := cf w 1 59 40
def mN (w : BitVec 256) : Nat := cf w 2 15 0
def mK (w : BitVec 256) : Nat := cf w 2 21 16
def mM (w : BitVec 256) : Nat := cf w 2 27 22
def mStrA (w : BitVec 256) : Nat := cf w 2 47 32
def mStrAcc (w : BitVec 256) : Nat := cf w 2 63 48
def mAddrSw (w : BitVec 256) : Nat := cf w 3 19 0
def mAddrSa (w : BitVec 256) : Nat := cf w 3 39 20

/-- A matrix command is valid; `last` is the FMT_W of the last MLOADW since launch (R74, R76, R101). -/
def matrixOk (last : Option Nat) (w : BitVec 256) : Bool :=
  let f := mFmtW w
  cf w 0 63 42 = 0 && cf w 1 63 60 = 0 && cf w 2 31 28 = 0 && cf w 3 63 40 = 0 && f = mFmtA w && f ≠ 15 &&
  mK w ≤ 32 && mM w ≤ 32 &&
  (if cOp w = 1 then
    !mTranspose w && !mClear w && mAddrW w % 32 = 0 && mAddrA w = 0 && mAddrAcc w = 0 && mN w = 0 && mStrA w = 0 &&
    mStrAcc w = 0 && mAddrSa w = 0 && (blockScaled f || mAddrSw w = 0)
   else
    cOp w = 2 && mAddrW w = 0 && mAddrSw w = 0 && mAddrAcc w % 4 = 0 && mStrAcc w % 4 = 0 &&
    (blockScaled f || mAddrSa w = 0) && (match last with
      | none => true
      | some l => l = f))

/-- Bytes a strided region reaches: none when its count is 0. -/
def extent (addr stride count size : Nat) : Nat := if count = 0 then 0 else addr + stride * (count - 1) + size

/-- The matrix command touches nothing (R76). -/
def mEmpty (w : BitVec 256) : Bool := mK w = 0 || mM w = 0 || (cOp w = 2 && mN w = 0)

/-- Every region of a matrix command lies in stall memory (R102). -/
def matrixInBounds (w : BitVec 256) : Bool :=
  let f := mFmtW w
  let n := mN w
  if mEmpty w then true
  else if cOp w = 1 then
    extent (mAddrW w) (tilePitch f) (mK w) (tilePitch f) ≤ stallSize &&
    (!blockScaled f || extent (mAddrSw w) 1 (mM w) 1 ≤ stallSize)
  else
    extent (mAddrA w) (mStrA w) n (packedBytes f (mK w)) ≤ stallSize &&
    (!blockScaled f || extent (mAddrSa w) 1 n 1 ≤ stallSize) &&
    extent (mAddrAcc w) (mStrAcc w) n (4 * mM w) ≤ stallSize

/-! DMA commands (R77). -/

def dSrcCtx (w : BitVec 256) : Bool := cf w 0 32 32 = 1
def dDstCtx (w : BitVec 256) : Bool := cf w 0 33 33 = 1
def dFill (w : BitVec 256) : Bool := cf w 0 34 34 = 1
def dAck (w : BitVec 256) : Nat := cf w 0 37 35
def dSrcStride (w : BitVec 256) : Nat := cf w 0 63 40
def dSrc (w : BitVec 256) : Nat := cf w 1 55 0
def dDst (w : BitVec 256) : Nat := cf w 2 55 0
def dRowBytes (w : BitVec 256) : Nat := cf w 3 23 0
def dRows (w : BitVec 256) : Nat := cf w 3 39 24
def dDstStride (w : BitVec 256) : Nat := cf w 3 63 40

def dmaOk (w : BitVec 256) : Bool :=
  cOp w = 1 && cf w 0 39 38 = 0 && cf w 1 63 56 = 0 && cf w 2 63 56 = 0 && 1 ≤ dAck w && dAck w ≤ 5 &&
  (!dFill w || (!dSrcCtx w && dSrcStride w = 0 && cf w 1 55 32 = 0))

/-! ### Validation at the head (R42, R102) -/

/-- The fault of a command that reaches the head of its FIFO. -/
def headFault (x : Core) (e : Eng) (w : BitVec 256) : Option Nat :=
  match e with
  | .vector => if vectorOk w then none else some fcCommandInvalid
  | .matrix =>
    if !matrixOk x.lastFmt w then some fcCommandInvalid
    else if !matrixInBounds w then some fcStallBounds else none
  | .dma => if dmaOk w then none else some fcCommandInvalid
  | .scalar => none

/-- The head command starts: it leaves the FIFO (R43). -/
def Core.grant (x : Core) (e : Eng) : Core :=
  let k := x.eng e
  match k.fifo with
  | [] => x
  | w :: t => x.setEng e { k with fifo := t, checked := false, granted := some w, pos := 0, carry := (0, 0) }

/-- Count of a core semaphore. -/
def Core.sem (x : Core) (i : Nat) : Nat := (kget i x.sems).getD 0

def Core.setSem (x : Core) (i n : Nat) : Core := { x with sems := if n = 0 then kdel i x.sems else kset i n x.sems }

/-- A command reaches the head of engine e's FIFO: it is validated; with WAIT_CNT 0 it starts at once (R16, R43). -/
def headCheck (c : Nat) (e : Eng) (s : State) : State :=
  let x := s.core c
  let k := x.eng e
  if !x.run || k.granted.isSome || k.checked || s.power.shed ≥ 4 then s
  else match k.fifo with
    | [] => s
    | w :: _ => match headFault x e w with
      | some cause => engineFault c (engCode e) cause s
      | none =>
        let x := if e = .matrix && cOp w = 1 then { x with lastFmt := some (mFmtW w) } else x
        if cWaitCnt w = 0 then s.setCore c (x.grant e)
        else s.setCore c (x.setEng e { k with checked := true })

/-! ### Semaphores (R43, R45) -/

/-- A signal: above 65,535 it is a fault of the engine and the count stays. -/
def semSignal (c e i n : Nat) (s : State) : State :=
  let x := s.core c
  if n = 0 then s
  else if x.sem i + n > 65535 then engineFault c e fcSemOverflow s
  else s.setCore c (x.setSem i (x.sem i + n))

/-- Grants the wait of an engine's head command when the count allows it. -/
def grantEngine (c : Nat) (e : Eng) (s : State) : State :=
  let s := headCheck c e s
  let x := s.core c
  let k := x.eng e
  match k.fifo with
  | w :: _ =>
    if x.run && k.checked && k.granted.isNone && cWaitCnt w ≤ x.sem (cWaitSem w) then
      s.setCore c ((x.setSem (cWaitSem w) (x.sem (cWaitSem w) - cWaitCnt w)).grant e)
    else s
  | [] => s

/-- Grants a scalar SWAIT. -/
def grantScalar (c : Nat) (s : State) : State :=
  let x := s.core c
  match x.blk with
  | some (.swait i n) =>
    if x.run && n ≤ x.sem i then
      let x := { x.setSem i (x.sem i - n) with blk := none }
      s.setCore c (x.setPc x.nextPc)
    else s
  | _ => s

/-! ### What follows a change of an engine (R40, R47, R57, R91) -/

/-- The engine is blocked on a semaphore wait that its count does not allow. -/
def Core.engBlocked (x : Core) (e : Eng) : Bool :=
  let k := x.eng e
  k.granted.isNone && k.done.isEmpty && k.checked && (match k.fifo with
    | w :: _ => decide (x.sem (cWaitSem w) < cWaitCnt w)
    | [] => false)

/-- DEADLOCK (R47): the scalar engine cannot go on, every engine with work is blocked, and no DMA transfer is
outstanding. -/
def Core.deadlocked (x : Core) : Bool :=
  let eng := [Eng.vector, Eng.matrix, Eng.dma]
  let work := eng.filter fun e => !(x.eng e).idle
  x.run && work.all x.engBlocked && (match x.blk with
    | some (.swait i n) => decide (x.sem i < n)
    | some (.enq e) => x.engBlocked (engOf e)
    | some (.waite e) => x.engBlocked (engOf e)
    | some .halt => !work.isEmpty
    | none => false)

/-- The core retires HALT (R91). -/
def haltCore (c : Nat) (s : State) : State := settleLaunches (stopCore c false s)

/-- A HALT ends the program on the core now: its FIFOs are empty and its engines idle (R57). -/
def haltsNow (c : Nat) (s : State) : Bool :=
  let x := s.core c
  x.run && decide (s.power.shed < 4) && x.blk == some .halt && x.vec.idle && x.mtx.idle && x.dma.idle

/-- A blocked scalar engine goes on when what it waited for has come. -/
def unblock (c : Nat) (s : State) : State :=
  let x := s.core c
  if !x.run || s.power.shed ≥ 4 then s
  else match x.blk with
    | some (.enq e) =>
      if (x.eng (engOf e)).fifo.length < fifoDepth then s.setCore c { x with blk := none } else s
    | some (.waite e) =>
      if (x.eng (engOf e)).idle then s.setCore c ({ x with blk := none }.setPc x.nextPc) else s
    | _ => s

/-- After a change of core c's engines: a HALT ends, or the scalar engine is unblocked and a deadlock is reported at
once. -/
def settleCore (c : Nat) (s : State) : State :=
  if haltsNow c s then haltCore c s
  else
    let s := unblock c s
    if (s.core c).deadlocked then engineFault c 0 fcDeadlock s else s

/-! ### Running a granted command -/

/-- An engine's granted command that meets a test runs; a core without one is left as it is. -/
def engineRow (c : Nat) (e : Eng) (test : BitVec 256 → Bool) (go : BitVec 256 → State → State) (s : State) : State :=
  let x := s.core c
  match (x.eng e).granted with
  | some w => if x.run && test w then go w s else s
  | none => s

/-- The granted command's effect is made: it now completes in its turn, and the next command reaches the head. -/
def engineDone (c : Nat) (e : Eng) (s : State) : State :=
  let x := s.core c
  let k := x.eng e
  match k.granted with
  | none => s
  | some w =>
    let k := { k with granted := none, done := k.done ++ [w], pos := 0, issued := k.issued + 1 }
    settleCore c (headCheck c e (s.setCore c (x.setEng e k)))

/-! ### The commands -/

/-- ENQ (R40, R55): an engine code of 3 or another register is ILLEGAL_INSTRUCTION. A full FIFO stalls the scalar
engine at the ENQ. -/
def execEnq (f : Fetch) (eng : BitVec 2) (rsv1 : BitVec 3) (ra : BitVec 5) (rsv2 : BitVec 18) (s : State) :
    Host.Outcome State Fault Refusal :=
  let a := ra.toNat
  .next (scalarRow f (rsv1 = 0 && rsv2 = 0 && eng.toNat ≠ 3 && a % 4 = 0 && a ≠ 0) (fun c x s =>
    let e := engOf eng.toNat
    let k := x.eng e
    if k.fifo.length ≥ fifoDepth then settleCore c (s.setCore c { x with blk := some (.enq eng.toNat) })
    else
      let w := x.get (a + 3) ++ x.get (a + 2) ++ x.get (a + 1) ++ x.get a
      settleCore c (headCheck c e (retire c (x.setEng e { k with fifo := k.fifo ++ [w] }) s))) s)

/-- SWAIT (R43, R56). -/
def execSwait (f : Fetch) (sem : BitVec 4) (rd : BitVec 5) (rsv : Bool) (count : BitVec 16) (s : State) :
    Host.Outcome State Fault Refusal :=
  .next (scalarRow f (!rsv && rd = 0) (fun c x s =>
    settleCore c (grantScalar c (s.setCore c { x with blk := some (.swait sem.toNat count.toNat) }))) s)

/-- SSIG (R45, R56, R168). -/
def execSsig (f : Fetch) (sem : BitVec 4) (rd : BitVec 5) (rsv : Bool) (count : BitVec 16) (s : State) :
    Host.Outcome State Fault Refusal :=
  .next (scalarRow f (!rsv && rd = 0) (fun c _ s =>
    let s := semSignal c 0 sem.toNat count.toNat s
    if (s.core c).run then retire c (s.core c) s else s) s)

/-- SREAD (R56). -/
def execSread (f : Fetch) (sem : BitVec 4) (rd : BitVec 5) (rsv : Bool) (count : BitVec 16) (s : State) :
    Host.Outcome State Fault Refusal :=
  .next (scalarRow f (!rsv && count = 0) (fun c x s =>
    retire c (x.put rd.toNat (BitVec.ofNat 64 (x.sem sem.toNat))) s) s)

/-- SEMAPHORE_GRANT (R45): waits are granted in the order scalar, vector, matrix, DMA; nothing starts during a shed
pause (R509). -/
def execSemaphoreGrant (core : Fin 4000) (s : State) : Host.Outcome State Fault Refusal :=
  let c := core.val
  if s.power.shed ≥ 4 || !(s.core c).run then .next s
  else
    .next (settleCore c (grantEngine c .dma (grantEngine c .matrix (grantEngine c .vector (grantScalar c s)))))

/-- ENGINE_COMMAND_COMPLETE (R44, R45, R169): the oldest command of the engine whose effect is made completes and
signals. A COPY waits until its writes and those of earlier COPYs are performed at its scope (R79, R169, R171): with
ACK_SCOPE 3 or wider those its cluster cache accepted, with 4 or 5 those to apertures, with 5 those to windows (R181). -/
def execEngineCommandComplete (core : Fin 4000) (eng : BitVec 2) (s : State) : Host.Outcome State Fault Refusal :=
  let c := core.val
  let e := engOf eng.toNat
  let x := s.core c
  let k := x.eng e
  if eng = 3 || !x.run then .next s
  else match k.done with
    | [] => .next s
    | w :: t =>
      let owed := e = .dma && s.posted.any fun p => p.2.cluster.isSome && p.2.core == c && p.2.eng == 3 &&
        p.2.link == some x.link && p.2.num ≤ k.finished && (if p.2.target = 0 then 3 ≤ dAck w else 4 ≤ dAck w)
      let (clear, s) := if e = .dma && dAck w = 5 then sysRelease (4 * c + engCode e + 1) s else (true, s)
      if owed || !clear then .next s
      else
        let s := s.setCore c ((s.core c).setEng e { k with done := t, finished := k.finished + 1 })
        .next (settleCore c (semSignal c (engCode e) (cSigSem w) (cSigCnt w) s))

end Sys2Proof.Machine
end

