-- ==== Sys2Proof/Machine/Vector.lean ====
section
/-!
DEFINITION. The vector engine: streams, registers and immediates, element-wise operations, conversions, special functions
and reductions (R62 to R72, R148).
-/
namespace Sys2Proof.Machine

/-! ### Stall memory and saturation marks (R63, R148) -/

/-- Some word of [a, a + n) carries a mark. -/
def Core.anyMark (x : Core) (a n : Nat) : Bool := x.marks.any fun e => a / 32 ≤ e.1 && e.1 * 32 < a + n

/-- Sets or clears the marks of the words of [a, a + n). -/
def Core.setMarks (x : Core) (a n : Nat) (b : Bool) : Core :=
  if n = 0 then x
  else
    let one (m : KV Bool) (i : Nat) : KV Bool := if b then kset (a / 32 + i) true m else kdel (a / 32 + i) m
    { x with marks := (List.range ((a + n - 1) / 32 - a / 32 + 1)).foldl one x.marks }

/-- A write of the vector or matrix engine to stall memory. -/
def Core.stallWrite (x : Core) (a n v : Nat) : Core := { x with stall := mwrite x.stall a n v }

/-- Vector register r. -/
def Core.vget (x : Core) (r : Nat) : BitVec 2048 := (kget r x.vregs).getD 0

/-- Writes vector register r with its mark; all 256 bytes. -/
def Core.vput (x : Core) (r : Nat) (v : BitVec 2048) (mark : Bool) : Core :=
  { x with vregs := if v = 0 then kdel r x.vregs else kset r v x.vregs,
           vmarks := if mark then kset r true x.vmarks else kdel r x.vmarks }

/-! ### Groups (R62 to R65) -/

/-- Bytes of one element of a source and of the destination (R63, R70). -/
def vSizes (w : BitVec 256) : Nat × Nat :=
  if cOp w = 0x30 then (cvtBytes (vImm w % 16), cvtBytes (bits (vImm w) 7 4)) else (4, 4)

/-- The 32-bit immediate in all 64 lanes. -/
def broadcast (v : Nat) : Nat → Nat
  | 0 => 0
  | n + 1 => v % 2 ^ 32 + 2 ^ 32 * broadcast v n

/-- Source operand o of group g, with its mark. -/
def vSource (x : Core) (w : BitVec 256) (g o : Nat) : Nat × Bool :=
  let n := 64 * (vSizes w).1
  match vSel w o with
  | 0 =>
    let a := vAddr w o + 32 * vStr w o * g
    (mread x.stall a n, x.anyMark a n)
  | 1 => ((x.vget (vReg w o)).toNat % 2 ^ (8 * n), (kget (vReg w o) x.vmarks).isSome)
  | _ => (broadcast (vImm w) 64, false)

/-- Every stream of the command lies below 0x10_0000 (R63). -/
def vInBounds (w : BitVec 256) (uses : List Nat) : Bool :=
  let (si, so) := vSizes w
  uses.all (fun o => vSel w o ≠ 0 || extent (vAddr w o) (32 * vStr w o) (vCount w) (64 * si) ≤ stallSize) &&
  (vSelD w ≠ 0 || extent (vAddrD w) (32 * vStrD w) (vCount w) (64 * so) ≤ stallSize)

/-- A source stream overlaps the destination stream without coinciding with it (R65). -/
def vOverlap (w : BitVec 256) (uses : List Nat) : Bool :=
  let (si, so) := vSizes w
  let groups := List.range (vCount w)
  vSelD w = 0 && uses.any fun o => vSel w o = 0 && !(vAddr w o = vAddrD w && vStr w o = vStrD w) &&
    groups.any fun i => groups.any fun j =>
      overlaps (vAddr w o + 32 * vStr w o * i) (64 * si) (vAddrD w + 32 * vStrD w * j) (64 * so)

/-- 256 free bytes. -/
def freeGroup (k : Nat) : Nat :=
  (Config.freeLine k).toNat + 2 ^ 512 * (Config.freeLine (k + 1)).toNat + 2 ^ 1024 * (Config.freeLine (k + 2)).toNat +
  2 ^ 1536 * (Config.freeLine (k + 3)).toNat

/-- What one group computes: from the values of A, B, C and of VD, the result and its flags. -/
abbrev GroupFn := Nat → Nat → Nat → Nat → Nat × Nat

/-- Writes the result of group g; a register takes zeros above the result (R64, R70). -/
def vWrite (x : Core) (w : BitVec 256) (g v : Nat) (mark : Bool) : Core :=
  let n := 64 * (vSizes w).2
  if vSelD w = 1 then x.vput (vVd w) (BitVec.ofNat 2048 (v % 2 ^ (8 * n))) mark
  else
    let a := vAddrD w + 32 * vStrD w * g
    (x.stallWrite a n v).setMarks a n mark

/-- One group: the marks of what it reads go to what it writes (R148). `k` is the free-value number of an unspecified
group. -/
def vGroup (f : GroupFn) (w : BitVec 256) (uses : List Nat) (red : Bool) (k : Option Nat) (g : Nat) (x : Core) : Core :=
  let src (o : Nat) : Nat × Bool := if uses.contains o then vSource x w g o else (0, false)
  let (a, ma) := src 0
  let (b, mb) := src 1
  let (c, mc) := src 2
  let mark := ma || mb || mc || (red && (kget (vVd w) x.vmarks).isSome)
  let (v, flags) := f a b c (x.vget (vVd w)).toNat
  match k with
  | none => (vWrite x w g v mark).setVflags flags
  | some k => (vWrite x w g (freeGroup (k + 4 * g)) mark).setVflags (Config.free32 (k + 4 * g)).toNat

/-- Runs a granted vector command of opcode `op` on core c. -/
def vectorRow (op : Nat) (sub : BitVec 256 → Bool) (f : Bool → BitVec 256 → GroupFn) (core : Fin 4000) (ecc : Ecc)
    (s : State) : State :=
  let c := core.val
  engineRow c .vector (fun w => cOp w = op && sub w) (fun w s =>
    let uses := (vUses op).getD []
    let red := op = 0x50 || op = 0x51
    if vCount w = 0 then engineDone c .vector s
    else if !vInBounds w uses then engineFault c 1 fcStallBounds s
    else withEcc c 1 ecc s fun s =>
      let x := s.core c
      let k := if vOverlap w uses then some s.free else none
      let x' := (List.range (vCount w)).foldl (fun x g => vGroup (f x.det w) w uses red k g x) x
      let s := if k.isSome then { s with free := s.free + 4 * vCount w } else s
      engineDone c .vector (s.setCore c x')) s

/-! ### Lanes -/

/-- The result of the first `n` lanes of `sz` bytes each, and the flags they set. -/
def lanes (sz : Nat) (f : Nat → FRes) : Nat → Nat × Nat
  | 0 => (0, 0)
  | j + 1 =>
    let (v, fl) := lanes sz f j
    let r := f j
    (v + (r.code % 2 ^ (8 * sz)) <<< (8 * sz * j), fl ||| r.flags)

/-- 32-bit lane j. -/
def lane (v j : Nat) : Nat := bytesAt v (4 * j) 4

/-- FP32 value of lane j. -/
def flane (v j : Nat) : FVal := decodeFlt fp32 (lane v j)

def lanes2 (f : Nat → Nat → FRes) : GroupFn := fun a b _ _ => lanes 4 (fun j => f (lane a j) (lane b j)) 64

def flanes2 (f : Nat → FVal → FVal → FRes) : Bool → BitVec 256 → GroupFn := fun _ w a b _ _ =>
  lanes 4 (fun j => f (vRm w) (flane a j) (flane b j)) 64

/-- A bitwise or INT32 operation without flags. -/
def wlanes2 (f : W32 → W32 → W32) : Bool → BitVec 256 → GroupFn := fun _ _ =>
  lanes2 fun a b => { code := (f (BitVec.ofNat 32 a) (BitVec.ofNat 32 b)).toNat }

/-- An INT32 operation that wraps, or saturates with SAT (R62, R67). -/
def ilanes2 (f : Int → Int → Int) : Bool → BitVec 256 → GroupFn := fun _ w =>
  lanes2 fun a b =>
    let r := f (sint 32 a) (sint 32 b)
    if vSat w && decide (r < -2147483648) then { code := 0x80000000, flags := vfIntSat }
    else if vSat w && decide (r > 2147483647) then { code := 0x7FFFFFFF, flags := vfIntSat }
    else { code := (r % (2 ^ 32 : Int)).toNat }

/-- One level of VHSUM's tree: adjacent pairs are added (R68). -/
def pairLevel (rm : Nat) : List Nat → List Nat × Nat
  | a :: b :: t =>
    let r := add32 rm (decodeFlt fp32 a) (decodeFlt fp32 b)
    let (l, fl) := pairLevel rm t
    (r.code :: l, r.flags ||| fl)
  | l => (l, 0)

/-- The six levels of the tree. -/
def treeSum (rm : Nat) : Nat → List Nat → Nat → List Nat × Nat
  | 0, l, fl => (l, fl)
  | n + 1, l, fl =>
    let (l', f) := pairLevel rm l
    treeSum rm n l' (fl ||| f)

/-- Every subcommand of an opcode. -/
def anySub : BitVec 256 → Bool := fun _ => true

/-! ### The commands -/

def execVfadd (core : Fin 4000) (ecc : Ecc) (s : State) : Host.Outcome State Fault Refusal :=
  .next (vectorRow 0x01 anySub (flanes2 add32) core ecc s)

def execVfsub (core : Fin 4000) (ecc : Ecc) (s : State) : Host.Outcome State Fault Refusal :=
  .next (vectorRow 0x02 anySub (flanes2 fun rm a b => add32 rm a b.negate) core ecc s)

def execVfmul (core : Fin 4000) (ecc : Ecc) (s : State) : Host.Outcome State Fault Refusal :=
  .next (vectorRow 0x03 anySub (flanes2 mul32) core ecc s)

def execVfma (core : Fin 4000) (ecc : Ecc) (s : State) : Host.Outcome State Fault Refusal :=
  .next (vectorRow 0x04 anySub (fun _ w a b c _ => lanes 4 (fun j => fma32 (vRm w) (flane a j) (flane b j) (flane c j)) 64) core ecc s)

def execVfmin (core : Fin 4000) (ecc : Ecc) (s : State) : Host.Outcome State Fault Refusal :=
  .next (vectorRow 0x05 anySub (fun _ _ => lanes2 (minMax32 false)) core ecc s)

def execVfmax (core : Fin 4000) (ecc : Ecc) (s : State) : Host.Outcome State Fault Refusal :=
  .next (vectorRow 0x06 anySub (fun _ _ => lanes2 (minMax32 true)) core ecc s)

def execVmov (core : Fin 4000) (ecc : Ecc) (s : State) : Host.Outcome State Fault Refusal :=
  .next (vectorRow 0x08 anySub (fun _ _ a _ _ _ => (a, 0)) core ecc s)

def execViadd (core : Fin 4000) (ecc : Ecc) (s : State) : Host.Outcome State Fault Refusal :=
  .next (vectorRow 0x10 anySub (ilanes2 (· + ·)) core ecc s)

def execVisub (core : Fin 4000) (ecc : Ecc) (s : State) : Host.Outcome State Fault Refusal :=
  .next (vectorRow 0x11 anySub (ilanes2 (· - ·)) core ecc s)

def execVimul (core : Fin 4000) (ecc : Ecc) (s : State) : Host.Outcome State Fault Refusal :=
  .next (vectorRow 0x12 anySub (ilanes2 (· * ·)) core ecc s)

def execVimin (core : Fin 4000) (ecc : Ecc) (s : State) : Host.Outcome State Fault Refusal :=
  .next (vectorRow 0x13 anySub (wlanes2 fun a b => if a.slt b then a else b) core ecc s)

def execVimax (core : Fin 4000) (ecc : Ecc) (s : State) : Host.Outcome State Fault Refusal :=
  .next (vectorRow 0x14 anySub (wlanes2 fun a b => if a.slt b then b else a) core ecc s)

def execVand (core : Fin 4000) (ecc : Ecc) (s : State) : Host.Outcome State Fault Refusal :=
  .next (vectorRow 0x15 anySub (wlanes2 (· &&& ·)) core ecc s)

def execVor (core : Fin 4000) (ecc : Ecc) (s : State) : Host.Outcome State Fault Refusal :=
  .next (vectorRow 0x16 anySub (wlanes2 (· ||| ·)) core ecc s)

def execVxor (core : Fin 4000) (ecc : Ecc) (s : State) : Host.Outcome State Fault Refusal :=
  .next (vectorRow 0x17 anySub (wlanes2 (· ^^^ ·)) core ecc s)

def execVshl (core : Fin 4000) (ecc : Ecc) (s : State) : Host.Outcome State Fault Refusal :=
  .next (vectorRow 0x18 anySub (wlanes2 fun a b => a <<< (b.toNat % 32)) core ecc s)

def execVshr (core : Fin 4000) (ecc : Ecc) (s : State) : Host.Outcome State Fault Refusal :=
  .next (vectorRow 0x19 anySub (wlanes2 fun a b => a >>> (b.toNat % 32)) core ecc s)

def execVsra (core : Fin 4000) (ecc : Ecc) (s : State) : Host.Outcome State Fault Refusal :=
  .next (vectorRow 0x1A anySub (wlanes2 fun a b => a.sshiftRight (b.toNat % 32)) core ecc s)

def execVsel (core : Fin 4000) (ecc : Ecc) (s : State) : Host.Outcome State Fault Refusal :=
  .next (vectorRow 0x20 anySub (fun _ _ a b c _ => lanes 4 (fun j => { code := if lane c j ≠ 0 then lane a j else lane b j }) 64) core ecc s)

/-- VCVT (R70, R142). -/
def execVcvt (core : Fin 4000) (ecc : Ecc) (s : State) : Host.Outcome State Fault Refusal :=
  .next (vectorRow 0x30 anySub (fun _ w a _ _ _ =>
    let i := (vSizes w).1
    lanes (vSizes w).2 (fun j => vcvt (vImm w % 16) (bits (vImm w) 7 4) (vRm w) (bytesAt a (i * j) i)) 64) core ecc s)

def execRecip (core : Fin 4000) (ecc : Ecc) (s : State) : Host.Outcome State Fault Refusal :=
  .next (vectorRow 0x40 (fun w => vImm w = 0) (fun det w a _ _ _ => lanes 4 (fun j => vsf 0 (vRm w) det (lane a j)) 64) core ecc s)

def execRsqrt (core : Fin 4000) (ecc : Ecc) (s : State) : Host.Outcome State Fault Refusal :=
  .next (vectorRow 0x40 (fun w => vImm w = 1) (fun det w a _ _ _ => lanes 4 (fun j => vsf 1 (vRm w) det (lane a j)) 64) core ecc s)

def execSqrt (core : Fin 4000) (ecc : Ecc) (s : State) : Host.Outcome State Fault Refusal :=
  .next (vectorRow 0x40 (fun w => vImm w = 2) (fun det w a _ _ _ => lanes 4 (fun j => vsf 2 (vRm w) det (lane a j)) 64) core ecc s)

def execExp2 (core : Fin 4000) (ecc : Ecc) (s : State) : Host.Outcome State Fault Refusal :=
  .next (vectorRow 0x40 (fun w => vImm w = 3) (fun det w a _ _ _ => lanes 4 (fun j => vsf 3 (vRm w) det (lane a j)) 64) core ecc s)

def execLog2 (core : Fin 4000) (ecc : Ecc) (s : State) : Host.Outcome State Fault Refusal :=
  .next (vectorRow 0x40 (fun w => vImm w = 4) (fun det w a _ _ _ => lanes 4 (fun j => vsf 4 (vRm w) det (lane a j)) 64) core ecc s)

def execExp (core : Fin 4000) (ecc : Ecc) (s : State) : Host.Outcome State Fault Refusal :=
  .next (vectorRow 0x40 (fun w => vImm w = 5) (fun det w a _ _ _ => lanes 4 (fun j => vsf 5 (vRm w) det (lane a j)) 64) core ecc s)

def execLn (core : Fin 4000) (ecc : Ecc) (s : State) : Host.Outcome State Fault Refusal :=
  .next (vectorRow 0x40 (fun w => vImm w = 6) (fun det w a _ _ _ => lanes 4 (fun j => vsf 6 (vRm w) det (lane a j)) 64) core ecc s)

def execTanh (core : Fin 4000) (ecc : Ecc) (s : State) : Host.Outcome State Fault Refusal :=
  .next (vectorRow 0x40 (fun w => vImm w = 7) (fun det w a _ _ _ => lanes 4 (fun j => vsf 7 (vRm w) det (lane a j)) 64) core ecc s)

def execSigmoid (core : Fin 4000) (ecc : Ecc) (s : State) : Host.Outcome State Fault Refusal :=
  .next (vectorRow 0x40 (fun w => vImm w = 8) (fun det w a _ _ _ => lanes 4 (fun j => vsf 8 (vRm w) det (lane a j)) 64) core ecc s)

def execGelu (core : Fin 4000) (ecc : Ecc) (s : State) : Host.Outcome State Fault Refusal :=
  .next (vectorRow 0x40 (fun w => vImm w = 9) (fun det w a _ _ _ => lanes 4 (fun j => vsf 9 (vRm w) det (lane a j)) 64) core ecc s)

def execSin (core : Fin 4000) (ecc : Ecc) (s : State) : Host.Outcome State Fault Refusal :=
  .next (vectorRow 0x40 (fun w => vImm w = 10) (fun det w a _ _ _ => lanes 4 (fun j => vsf 10 (vRm w) det (lane a j)) 64) core ecc s)

def execCos (core : Fin 4000) (ecc : Ecc) (s : State) : Host.Outcome State Fault Refusal :=
  .next (vectorRow 0x40 (fun w => vImm w = 11) (fun det w a _ _ _ => lanes 4 (fun j => vsf 11 (vRm w) det (lane a j)) 64) core ecc s)

/-- VRSUM: VD = VD + A (R67). -/
def execVrsum (core : Fin 4000) (ecc : Ecc) (s : State) : Host.Outcome State Fault Refusal :=
  .next (vectorRow 0x50 anySub (fun _ w a _ _ d => lanes 4 (fun j => add32 (vRm w) (flane d j) (flane a j)) 64) core ecc s)

def execVrmax (core : Fin 4000) (ecc : Ecc) (s : State) : Host.Outcome State Fault Refusal :=
  .next (vectorRow 0x51 anySub (fun _ _ a _ _ d => lanes2 (minMax32 true) d a 0 0) core ecc s)

/-- VHSUM (R68): lane 0 takes the sum, the other lanes 0. -/
def execVhsum (core : Fin 4000) (ecc : Ecc) (s : State) : Host.Outcome State Fault Refusal :=
  .next (vectorRow 0x52 anySub (fun _ w a _ _ _ =>
    let (l, fl) := treeSum (vRm w) 6 ((List.range 64).map (lane a)) 0
    (l.headD 0 % 2 ^ 32, fl)) core ecc s)

end Sys2Proof.Machine
end

