-- ==== Sys2Proof/Machine/Dma.lean ====
section
/-!
DEFINITION. The DMA engine: COPY and its FILL form, and a write that its home refuses after it was accepted (R77 to R80,
R148, R509, R519).
-/
namespace Sys2Proof.Machine

/-- The rows of a COPY, in the terms of a queue agent's COPY. -/
def dmaRows (w : BitVec 256) : Rows :=
  { src := if dFill w then none else some (dSrc w), pattern := dSrc w, dst := dDst w, rowBytes := dRowBytes w,
    rows := dRows w, srcStride := dSrcStride w, dstStride := dDstStride w }

/-- Every stall address of the command lies below 0x10_0000 (R93). -/
def dmaInBounds (w : BitVec 256) : Bool :=
  (dFill w || dSrcCtx w || extent (dSrc w) (dSrcStride w) (dRows w) (dRowBytes w) ≤ stallSize) &&
  (dDstCtx w || extent (dDst w) (dDstStride w) (dRows w) (dRowBytes w) ≤ stallSize)

/-- Keeps the bytes of a source unit that a COPY has read and not yet written. -/
def setCarry (c : Nat) (b : Nat × Nat) (s : State) : State :=
  let x := s.core c
  if x.dma.carry = b then s else s.setCore c { x with dma := { x.dma with carry := b } }

/-- Reads n bytes of row i from offset o: their value, and the bytes past them that were read with them. An aligned 8-byte
unit of a context source is read at once (R165); the bytes of one that an earlier piece has begun come from there. A row
within one 32-byte half is a narrow access (R233). -/
def dmaRead (c : Nat) (w : BitVec 256) (i o n : Nat) (s : State) : Rng × (Nat × Nat) × State :=
  if dFill w then (.ok (patternBytes (dSrc w) o n), (0, 0), s)
  else
    let row := dSrc w + i * dSrcStride w
    let a := row + o
    if !dSrcCtx w then (.ok (mread (s.core c).stall a n), (0, 0), s)
    else
      let (k, kept) := (s.core c).dma.carry
      if n ≤ k then (.ok (kept % 2 ^ (8 * n)), (k - n, kept / 2 ^ (8 * n)), s)
      else
        let stop := min (8 * ((a + n + 7) / 8)) (row + dRowBytes w)
        let who := { whoCore s c .dma with narrow := row / 32 == (row + dRowBytes w - 1) / 32 }
        match readRange who .read (a + k) (stop - (a + k)) s with
        | (.ok v, s) =>
          let v := kept + v <<< (8 * k)
          (.ok (v % 2 ^ (8 * n)), (stop - (a + n), v / 2 ^ (8 * n)), s)
        | (r, s) => (r, (0, 0), s)

/-- Writes n bytes of row i from offset o; a write into stall memory clears the marks of its words (R148). A write to a tier
or an aperture is accepted once its request is out, and answered later (R79, R519). -/
def dmaWrite (c : Nat) (w : BitVec 256) (i o n v : Nat) (s : State) : Rng × State :=
  let a := dDst w + i * dDstStride w + o
  let who := whoCore s c .dma
  if !dDstCtx w then (.ok 0, s.setCore c (((s.core c).stallWrite a n v).setMarks a n false))
  else match xlate who a .write s with
  | .err cause _ => (.fault cause 0 a, s)
  | .wait => (.wait, s)
  | .ok x =>
    let s := seen who x s
    let k := s.core c
    let r := if x.target = 1 || x.target = 2 then writePiece who x n v s
      else postWrite false
        { cluster := who.cluster, ctx := who.ctx, part := who.part, va := a, pa := x.pa, seg := x.seg, gen := x.gen,
          stream := x.stream, target := x.target, len := n, val := v, eng := 3, core := c, link := some k.link,
          num := k.dma.issued } s
    match r with
    | (.ok r, s) => (.ok r, s)
    | (.wait, s) => (.wait, s)
    | (.fault cause d, s) => (.fault cause d a, s)

/-- Source and destination bytes overlap in one address space (R78). -/
def dmaOpen (w : BitVec 256) (i o n : Nat) : Bool :=
  !dFill w && dSrcCtx w == dDstCtx w &&
    ((dmaRows w).meetsSrc (dDst w + i * dDstStride w + o) n || (dmaRows w).meetsDst (dSrc w + i * dSrcStride w + o) n)

/-- Runs pieces up to row `stop`; the value of overlapping bytes is free (R78). -/
def dmaRun (c : Nat) (w : BitVec 256) (stop : Nat) : Nat → Nat → Nat → State → Run × State
  | 0, _, _, s => (.done, s)
  | fuel + 1, i, o, s =>
    if i ≥ stop then (if i ≥ dRows w then .done else .wait (i * 2 ^ 32), s)
    else if o ≥ dRowBytes w then dmaRun c w stop fuel (i + 1) 0 s
    else
      let n := min (dRowBytes w - o) (64 - (dDst w + i * dDstStride w + o) % 64)
      match dmaRead c w i o n s with
      | (.wait, _, t) => (.wait (i * 2 ^ 32 + o), t)
      | (.fault cause d va, _, t) => (.fault cause d va .read, t)
      | (.ok v, more, t) =>
        let isOpen := dmaOpen w i o n
        let v := if isOpen then (Config.freeLine t.free).toNat else v
        match dmaWrite c w i o n v (if isOpen then t.bump else t) with
        | (.wait, t) => (.wait (i * 2 ^ 32 + o), putBack (4 * c + 4) s t)
        | (.fault cause d va, t) => (.fault cause d va .write, t)
        | (.ok _, t) => dmaRun c w stop fuel i (o + n) (setCarry c more t)

/-- A granted COPY: its pieces go on from where they waited. During a shed pause it only finishes a row it has begun
(R509). -/
def dmaRow (fill : Bool) (core : Fin 4000) (ecc : Ecc) (media : MediaList) (s : State) : State :=
  let c := core.val
  { engineRow c .dma (fun w => dFill w == fill) (fun w s =>
    let pos := (s.core c).dma.pos
    let paused := decide (s.power.shed ≥ 4)
    if dRows w = 0 || dRowBytes w = 0 then (if paused then s else engineDone c .dma s)
    else if paused && pos % 2 ^ 32 = 0 then s
    else if !dmaInBounds w then engineFault c 3 fcStallBounds s
    else withEcc c 3 ecc s fun s =>
      let i := pos / 2 ^ 32
      match dmaRun c w (if paused then i + 1 else dRows w) (dRows w * (dRowBytes w + 1) + 1) i (pos % 2 ^ 32) s with
      | (.done, s) => engineDone c .dma s
      | (.wait pos, s) =>
        let x := s.core c
        s.setCore c { x with dma := { x.dma with pos } }
      | (.fault cause d va need, s) =>
        let (seg, pa) := whereIs s (s.core c).ctx va need
        engineFault c 3 cause s (va := some va) (pa := pa) (seg := seg) (detail := d)) { s with media } with media := [] }

/-- COPY (R78). -/
def execCopy (core : Fin 4000) (ecc : Ecc) (media : MediaList) (s : State) : Host.Outcome State Fault Refusal :=
  .next (dmaRow false core ecc media s)

/-- COPY with FILL (R78). -/
def execCopyFill (core : Fin 4000) (ecc : Ecc) (media : MediaList) (s : State) : Host.Outcome State Fault Refusal :=
  .next (dmaRow true core ecc media s)

/-- WRITE_REFUSAL (R519): the home refuses a write that the cluster cache of a core had accepted from its scalar (`dma` false)
or DMA engine. Of the writes still posted, the first of the engine to the line that the home refuses now is meant: it is
not made, and its own context faults, also when the core runs another launch. With none of them posted, it is a write of the
launch that the core runs. -/
def execWriteRefusal (core : Fin 4000) (dma : Bool) (addr : BitVec 48) (stream : Bool) (s : State) :
    Host.Outcome State Fault Refusal :=
  let c := core.val
  let x := s.core c
  let check (part : Fin 8) (ctx : Nat) : Option Nat :=
    homeRefusal { homeMsg .wrPartial addr.toNat stream with part, ctx := BitVec.ofNat 20 ctx } s
  let held := s.posted.find? fun e => e.2.cluster.isSome && e.2.core == c && e.2.eng == (if dma then 3 else 0) &&
    e.2.target == 0 && e.2.stream == stream && e.2.pa / 64 == addr.toNat / 64 && (check e.2.part e.2.ctx).isSome
  match held with
  | some (k, p) => .next (settleLaunches (postedFail p (homeCause ((check p.part p.ctx).getD 0)) 0 (postedDrop k s)))
  | none =>
    match check x.part x.ctx with
    | none => .next s
    | some st =>
      .next (if x.run then engineFault c (if dma then 3 else 0) (homeCause st) s (pa := some addr.toNat) else s)

end Sys2Proof.Machine
end

