-- ==== Sys2Proof/Machine/Matrix.lean ====
section
/-!
DEFINITION. The matrix array: MLOADW, MMAC, and the swatch check of its products (R94 to R110, R148, R151 to R155).
-/
namespace Sys2Proof.Machine

/-! ### Tiles (R95, R97, R100, R104, R105) -/

/-- The tile an MLOADW loads. -/
def loadTile (x : Core) (w : BitVec 256) : Tile :=
  let f := mFmtW w
  let k := mK w
  let m := mM w
  let row (i : Nat) : Nat := mread x.stall (mAddrW w + i * tilePitch f) (tilePitch f)
  { w := ((List.range k).map fun i => (List.range m).map fun j => (32 * i + j, packedAt f (row i) j)).flatten,
    s := if blockScaled f then (List.range m).map fun j => (j, (mget x.stall (mAddrSw w + j)).toNat) else [],
    k, m, fmt := f }

/-- The stationary value at row k and column m: its element and its block scale; zero outside the load. DESIGN CHOICE
(log 84): the tile is decoded by the format it was loaded with, also for an MMAC of another FMT, which R101 lets through
after an MLOADW that loads nothing. -/
def Tile.at (t : Tile) (k m : Nat) : FVal × Rat :=
  match kget (32 * k + m) t.w with
  | none => (.fin false 0, 1)
  | some code =>
    let sc := (kget m t.s).getD 0
    (elemArray t.fmt sc code, scaleVal t.fmt sc)

/-- wval: the value seen at reduction index k and column m. -/
def wval (t : Tile) (transpose : Bool) (k m : Nat) : FVal × Rat := if transpose then t.at m k else t.at k m

/-! ### Exact sums (R104, R108) -/

/-- A sum of products and an old value, with what is not finite. -/
structure ExSum where
  nan : Bool := false
  pos : Bool := false
  neg : Bool := false
  sum : Rat := 0
  deriving DecidableEq, Repr, Inhabited

/-- Adds a value to the sum. -/
def ExSum.add (e : ExSum) (v : FVal) : ExSum :=
  match v with
  | .nan _ => { e with nan := true }
  | .inf true => { e with neg := true }
  | .inf false => { e with pos := true }
  | .fin _ _ => { e with sum := e.sum + v.val }

/-- The exact product of two elements with their scales. -/
def exProduct (a : FVal) (sa : Rat) (w : FVal) (sw : Rat) : FVal :=
  let neg := a.neg? != w.neg?
  match a, w with
  | .nan _, _ => .nan false
  | _, .nan _ => .nan false
  | .inf _, .inf _ => .inf neg
  | .inf _, .fin _ v => if v = 0 then .nan false else .inf neg
  | .fin _ u, .inf _ => if u = 0 then .nan false else .inf neg
  | .fin _ u, .fin _ v => .fin neg (u * sa * (v * sw))

def ExSum.finite (e : ExSum) : Bool := !e.nan && !e.pos && !e.neg

/-- A result written to an accumulator and whether it saturated. -/
abbrev AccRes := Nat × Bool

/-- accumulate for INT32 accumulators (R107). A sum that is not finite has no stated result: free. -/
def accInt (old : Nat) (e : ExSum) (k : Nat) : AccRes :=
  if !e.finite then ((Config.free32 k).toNat, Config.freeBool k)
  else
    let v := (sint 32 old : Rat) + e.sum
    let r := (roundStep 0 (decide (v < 0)) (rabs v) 1).floor
    let r := if v < 0 then -r else r
    if r < -2147483648 then (0x80000000, true)
    else if r > 2147483647 then (0x7FFFFFFF, true)
    else ((r % (2 ^ 32 : Int)).toNat, false)

/-- accumulate for FP32 accumulators (R108). -/
def accFloat (old : Nat) (e : ExSum) : AccRes :=
  let e := e.add (decodeFlt fp32 old)
  if e.nan || (e.pos && e.neg) then (nan32, false)
  else if e.pos then (fp32.infCode false, false)
  else if e.neg then (fp32.infCode true, false)
  else if e.sum = 0 then (0, false)
  else
    let r := roundFlt fp32 0 true (decide (e.sum < 0)) (rabs e.sum)
    (r.code, r.flags &&& vfOverflow ≠ 0)

/-! ### MMAC (R104, R109, R148) -/

/-- Streamed value k of a vector held in `v`, under scale byte `sc`. -/
def streamed (f v sc k : Nat) : FVal × Rat := (elemArray f sc (packedAt f v k), scaleVal f sc)

/-- d of R104 for one column. -/
def dotColumn (t : Tile) (w : BitVec 256) (v sc m : Nat) : ExSum :=
  (List.range (mK w)).foldl (fun e k =>
    let (a, sa) := streamed (mFmtA w) v sc k
    let (b, sb) := wval t (mTranspose w) k m
    e.add (exProduct a sa b sb)) {}

/-- The scale byte of vector n. -/
def vecScale (x : Core) (w : BitVec 256) (n : Nat) : Nat :=
  if blockScaled (mFmtA w) then (mget x.stall (mAddrSa w + n)).toNat else 0

/-- The bytes of vector n. -/
def vecBytes (x : Core) (w : BitVec 256) (n : Nat) : Nat :=
  mread x.stall (mAddrA w + n * mStrA w) (packedBytes (mFmtA w) (mK w))

/-- Marks of the words of an accumulator row: set where an element saturated, cleared by CLEAR where none did. -/
def rowMarks (x : Core) (a : Nat) (clear : Bool) (sats : List Bool) : Core :=
  let words := (List.range ((a + 4 * sats.length - 1) / 32 - a / 32 + 1)).map (a / 32 + ·)
  let one (m : KV Bool) (wd : Nat) : KV Bool :=
    if (List.range sats.length).any fun i => sats.getD i false && decide ((a + 4 * i) / 32 = wd) then kset wd true m
    else if clear then kdel wd m else m
  { x with marks := words.foldl one x.marks }

/-- Vector n against the active tile: its accumulator row is written. Where R103 leaves the values open (`isOpen`) they
are free; k is the free-value number of the command. -/
def mmacVector (w : BitVec 256) (isOpen : Bool) (k n : Nat) (x : Core) : Core :=
  let v := vecBytes x w n
  let sc := vecScale x w n
  let a := mAddrAcc w + n * mStrAcc w
  let res : List AccRes := (List.range (mM w)).map fun m =>
    if isOpen then ((Config.free32 (k + 32 * n + m)).toNat, Config.freeBool (k + 32 * n + m))
    else
      let old := if mClear w then 0 else mread x.stall (a + 4 * m) 4
      let e := dotColumn x.active w v sc m
      if intAcc (mFmtA w) then accInt old e (k + 32 * n + m) else accFloat old e
  let row := res.foldr (fun r acc => r.1 % 2 ^ 32 + 2 ^ 32 * acc) 0
  let sats := res.map (·.2)
  (rowMarks (x.stallWrite a (4 * mM w) row) a (mClear w) sats).setAccSat (sats.any id)

/-- Accumulator rows overlap the streamed vectors or scales (R103). -/
def mmacOverlap (w : BitVec 256) : Bool :=
  let rows := List.range (mN w)
  rows.any fun i =>
    let a := mAddrAcc w + i * mStrAcc w
    (blockScaled (mFmtA w) && overlaps a (4 * mM w) (mAddrSa w) (mN w)) ||
    rows.any fun j => overlaps a (4 * mM w) (mAddrA w + j * mStrA w) (packedBytes (mFmtA w) (mK w))

/-! ### Swatch selection (R151, R155) -/

/-- RATE in effect on core c: 0 off, else 1 in 2^(5 + RATE). -/
def swatchRate (c : Nat) (s : State) : Nat :=
  if suspect s c then 1 else bits (s.reg (ptBase (s.core c).part.val + 0x200) 5) 2 0

/-- The check of vector n at column m (R152): its operands, and the array's exact sum. -/
def swatchOf (x : Core) (w : BitVec 256) (n m : Nat) : Swatch :=
  let v := vecBytes x w n
  let sc := vecScale x w n
  let e := dotColumn x.active w v sc m
  let a := (List.range (mK w)).map fun k => streamed (mFmtA w) v sc k
  let b := (List.range (mK w)).map fun k => wval x.active (mTranspose w) k m
  let fin (l : List (FVal × Rat)) : Bool := l.all fun p => match p.1 with
    | .fin _ _ => true
    | _ => false
  { n, m, a := a.map fun p => p.1.val * p.2, w := b.map fun p => p.1.val * p.2, d := e.sum,
    finite := e.finite && fin a && fin b }

/-- Each streamed vector is selected, or not, by hardware entropy (R151): whether it is checked, which also depends on
whether the check before it has ended, and its column are free. -/
def swatchPick (c : Nat) (w : BitVec 256) (s : State) : State :=
  let x := s.core c
  if swatchRate c s = 0 then s
  else
    let k := s.free
    let picks := ((List.range (mN w)).filter fun n => Config.freeBool (k + n)).map fun n =>
      swatchOf x w n ((Config.free64 (k + n)).toNat % mM w)
    { s.setCore c { x with swatch := x.swatch ++ picks } with free := k + mN w }

/-! ### The commands -/

/-- MLOADW (R95, R104, R113): the shadow tile is loaded and armed. -/
def execMloadw (core : Fin 4000) (ecc : Ecc) (s : State) : Host.Outcome State Fault Refusal :=
  let c := core.val
  .next (engineRow c .matrix (fun w => cOp w = 1) (fun w s =>
    if mEmpty w then engineDone c .matrix s
    else withEcc c 2 ecc s fun s =>
      let x := s.core c
      engineDone c .matrix (s.setCore c { x with shadow := loadTile x w, armed := true })) s)

/-- MMAC (R104): an armed shadow tile becomes active, and N vectors stream past it. -/
def execMmac (core : Fin 4000) (ecc : Ecc) (s : State) : Host.Outcome State Fault Refusal :=
  let c := core.val
  .next (engineRow c .matrix (fun w => cOp w = 2) (fun w s =>
    if mEmpty w then engineDone c .matrix s
    else withEcc c 2 ecc s fun s =>
      let x := s.core c
      let x := if x.armed then { x with active := x.shadow, armed := false } else x
      let s := swatchPick c w (s.setCore c x)
      let x := (List.range (mN w)).foldl (fun x n => mmacVector w (mmacOverlap w) s.free n x) (s.core c)
      engineDone c .matrix ({ s with free := s.free + 32 * mN w }.setCore c x)) s)

/-- The recomputation of R152: r and s as FP32 codes. -/
def recompute : List Rat → List Rat → Nat → Nat → Nat × Nat
  | a :: ta, w :: tw, r, t =>
    let f (q : Rat) : FVal := decodeFlt fp32 (round32 0 q false).code
    recompute ta tw (fma32 0 (f a) (f w) (decodeFlt fp32 r)).code
      (fma32 0 (f (rabs a)) (f (rabs w)) (decodeFlt fp32 t)).code
  | _, _, r, t => (r, t)

/-- An FP32 code reads as a finite value. -/
def finite32 (code : Nat) : Option Rat :=
  match decodeFlt fp32 code with
  | .fin n a => some (if n then -a else a)
  | _ => none

/-- Every operand and product of a check is finite in FP32. -/
def swatchFinite (w : Swatch) : Bool :=
  let ok (q : Rat) : Bool := (finite32 (round32 0 q false).code).isSome
  w.finite && (w.a.zip w.w).all fun p => ok p.1 && ok p.2 && ok (p.1 * p.2)

/-- Adds a completed or abandoned check (R156, R316). -/
def swatchCount (c : Nat) (done : Bool) (s : State) : State :=
  let x := s.core c
  let s := s.setCore c { x with swatch := x.swatch.drop 1, swDone := if done then (x.swDone + 1) % 2 ^ 48 else x.swDone,
                                swAband := if done then x.swAband else satAdd 16 x.swAband 1 }
  match done, kget x.link s.launches with
  | true, some l => { s with launches := kset x.link { l with swatch := l.swatch + 1 } s.launches }
  | _, _ => s

/-- A mismatch (R154, R155): the core faults, and a strike is recorded; the second one within the window retires the
core. -/
def swatchMismatch (c : Nat) (w : Swatch) (d r : Nat) (s : State) : State :=
  let s := engineFault c 1 fcSwatch s (detail := put 0 32 w.n + put 32 8 w.m + put 64 32 d + put 96 32 r)
  let s := addRecord { kind := 8, source := 2, unit := coreCluster c, slot := slotOf s c } s
  if (strikesOf s (coreCluster c) (slotOf s c)).length ≥ 2 then dueRetire c 2 s else s

/-- The test of R152 on the codes of d, r and s, in FP32 (DEDUCED, log 83: the difference is one FP32 subtraction and the
bound one fused multiply-add, as the rule says of its arithmetic); none when a value is not finite. -/
def swatchDiffers (d r t : Nat) : Option Bool :=
  let f (v : Nat) : FVal := decodeFlt fp32 v
  let one : FVal := .fin false 1
  let diff := (fma32 0 (f d) one (f (r ^^^ 2 ^ 31))).code % 2 ^ 31
  let bound := (fma32 0 (.fin false (p2 (-18))) (f t) (.fin false (p2 (-126)))).code
  match finite32 d, finite32 r, finite32 t, finite32 diff, finite32 bound with
  | some _, some _, some _, some x, some b => some (decide (b < x))
  | _, _, _, _, _ => none

/-- SWATCH_CHECK (R152). `sum` is what a faulty array's sum reads in FP32, where the hardware is at fault. -/
def execSwatchCheck (core : Fin 4000) (sum : Option (BitVec 32)) (s : State) : Host.Outcome State Fault Refusal :=
  let c := core.val
  match (s.core c).swatch with
  | [] => .next s
  | w :: _ =>
    if !swatchFinite w then .next (swatchCount c false s)
    else
      let (r, t) := recompute w.a w.w 0 0
      let d := match sum with
        | some v => v.toNat
        | none => (round32 0 w.d false).code
      match swatchDiffers d r t with
      | some differs =>
        let s := swatchCount c true s
        if differs then .next (swatchMismatch c w d r s) else .next s
      | none => .next (swatchCount c false s)

end Sys2Proof.Machine
end

