-- ==== Sys2Proof/Machine/Quant.lean ====
section
/-!
DEFINITION. The quantizing store VQUANT with its census, and the dequantizing load VDEQ (R122 to R150, R160, R315, R522).
-/
namespace Sys2Proof.Machine

/-! ### Sizes and ladders (R128, R143) -/

/-- Bytes of a tagged tile: header, element rows, block scales. -/
def tileSize (f rows : Nat) : Nat := 32 + (rows * tilePitch f + 31) / 32 * 32 + (if blockScaled f then 32 else 0)

/-- Address of the scale part from the header. -/
def scalePart (f rows : Nat) : Nat := 32 + (rows * tilePitch f + 31) / 32 * 32

/-- The next format of the escalation ladder. -/
def ladderNext : Nat → Option Nat
  | 4 => some 5
  | 5 => some 0
  | 0 => some 3
  | 6 => some 8
  | 8 => some 1
  | 1 => some 3
  | 7 => some 1
  | 9 => some 11
  | 11 => some 12
  | 12 => some 3
  | 10 => some 12
  | 14 => some 3
  | 13 => some 3
  | 2 => some 3
  | _ => none

/-- The formats a tile can be stored in: the requested one and up to `n` steps of its ladder. -/
def reach (f : Nat) : Nat → List Nat
  | 0 => [f]
  | n + 1 => f :: (match ladderNext f with
    | some g => reach g n
    | none => [])

/-! ### Rounding (R140, R141) -/

def mix64 (z : Nat) : Nat :=
  let m := 2 ^ 64
  let z := (z ^^^ (z >>> 30)) * 0xBF58476D1CE4E5B9 % m
  let z := (z ^^^ (z >>> 27)) * 0x94D049BB133111EB % m
  z ^^^ (z >>> 31)

/-- rbits of element j; 16 bits in BP1, else 24. -/
def rbits (seed tx ty tz fmt j : Nat) (bp1 : Bool) : Nat :=
  let h := mix64 (seed ^^^ 0x6A09E667F3BCC909)
  let h := mix64 (h ^^^ (tx ||| (ty <<< 32)))
  let h := mix64 (h ^^^ ((tz ||| (fmt <<< 32) ||| (j <<< 40)) % 2 ^ 64))
  if bp1 then h >>> 48 else h >>> 40

/-- lo and hi of R140 for a magnitude within the range. -/
def neighbours (f : Nat) (tern : Bool) (a : Rat) : Rat × Rat :=
  match fltOf f with
  | some k =>
    let st := if a = 0 then k.step k.minNormal else k.step a
    let lo := ((a / st).floor : Rat) * st
    (lo, lo + st)
  | none =>
    if f = 4 then (if tern then (if a < 1 then (0, 1) else (1, 2)) else if a < 3 / 2 then (1 / 2, 3 / 2) else (3 / 2, 5 / 2))
    else
      let u := elemUnit f 0
      let lo := ((a / u).floor : Rat) * u
      (lo, lo + u)

/-- round(fmt, w) of a magnitude; `rb` is the element's rounding bits, none for SR = 0. -/
def roundElem (f : Nat) (tern : Bool) (a : Rat) (rb : Option Nat) (bp1 : Bool) : Rat :=
  if f = 4 && !tern && a < 1 / 2 then 1 / 2
  else
    let (lo, hi) := neighbours f tern a
    if lo = a then a
    else match rb with
      | some r => if (r : Rat) * (hi - lo) < (a - lo) * ((2 ^ (if bp1 then 16 else 24) : Nat) : Rat) then hi else lo
      | none =>
        if a - lo < hi - a then lo
        else if hi - a < a - lo then hi
        else if f = 4 then lo
        else if (lo / (hi - lo)).floor % 2 = 0 then lo else hi

/-- The code of a representable magnitude with a sign; zero is stored as +0 (R138). -/
def elemCode (f : Nat) (tern neg : Bool) (a : Rat) : Nat :=
  match fltOf f with
  | some k => encodeFlt k (neg && decide (a ≠ 0)) a
  | none =>
    if f = 4 then
      if tern then (if a = 0 then 0 else if neg then 3 else 1)
      else (if a = 1 / 2 then 0 else 1) + (if neg then 2 else 0)
    else
      let v := (a / elemUnit f 0).floor
      ((if neg then -v else v) % ((2 ^ fmtBits f : Nat) : Int)).toNat

/-! ### Block scales (R127, R137) -/

/-- The e5m3 code of a K block scale. -/
def kScaleCode (t : Rat) (bp1 : Bool) : Nat :=
  match (List.range 127).find? (fun i => t ≤ e5m3 (i + 1)) with
  | none => 0x7F
  | some i =>
    let c := i + 1
    if !bp1 || c = 1 then c
    else
      let lo := t - e5m3 (c - 1)
      let hi := e5m3 c - t
      if lo < hi then c - 1 else if hi < lo then c else if c % 2 = 0 then c else c - 1

/-- emax of an MX format. -/
def mxEmax : Nat → Int
  | 12 => 8
  | 13 => 15
  | 10 => 4
  | 9 | 11 => 2
  | _ => 0

/-- Scale code of a block. -/
def blockScale (f : Nat) (tern bp1 : Bool) (bmax : Rat) : Nat :=
  let b7 := if f = 4 && tern then 0x80 else 0
  if isK f then (if bmax = 0 then b7 else kScaleCode (bmax / fmaxOf f tern) bp1 + b7)
  else if isMx f then
    (if bmax = 0 then 0 else (max (-127) (min 127 (ilog2 bmax - mxEmax f)) + 127).toNat)
  else 0

/-! ### One attempt (R136, R138) -/

/-- What a command and its policy register ask for. -/
structure QReq where
  req : Nat
  rows : Nat
  col : Bool
  tern : Bool
  esc : Bool
  sr : Bool
  clipLimit : Nat
  flushLimit : Nat
  rescaleLimit : Nat
  escMax : Nat
  supplied : Option Rat
  seed : Nat
  user : Nat
  bp1 : Bool
  deriving DecidableEq, Repr, Inhabited

/-- One attempt. -/
structure Attempt where
  fmt : Nat
  tern : Bool
  st : Rat
  codes : List Nat
  scales : List Nat
  clip : Nat
  flush : Nat
  rescale : Nat
  deriving DecidableEq, Repr, Inhabited

/-- element of R138: code, clipped, flushed. DESIGN CHOICE (log 85): the K2 symmetric set has no 0, and the 0 that R138
stores for a NaN is code 0b00 there, which reads as +0.5 times the scale. -/
def element (f : Nat) (tern : Bool) (y : FVal) (s : Rat) (rb : Option Nat) (bp1 : Bool) : Nat × Bool × Bool :=
  match y with
  | .nan _ => (if f = 1 then 0x7F else if f = 2 then 0x7E else if f = 3 then 0x7FC0 else 0, true, false)
  | .inf n =>
    if f = 2 then (e5m2.infCode n, false, false)
    else if f = 3 then (bf16.infCode n, false, false)
    else (elemCode f tern n (fmaxOf f tern), true, false)
  | .fin n a =>
    if s = 0 then (0, false, false)
    else
      let w := a / s
      if w > fmaxOf f tern then (elemCode f tern n (fmaxOf f tern), true, false)
      else
        let r := roundElem f tern w rb bp1
        (elemCode f tern (n && decide (a ≠ 0)) r, false,
          decide (a ≠ 0) && (decide (r = 0) || (f = 4 && !tern && decide (w < 1 / 4))))

/-- The largest finite magnitude of a list. -/
def maxMag (l : List FVal) : Rat := l.foldl (fun m v => match v with
  | .fin _ a => if m < a then a else m
  | _ => m) 0

/-- Element numbers of the blocks of a layout. -/
def blocksOf (f rows : Nat) (col : Bool) : List (List Nat) :=
  if !blockScaled f then [List.range (32 * rows)]
  else if col then (List.range 32).map fun m => (List.range rows).map fun r => 32 * r + m
  else (List.range rows).map fun r => (List.range 32).map fun m => 32 * r + m

/-- The block of an element. -/
def qBlockOf (f : Nat) (col : Bool) (j : Nat) : Nat := if !blockScaled f then 0 else if col then j % 32 else j / 32

/-- quantize of R136. DEDUCED (log 86): R127 says that MX elements round to nearest even and R140 that SR = 1 rounds
stochastically; an MX tile with SR = 1 rounds stochastically. -/
def quantize (q : QReq) (x : List FVal) (f tx ty tz : Nat) : Attempt :=
  let tern := q.tern && f = 4
  let amax := maxMag x
  let st : Rat := match q.supplied with
    | some v => v
    | none =>
      if isMx f || amax = 0 then 1
      else
        let r := amax / fmaxOf f tern
        let e := ilog2 r
        p2 (max (-126) (min 127 (if p2 e < r then e + 1 else e)))
  let y : List FVal := x.map fun v => match v with
    | .fin n a => .fin n (a / st)
    | v => v
  let maxes := (blocksOf f q.rows q.col).map fun b => maxMag (b.map fun j => y.getD j (.fin false 0))
  let scales := maxes.map fun m => blockScale f tern q.bp1 m
  let vals := scales.map (scaleVal f)
  let el := (List.range x.length).map fun j =>
    element f tern (y.getD j (.fin false 0)) (vals.getD (qBlockOf f q.col j) 1)
      (if q.sr then some (rbits q.seed tx ty tz f j q.bp1) else none) q.bp1
  let used := ((maxes.zip vals).filter fun p => p.1 > 0).map fun p => ilog2 p.2
  let top := used.foldl max (used.headD 0)
  let low := used.foldl min (used.headD 0)
  { fmt := f, tern, st, codes := el.map (·.1), scales := if blockScaled f then scales else [],
    clip := (el.filter (·.2.1)).length, flush := (el.filter (·.2.2)).length, rescale := min 255 (top - low).toNat }

/-- The attempt exceeds a limit (R133). -/
def Attempt.exceeds (t : Attempt) (q : QReq) : Bool :=
  t.clip > q.clipLimit || t.flush > q.flushLimit || t.rescale > q.rescaleLimit

/-- The attempts of a tile, in order (R136, R144). -/
def attempts (q : QReq) (x : List FVal) (tx ty tz : Nat) : Nat → Nat → List Attempt
  | steps, f =>
    let t := quantize q x f tx ty tz
    match steps, ladderNext f with
    | n + 1, some g => if t.exceeds q && q.esc then t :: attempts q x tx ty tz n g else [t]
    | _, _ => [t]

/-! ### The stored tile and the census record (R128, R129, R146) -/

/-- Packs codes of `w` bits. -/
def pack (w : Nat) : List Nat → Nat
  | [] => 0
  | c :: t => c % 2 ^ w + 2 ^ w * pack w t

/-- FP32 code of a positive value that FP32 holds. -/
def fp32Code (q : Rat) : Nat := (round32 0 q false).code

/-- The header of a tagged tile (R129). DESIGN CHOICE (log 87): the bytes of the element part after the last row, up to
ceil32(ROWS × P), of which R128 says nothing, are written as 0 with the tile. -/
def tileWord (q : QReq) (l : List Attempt) (t : Attempt) (sat nan : Bool) (seq : Nat) : Nat :=
  let steps := l.length - 1
  put 0 4 t.fmt + put 4 1 (b2n t.tern) + put 5 1 (b2n (q.col && blockScaled t.fmt)) + put 6 1 (b2n (steps ≠ 0)) +
  put 7 1 (b2n sat) + put 8 8 q.rows + put 16 4 q.req + put 20 2 steps + put 22 1 (b2n (t.exceeds q)) +
  put 23 1 (b2n nan) + put 24 8 t.rescale + put 32 32 (fp32Code t.st) + put 64 16 t.clip + put 80 16 t.flush +
  put 96 32 seq + (pack (fmtBits t.fmt) t.codes) <<< 256 + (pack 8 t.scales) <<< (8 * scalePart t.fmt q.rows)

def censusWord (q : QReq) (l : List Attempt) (t : Attempt) (sat nan det : Bool) (seq index core tx ty tz : Nat) : Nat :=
  let flags := b2n (l.length > 1) + 2 * b2n (t.exceeds q) + 4 * b2n sat + 8 * b2n nan + 16 * b2n q.tern + 32 * b2n q.sr +
    64 * b2n q.supplied.isSome + 128 * b2n det
  let entry (a : Attempt) : Nat := put 0 4 a.fmt + put 8 8 a.rescale + put 16 16 a.clip + put 32 16 a.flush
  put 0 32 seq + put 32 16 index + put 48 16 core + put 64 32 tx + put 96 32 ty + put 128 32 tz + put 160 32 q.user +
  put 192 32 (fp32Code t.st) + put 224 4 q.req + put 228 4 t.fmt + put 232 8 flags + put 240 8 l.length +
  (pack 64 (l.map entry)) <<< 256

/-! ### VQUANT (R132 to R136, R139, R147) -/

/-- An FP32 code that is positive, finite and normal (R126). -/
def tileScaleOf (code : Nat) : Option Rat :=
  match decodeFlt fp32 code with
  | .fin false a => if a < fp32.minNormal then none else some a
  | _ => none

/-- The request of a command under its policy register; none where R134 refuses it. -/
def quantReq (w : BitVec 256) (pol profile : Nat) : Option QReq :=
  let imm := vImm w
  let ctl := lane pol 3
  let supplied := bit ctl 2
  let st := tileScaleOf (lane pol 4)
  if ctl ≥ 8 || pol >>> (32 * 11) ≠ 0 || (if supplied then st.isNone else decide (lane pol 4 ≠ 0)) then none
  else some {
    req := imm % 16, rows := bits imm 8 4 + 1, col := bit imm 9, tern := bit imm 10, esc := bit imm 11, sr := bit imm 12,
    clipLimit := lane pol 0, flushLimit := lane pol 1, rescaleLimit := lane pol 2, escMax := ctl % 4,
    supplied := if supplied then st else none, seed := lane pol 5 + 2 ^ 32 * lane pol 6, user := lane pol 10,
    bp1 := decide (profile = 1) }

/-- The largest tile the command can store (R135). -/
def widest (q : QReq) : Nat := (reach q.req (if q.esc then q.escMax else 0)).foldl (fun m f => max m (tileSize f q.rows)) 0

/-- A census record goes to the launch's census area (R147, R315); a failed write is a fault of engine 7 (R522). -/
def censusPut (c : Nat) (word : Nat) (s : State) : State :=
  let key := (s.core c).link
  match kget key s.launches with
  | none => s
  | some l =>
    if l.written < l.censusBytes / 64 then
      let a := l.census + 64 * l.written
      match ctxWrite l.ctx a 64 word s (link := some key) with
      | (none, s) => { s with launches := kset key { l with written := l.written + 1 } s.launches }
      | (some cause, s) =>
        vaFault l.ctx 7 cause a .write 0 { s with launches := kset key { l with badWrite := true } s.launches }
    else { s with launches := kset key { l with dropped := l.dropped + 1 } s.launches }

/-- Tile i of a VQUANT. `k` gives free source values where source and destination overlap. -/
def quantTile (c : Nat) (w : BitVec 256) (q : QReq) (pol : Nat) (k : Option Nat) (i : Nat) (s : State) : State :=
  let x := s.core c
  if !x.run then s
  else
    let a := vAddr w 0 + 32 * vStr w 0 * i
    let d := vAddrD w + 32 * vStrD w * i
    let src := (List.range (32 * q.rows)).map fun j => decodeFlt fp32 (match k with
      | some k => (Config.free32 (k + 1024 * i + j)).toNat
      | none => mread x.stall (a + 4 * j) 4)
    let tx := (lane pol 7 + i) % 2 ^ 32
    let ty := lane pol 8
    let tz := lane pol 9
    let l := attempts q src tx ty tz q.escMax q.req
    let t := l.getLastD default
    let marked := x.anyMark a (128 * q.rows)
    let nan := src.any (·.isNan)
    let n := tileSize t.fmt q.rows
    let pm := (kget (vReg w 1) x.vmarks).isSome
    let word := censusWord q l t marked nan x.det x.seq x.index c tx ty tz
    let x' := (x.stallWrite d n (tileWord q l t marked nan x.seq)).setMarks d n (marked || pm)
    censusPut c word (s.setCore c { x' with seq := x.seq + 1 })

/-- VQUANT. -/
def execVquant (core : Fin 4000) (ecc : Ecc) (s : State) : Host.Outcome State Fault Refusal :=
  let c := core.val
  .next (engineRow c .vector (fun w => cOp w = 0x60) (fun w s =>
    let pol := ((s.core c).vget (vReg w 1)).toNat
    match quantReq w pol s.fuse.profile with
    | none => engineFault c 1 fcCommandInvalid s
    | some q =>
      let n := vCount w
      let size := widest q
      if n = 0 then engineDone c .vector s
      else if 32 * vStrD w < size then engineFault c 1 fcCommandInvalid s
      else if extent (vAddr w 0) (32 * vStr w 0) n (128 * q.rows) > stallSize ||
          extent (vAddrD w) (32 * vStrD w) n size > stallSize then engineFault c 1 fcStallBounds s
      else withEcc c 1 ecc s fun s =>
        let tiles := List.range n
        let isOpen := tiles.any fun i => tiles.any fun j =>
          overlaps (vAddr w 0 + 32 * vStr w 0 * i) (128 * q.rows) (vAddrD w + 32 * vStrD w * j) size
        let k := if isOpen then some s.free else none
        let s := if isOpen then { s with free := s.free + 1024 * n } else s
        engineDone c .vector (foldS tiles (quantTile c w q pol k) s)) s)

/-! ### VDEQ (R149, R150) -/

/-- One output element: FP32 code and flags. -/
def deqElement (f sc code : Nat) (ts : Rat) : FRes :=
  let s := scaleVal f sc
  if s = 0 then { code := 0 }
  else match elemReal f sc code with
    | .nan sig => nanRes sig
    | .inf n => { code := fp32.infCode n }
    | .fin n a => if a = 0 then { code := fp32.signBit n } else roundFlt fp32 0 false n (a * s * ts)

/-- The header keeps R126 and R129: format, layout, rows, tile scale. -/
def headerOf (h : Nat) : Option (Nat × Bool × Nat × Rat) :=
  let f := bits h 3 0
  let col := bit h 5
  let rows := bits h 15 8
  match tileScaleOf (bits h 63 32) with
  | none => none
  | some ts => if f = 15 || rows = 0 || rows > 32 || (col && !blockScaled f) || bits h 255 128 ≠ 0 then none
    else some (f, col, rows, ts)

/-- Tiles from number i; `outs` are the outputs written so far. -/
def deqRun (c : Nat) (w : BitVec 256) : Nat → Nat → List (Nat × Nat) → State → State
  | 0, _, _, s => engineDone c .vector s
  | fuel + 1, i, outs, s =>
    let x := s.core c
    let a := vAddr w 0 + 32 * vStr w 0 * i
    let d := vAddrD w + 32 * vStrD w * i
    if a + 32 > stallSize then engineFault c 1 fcStallBounds s
    else match headerOf (mread x.stall a 32) with
      | none => engineFault c 1 fcTileHeader s
      | some (f, col, rows, ts) =>
        let size := tileSize f rows
        let n := 128 * rows
        if a + size > stallSize || d + n > stallSize then engineFault c 1 fcStallBounds s
        else
          let same := vAddr w 0 = vAddrD w && vStr w 0 = vStrD w
          let isOpen := !same && ((d, n) :: outs).any fun o => overlaps a size o.1 o.2
          let ts := if bit (vImm w) 0 then 1 else ts
          let row (r : Nat) : Nat := mread x.stall (a + 32 + r * tilePitch f) (tilePitch f)
          let scaleAt (r m : Nat) : Nat :=
            if blockScaled f then (mget x.stall (a + scalePart f rows + (if col then m else r))).toNat else 0
          let (v, flags) := lanes 4 (fun j =>
            if isOpen then
              { code := (Config.free32 (s.free + j)).toNat, flags := (Config.free32 (s.free + 1024 + j)).toNat % 32 }
            else deqElement f (scaleAt (j / 32) (j % 32)) (packedAt f (row (j / 32)) (j % 32)) ts) (32 * rows)
          let mark := bit (mread x.stall a 1) 7 || x.anyMark a size
          let x := ((x.stallWrite d n v).setMarks d n mark).setVflags flags
          deqRun c w fuel (i + 1) ((d, n) :: outs)
            ((if isOpen then { s with free := s.free + 2048 } else s).setCore c x)

/-- VDEQ. -/
def execVdeq (core : Fin 4000) (ecc : Ecc) (s : State) : Host.Outcome State Fault Refusal :=
  let c := core.val
  .next (engineRow c .vector (fun w => cOp w = 0x61) (fun w s =>
    if vCount w = 0 then engineDone c .vector s
    else withEcc c 1 ecc s fun s => deqRun c w (vCount w) 0 [] s) s)

end Sys2Proof.Machine
end

