-- ==== Sys2Proof/Machine/Regs.lean ====
section
/-!
DEFINITION. The register map: what a read of a register returns, what a write does by its field types, and the SMB commands
(R9 to R12, R39, R279 to R282, R295, R300, R350, R513, and the register tables of every chapter).
-/
namespace Sys2Proof.Machine

/-! ### Reads -/

/-- A register: whether it is 64 bits wide, and what it reads. -/
abbrev RegVal := Bool × Nat

def r32 (v : Nat) : Option RegVal := some (false, v % 2 ^ 32)
def r64 (v : Nat) : Option RegVal := some (true, v % 2 ^ 64)

def running (d : Nat) (s : State) : Nat := b2n (s.clock d).running

/-- One bit for each domain of a list, lowest first. -/
def runningBits (l : List Nat) (s : State) : Nat := l.foldr (fun d v => running d s + 2 * v) 0

/-- HUB_CLK_LOCK: the live state of every clock. -/
def clkLock (s : State) : Nat :=
  runningBits ((List.range 8).map (0x10 + ·) ++ [2, 3, 1] ++ (List.range 32).map (0x20 + ·) ++ (List.range 8).map (0x40 + ·) ++
    (List.range 4).map (0x50 + ·) ++ (List.range 4).map (0x60 + ·)) s

def resetStatus (s : State) : Nat :=
  let x := s.rst
  put 0 4 x.lastKind + put 4 4 x.warmSource + put 8 1 (b2n x.inProgress) + put 9 1 (b2n x.deferred.isSome) +
    put 16 16 x.warmCount

def variantWord (s : State) : Nat :=
  put 0 4 s.fuse.variant + put 4 4 s.fuse.profile + put 8 8 s.fuse.stepping + put 16 16 0x0FA0

/-- The hub region, known after CO9 (R254). -/
def hubRegion (s : State) : Option Nat :=
  if s.pot.any fun e => e.2.hub then some (s.granA - 16) else none

def regionBase (off : Nat) (s : State) : Nat := (hubRegion s).elim 0 fun g => g * 0x200000 + off

/-- MEM_OFFLINE_ENTRY of the selected entry. -/
def offlineEntry (s : State) : Nat :=
  match s.offline[s.reg 0x2004 0 % 4096]? with
  | none => 0
  | some e => put 0 27 e.granule + put 27 2 (tierOf (e.granule * 0x200000)) + put 29 2 e.reason + put 31 1 1 + put 32 32 e.seconds

def heatValue (s : State) : Nat := (kget (s.reg 0x2018 0 % 2 ^ 27) s.heatVal).getD 0

def linkStat (s : State) : Nat :=
  let p := s.port
  put 0 3 p.linkRate + put 3 5 p.linkWidth + put 8 1 (b2n p.flit) +
    put 9 1 (b2n (p.dlActive && (p.linkWidth < 16 || p.linkRate < 4))) + put 16 16 p.retrains

/-- The hub-wide registers below 0x4000. -/
def regLow (off : Nat) (s : State) : Option RegVal :=
  let p := s.port
  match off with
  | 0x0000 => r32 (0x1E5C + put 16 16 0x9400)
  | 0x0004 => r32 (variantWord s)
  | 0x1000 => r32 0
  | 0x1004 => r32 (resetStatus s)
  | 0x1008 => r64 (clkLock s)
  | 0x1010 => r64 s.aon
  | 0x1100 => r32 (swatchWindow s)
  | 0x2000 => r32 (put 0 13 s.offline.length + put 13 1 (b2n s.offOverflow))
  | 0x2004 => r32 (s.reg 0x2004 0)
  | 0x2008 => r64 (offlineEntry s)
  | 0x2010 => r64 (s.reg 0x2010 0x4004004010)
  | 0x2018 => r32 (s.reg 0x2018 0)
  | 0x201C => r32 (heatValue s)
  | 0x2100 => r64 ((hubRegion s).elim 0 fun g => put 0 27 g + put 32 16 16)
  | 0x2108 => r64 (regionBase 0 s)
  | 0x2110 => r64 (regionBase 0x800000 s)
  | 0x2118 => r64 (put 0 32 p.atcRequests + put 32 16 p.atcInvals + put 48 16 p.atcRefused)
  | 0x3000 => r32 (linkStat s)
  | 0x3008 => r64 s.bar4Win
  | 0x3010 => r32 (intxStat s)
  | 0x3018 => r64 (put 0 32 p.refused + put 32 16 p.poisoned)
  | 0x3020 => r64 (put 0 36 p.errOffset + put 36 4 p.errReason + put 40 1 (b2n p.errValid))
  | 0x3028 => r32 (put 0 14 p.dbLast + put 16 16 p.dbDrop)
  | _ => none

/-- An event ring's registers. -/
def regEvt (r o : Nat) (s : State) : Option RegVal :=
  let g := s.ring r
  match o with
  | 0x00 => r64 g.base
  | 0x08 => r32 (b2n g.enable + put 1 5 g.log2)
  | 0x0C => r32 g.prod.toNat
  | 0x10 => r32 g.ack.toNat
  | 0x14 => r32 (b2n g.overflow + put 16 16 g.lost)
  | _ => none

/-- The command ring, transactions and the mailbox lock. -/
def regCmd (off : Nat) (s : State) : Option RegVal :=
  let c := s.cmd
  match off with
  | 0x4200 => r32 (s.reg 0x4200 0)
  | 0x4208 => r64 (regionBase 0x1000000 s)
  | 0x4210 => r64 (regionBase 0x1020000 s)
  | 0x5000 => r64 c.base
  | 0x5008 => r32 (b2n c.enable + put 1 4 c.log2)
  | 0x500C => r32 0
  | 0x5010 => r64 (c.head.toNat + put 32 32 c.tail.toNat)
  | 0x5018 => r32 c.done.toNat
  | 0x501C => r32 (b2n c.overrun + put 16 16 c.staleTail)
  | 0x5020 => r64 c.doneAddr
  | 0x5028 => r64 s.cfgGen
  | 0x5030 => r64 (put 0 5 s.txns.length + put 5 1 (b2n (s.txns.any fun t => t.2.committing)) + put 32 16 s.txnConflicts +
      put 48 16 s.txnAborts)
  | 0x5040 => r32 s.mbx.owner
  | 0x5044 => r32 (put 1 1 (b2n s.mbx.busy) + put 2 1 (b2n s.mbx.done))
  | 0x7000 => r64 (s.reg 0x7000 portClassReset)
  | _ => none

/-- Life cycle, keys and repair. -/
def regSec (off : Nat) (s : State) : Option RegVal :=
  match off with
  | 0x8000 => r32 (put 0 3 s.sec.lc + put 3 1 (b2n (lcRevoked s.fuse.lc)) + put 4 1 (b2n s.sec.invalid) +
      put 5 1 (b2n s.sec.resumed) + put 16 7 s.fuse.svn)
  | 0x8004 => r32 (put 0 2 s.sec.level + put 2 1 (b2n s.sec.challenge.isSome) + put 16 16 s.sec.fails)
  | 0x8050 => r64 (put 0 32 s.secIntegrity + put 32 16 s.secAuth)
  | 0x9800 => r32 (put 0 6 s.co.next + put 6 1 (b2n s.co.wrapped) + put 16 16 s.co.castOns)
  | 0x9808 => r64 (min 255 s.rep.due.length + put 8 1 (b2n s.rep.running.isSome) + put 16 16 (min 65535 s.rep.fieldRepairs) +
      put 32 7 s.rep.fuseFree)
  | _ =>
    if 0x8010 ≤ off && off < 0x8050 && off % 8 = 0 then
      let k := (off - 0x8010) / 8
      let x := (kget k s.keys).getD {}
      r64 (put 0 2 x.state + put 2 3 (if x.state = 0 then 0 else x.part) + put 16 16 x.bindCount + put 32 32 (slotInFlight k s))
    else none

/-- TH_CAP.REASON. -/
def capReason (s : State) : Nat :=
  let x := s.power
  b2n (x.cap.any (fun e => e.2 < 64) || !x.act.isEmpty) + 2 * b2n (x.die.any fun e => e.2.cap < 64 || quadCritical (e.1 / 25) s) +
    4 * b2n (0 < x.coolRun) + 8 * b2n (1 ≤ x.shed) + 16 * b2n (alertHeld s) + 32 * b2n x.failsafe

/-- The hottest cluster: its temperature in 0.1 °C and its number. -/
def hottest (s : State) : Int × Nat :=
  match s.power.die with
  | [] => (0, 0)
  | e :: t => t.foldl (fun m d => if m.1 < d.2.temp then (d.2.temp, d.1) else m) (e.2.temp, e.1)

/-- A temperature of 0.01 °C as a 12-bit field of 0.1 °C. -/
def tenths12 (t : Int) : Nat := (BitVec.ofInt 12 (t / 10)).toNat

/-- The block at 0xA000. -/
def regPower (o : Nat) (s : State) : Option RegVal :=
  let x := s.power
  match o with
  | 0x000 => r32 (s.reg 0xA000 (pkgLimit s))
  | 0x008 => r64 (put 0 12 (pkg10 s) + put 12 12 (pkg1s s) + put 24 12 x.hubW + put 36 12 x.hbmW)
  | 0x010 => r32 (put 0 7 (lowestCap s) + put 7 1 (b2n (anyActCap s)) + put 8 6 (capReason s))
  | 0x014 =>
    let h := hottest s
    r32 ((BitVec.ofInt 8 (h.1 / 10)).toNat + put 8 8 h.2 + put 16 8 (throttleC s))
  | 0x018 => r32 (loopCtl s)
  | 0x020 => r64 (loopParam s)
  | 0x028 => r64 (put 0 16 x.flow + put 16 12 (tenths12 x.inlet) + put 28 12 (tenths12 x.outlet) + put 40 16 x.setpoint +
      put 56 7 x.duty + put 63 1 (b2n x.failsafe))
  | 0x030 => r32 (s.reg 0xA030 0x40323130)
  | 0x034 => r32 (storeCfg s)
  | 0x038 => r64 (put 0 3 x.shed + put 3 3 x.peak + put 6 4 (triggerBits x) + put 16 8 x.railDrop + put 24 8 x.storePct +
      put 32 16 x.entries)
  | 0x040 => r32 x.smb
  | 0x048 => r32 (put 0 16 x.tach0 + put 16 16 x.tach1)
  | _ => none

/-- A partition's block. -/
def regPart (p o : Nat) (s : State) : Option RegVal :=
  let x := s.part p
  let f := s.fring p
  let q (t : Nat) : Nat := (kget t x.quota).getD 0
  match o with
  | 0x000 => r32 (shedClass p s + put 2 1 (b2n x.laidOut) + put 3 1 (b2n x.resetting.isSome))
  | 0x010 => r64 x.clusters
  | 0x018 => r64 (x.clusters >>> 64)
  | 0x020 => r64 (x.clusters >>> 128)
  | 0x028 => r64 (bits x.clusters 199 192)
  | 0x030 => r64 (put 0 21 (q 0) + put 21 21 (q 1) + put 42 21 (q 2))
  | 0x100 => r64 (mscWays p 0 s)
  | 0x108 => r64 (mscWays p 1 s)
  | 0x110 => r64 (s.reg (ptBase p + 0x110) 0)
  | 0x120 => r32 (s.reg (ptBase p + 0x120) 1)
  | 0x128 => r64 (s.reg (ptBase p + 0x128) 0)
  | 0x130 => r64 (s.reg (ptBase p + 0x130) 0)
  | 0x140 => r32 (b2n x.resetting.isSome + put 16 16 x.resets)
  | 0x200 => r32 (s.reg (ptBase p + 0x200) 5)
  | 0x400 => r64 f.base
  | 0x408 => r32 (b2n f.enable)
  | 0x40C => r32 f.prod.toNat
  | 0x410 => r32 f.ack.toNat
  | 0x414 => r32 (put 0 7 f.siding.length + put 7 1 (b2n f.overflow) + put 16 16 f.droppedFirst)
  | _ => none

/-- Directory entries of quadrant q in BCAST mode. -/
def bcastCount (q : Nat) (s : State) : Nat :=
  kcount (fun n l => homeOf (64 * n) == q && (l.dir.any fun d => d.bcast)) s.lines

/-- A quadrant's block. -/
def regQuad (q o : Nat) (s : State) : Option RegVal :=
  let b := qdBase q
  match o with
  | 0x000 => r32 (s.coreRate * 100 + put 16 1 (running (0x10 + q) s))
  | 0x200 => r64 (put 0 19 (dirCount q s) + put 32 19 (bcastCount q s))
  | 0x208 => r64 (put 0 48 (s.reg (b + 0x208) 0) + put 48 16 (min 65535 (s.reg (b + 0x208 + 0x10000000) 0 / 1000)))
  | 0x210 => r32 (s.reg (b + 0x210) 0)
  | 0x300 => r32 (s.reg (b + 0x300) 0)
  | 0x400 => r64 (s.reg (b + 0x400) 0)
  | _ => none

/-- Registers of logical core i of cluster g at `o`, less 0x10 i. -/
def regCore (g i o : Nat) (s : State) : Option RegVal :=
  let c := 20 * g + i
  let seg := (kget c s.fuseSeg).getD 0
  let k := strikesOf s g (slotOf s c)
  match o with
  | 0x100 => r32 (b2n (s.core c).chain + put 1 1 (s.reg (clBase g + 0x100 + 0x10 * i) 0 / 2) + put 2 1 (b2n (seg != 0)) +
      put 3 1 (b2n (actCap g s)))
  | 0x108 => r64 seg
  | 0x300 => r64 (min 3 k.length + put 2 1 (b2n (suspect s c)) +
      put 3 1 (b2n (s.rep.due.any fun d => d.what.kind = 1 && dueCore s d.what == some c)) + put 16 48 (lastStrike s g (slotOf s c)))
  | 0x308 => r64 (put 0 48 (s.core c).swDone + put 48 16 (s.core c).swAband)
  | _ => none

/-- CL_REPAIR_STAT. -/
def repairStat (g : Nat) (s : State) : Nat :=
  let cores := (List.range 20).map fun i => 20 * g + i
  put 0 2 (spareSlots s g).length + put 8 5 (cores.filter fun c => (kget c s.fuseSeg).isSome).length +
    put 16 8 (recordCount s 4 g fun _ => true) + put 24 8 (recordCount s 3 g fun r => slotMapped s g r.slot) +
    put 32 10 (cores.foldl (fun m c => min m ((kget c s.rep.margins).getD 0x3FF)) 0x3FF)

/-- A cluster's block. -/
def regCluster (g o : Nat) (s : State) : Option RegVal :=
  let k := s.cluster g
  match o with
  | 0x000 => r32 (bits (s.reg (clBase g) 0x40) 6 0 + put 8 7 (clkCurrent g s))
  | 0x500 => r64 (put 0 32 k.misses + put 32 16 k.shoots)
  | 0x600 => r64 (k.epoch.toNat + put 16 48 k.advances)
  | 0x700 => r64 (repairStat g s)
  | _ =>
    match blockAt o 0x100 0x10 20 with
    | some (i, p) => regCore g i (0x100 + p) s
    | none => match blockAt o 0x300 0x10 20 with
      | some (i, p) => regCore g i (0x300 + p) s
      | none => none

/-- A controller's block. -/
def regCtl (x o : Nat) (s : State) : Option RegVal :=
  let c := s.ctl x
  let kind := if x < 0x10 then 1 else if x < 0x20 then 2 else 3
  match o with
  | 0x000 => r64 (kind + put 4 1 (b2n c.present) + put 8 16 c.rate + put 32 32 c.dataMb)
  | 0x200 => if kind = 1 then r32 (put 0 8 c.temp + put 8 8 (s.threshold x) + put 16 3 c.step + put 19 1 (b2n c.critical)) else none
  | 0x300 => r64 (s.reg (ctlBase x + 0x300) 0)
  | 0x400 => if kind = 1 then r64 (s.reg (ctlBase x + 0x400) 0) else none
  | _ => if 0x100 ≤ o && o < 0x120 && o % 8 = 0 then r64 (s.reg (ctlBase x + o) (2 ^ 64 - 1)) else none

/-- A site's block. -/
def regSite (n o : Nat) (s : State) : Option RegVal :=
  let x := s.site n
  match o with
  | 0x00 => r32 (put 0 3 x.state + put 3 1 (b2n x.cxl) + put 4 3 x.modules + put 7 2 x.rate + put 9 2 x.shedClass +
      put 16 8 x.failCode + put 24 8 x.admissions)
  | 0x08 => r64 x.decl
  | 0x10 => r64 (put 0 8 x.reqMask + put 8 1 (b2n x.apValid) + put 9 3 x.apOwner + put 32 20 x.cxlCtx)
  | 0x18 => r64 (put 0 32 x.repaired + put 32 16 x.retrains)
  | 0x20 => r64 (put 0 16 x.errProtocol + put 16 16 x.errDb + put 32 16 x.errEarly + put 48 16 x.errTimeout)
  | 0x28 => r32 (put 0 10 x.measured + put 16 1 (b2n x.overNow))
  | 0x30 => r32 (put 0 4 x.loopback + put 4 1 (b2n x.prbs) + put 16 16 x.prbsErrors)
  | _ => none

/-- A Sloyth port's block. -/
def regSl (p o : Nat) (s : State) : Option RegVal :=
  let x := s.slPort p
  match o with
  | 0x00 => r32 (s.reg (slBase p) 1)
  | 0x08 => r64 (put 0 3 x.state + put 3 1 (b2n x.initiator) + put 8 8 x.resets)
  | 0x10 => r64 x.peer
  | 0x18 => r64 (put 0 32 x.fecCorrected + put 32 16 x.fecUncorrectable + put 48 16 x.replays)
  | 0x20 => r64 (put 0 48 x.txSeq + put 48 1 (b2n x.txEpoch) + put 49 1 (b2n (x.rekeying != 0)) + put 50 14 x.authFail)
  | _ => none

/-- SL_WIN_OUT_A and B of window w. -/
def regWinOut (w o : Nat) (s : State) : Option RegVal :=
  match kget w s.winOut, o with
  | none, 0 => r64 0
  | none, 8 => r64 0
  | some v, 0 =>
    let pin := if (flowReqs (v.part, v.peer) s).isEmpty then none else flowPort s (v.part, v.peer)
    r64 (1 + put 1 3 v.part + put 4 6 v.remote + put 10 1 (b2n v.isOpen) + put 11 2 (pin.getD 0) + put 13 1 (b2n pin.isSome))
  | some v, 8 => r64 v.peer
  | _, _ => none

/-- SL_WIN_IN_A and B of window r. -/
def regWinIn (r o : Nat) (s : State) : Option RegVal :=
  match kget r s.winIn, o with
  | none, 0 => r64 0
  | none, 8 => r64 0
  | some v, 0 => r64 (1 + put 1 3 v.part + put 4 3 (b2n v.r + 2 * b2n v.w + 4 * b2n v.a) + put 7 3 v.srcPart +
      put 10 10 (v.len % 1024) + put 21 27 (v.base / 0x200000))
  | some v, 8 => r64 v.peer
  | _, _ => none

/-- The report log holds 64 reports of 32 bytes, at their offsets as 64-bit words (R477). -/
def regLog (o : Nat) (s : State) : Option RegVal :=
  if o % 8 = 0 then r64 (bytesAt ((kget (o / 32) s.co.log).getD 0) (o % 32) 8) else none

/-- The register at a BAR0 offset and what it holds; none where no chapter assigns one (R282). -/
def regAt (off : Nat) (s : State) : Option RegVal :=
  match blockAt off 0x4000 0x20 16 with
  | some (r, o) => regEvt r o s
  | none => match blockAt off 0x100000 0x1000 8 with
  | some (p, o) => regPart p o s
  | none => match blockAt off 0x400000 0x10000 8 with
  | some (q, o) => regQuad q o s
  | none => match blockAt off 0x800000 0x1000 200 with
  | some (g, o) => regCluster g o s
  | none => match blockAt off 0xC00000 0x1000 40 with
  | some (x, o) => regCtl x o s
  | none => match blockAt off 0xC80000 0x1000 4 with
  | some (n, o) => regSite n o s
  | none => match blockAt off 0xC90000 0x1000 4 with
  | some (p, o) => regSl p o s
  | none => match blockAt off 0xCA0000 0x10 64 with
  | some (w, o) => regWinOut w o s
  | none => match blockAt off 0xCA1000 0x10 64 with
  | some (r, o) => regWinIn r o s
  | none =>
    if off < 0x4000 then regLow off s
    else if off < 0x8000 then regCmd off s
    else if 0x9000 ≤ off && off < 0x9800 then regLog (off - 0x9000) s
    else if 0xA000 ≤ off && off < 0xA100 then regPower (off - 0xA000) s
    else regSec off s

/-- Registers that are served before the hub is ready (R300). -/
def earlyReg (off : Nat) : Bool :=
  off == 0 || off == 4 || off == 0x1004 || off == 0x1010 || (0x9000 ≤ off && off < 0x9800) || off == 0x9800

/-- The mailbox buffer. -/
def inMbxBuf (off : Nat) : Bool := 0x6000 ≤ off && off < 0x7000

/-- The report log (R477). -/
def inLog (off : Nat) : Bool := 0x9000 ≤ off && off < 0x9800

/-- An access of `n` bytes at an offset touches a byte of some register. -/
def touchesReg (off n : Nat) (s : State) : Bool :=
  (List.range n).any fun i => (regAt ((off + i) / 4 * 4) s).isSome || ((regAt ((off + i) / 8 * 8) s).map (·.1)).getD false

/-- What a host read of `n` bytes at a BAR0 offset returns (R9, R282, R295, R300, R350). The report log, whose width no
chapter gives, answers aligned reads of 4 and of 8 bytes. -/
def regRead (off n : Nat) (s : State) : Nat :=
  if s.port.frozen || (!s.co.ready && !earlyReg off) then onesOf n
  else if inMbxBuf off then
    if (n = 4 || n = 8) && off % n = 0 then mread s.mbx.buf (off - 0x6000) n else onesOf n
  else if inLog off then
    if (n = 4 || n = 8) && off % n = 0 then
      bytesAt ((kget ((off - 0x9000) / 32) s.co.log).getD 0) (off % 32) n else onesOf n
  else match regAt off s with
    | some (w, v) => if n = (if w then 8 else 4) then v else onesOf n
    | none => if touchesReg off n s then onesOf n else 0

/-! ### Writes to BAR0 -/

/-- A buffer write: from the owner, while not BUSY (R350). -/
def mbxWrite (path : Path) (o n v : Nat) (s : State) : State :=
  if !mbxServed path s || s.mbx.owner = 0 || s.mbx.owner ≠ ownerCode path || s.mbx.busy then s
  else { s with mbx := { s.mbx with buf := mwrite s.mbx.buf o n v } }

/-- HUB_MBX_LOCK: CLAIM acts before RELEASE. -/
def mbxLock (path : Path) (v : Nat) (s : State) : State :=
  if !mbxServed path s then s
  else
    let s := if bit v 2 then mbxClaim path s else s
    if bit v 3 then mbxRelease path s else s

/-- HUB_MBX_CTL: the owner clears DONE, and GO submits the packet in the buffer (R350). A packet given so names no objects before
its own command comes (log 100). -/
def mbxCtl (path : Path) (v : Nat) (s : State) : State :=
  let s := if mbxServed path s && bit v 2 && s.mbx.owner ≠ 0 && s.mbx.owner = ownerCode path then
      { s with mbx := { s.mbx with done := false } }
    else s
  if bit v 0 then mbxGo path [] s else s

def smbClear (v : Nat) (s : State) : State :=
  { s with power := { s.power with smb := s.power.smb &&& (7 - v % 8) } }

def writeEvt (r o v : Nat) (s : State) : State :=
  let g := s.ring r
  match o with
  | 0x00 => if g.enable then s else s.setRing r { g with base := v / 4096 * 4096 }
  | 0x08 => evtCtl r (bit v 0) (bits v 5 1) s
  | 0x10 => evtAck r (BitVec.ofNat 32 v) s
  | 0x14 => if bit v 0 then s.setRing r { g with overflow := false } else s
  | _ => s

def writePart (p o v : Nat) (s : State) : State :=
  let f := s.fring p
  match o with
  | 0x400 => if f.enable then s else s.setFring p { f with base := v / 4096 * 4096 }
  | 0x408 => faultCtl p (bit v 0) s
  | 0x410 => faultAck p (BitVec.ofNat 32 v) s
  | 0x414 => if bit v 7 then s.setFring p { f with overflow := false } else s
  | _ => s

/-- QD_COH_ERR: ones clear the RW1C bits. -/
def cohClear (q v : Nat) (s : State) : State :=
  let o := qdBase q + 0x210
  let w := s.reg o 0
  s.setReg o (w - (w &&& v &&& 0xF03))

def writeSite (n o v : Nat) (s : State) : State :=
  match o with
  | 0x28 => if bit v 16 then s.setSite n { s.site n with overNow := false } else s
  | 0x30 => siteTest n (bits v 3 0) (bit v 4) s
  | _ => s

/-- The hub-wide registers with fields a write acts on. -/
def writeHub (off v : Nat) (s : State) : State :=
  let c := s.cmd
  match off with
  | 0x1000 => resetCtl v s
  | 0x2000 => if bit v 13 then { s with offOverflow := false } else s
  | 0x2004 => s.setReg 0x2004 (v % 4096)
  | 0x2018 => s.setReg 0x2018 (v % 2 ^ 27)
  | 0x3020 => if bit v 40 then { s with port := { s.port with errOffset := 0, errReason := 0, errValid := false } } else s
  | 0x4200 => s.setReg 0x4200 v
  | 0x5000 => if c.enable then s else { s with cmd := { c with base := v / 4096 * 4096 } }
  | 0x5008 => cmdCtl (bit v 0) (bits v 4 1) s
  | 0x500C => cmdTail (BitVec.ofNat 32 v) s
  | 0x501C => if bit v 0 then { s with cmd := { c with overrun := false } } else s
  | 0x5020 => { s with cmd := { c with doneAddr := v / 8 * 8 } }
  | 0x5040 => mbxLock .mailbox v s
  | 0x5044 => mbxCtl .mailbox v s
  | 0xA040 => smbClear v s
  | _ => s

/-- The effect of a whole write on the register at an offset, by its field types (R10). -/
def regEffect (off v : Nat) (s : State) : State :=
  match blockAt off 0x4000 0x20 16 with
  | some (r, o) => writeEvt r o v s
  | none => match blockAt off 0x100000 0x1000 8 with
  | some (p, o) => writePart p o v s
  | none => match blockAt off 0x400000 0x10000 8 with
  | some (q, o) => if o = 0x210 then cohClear q v s else s
  | none => match blockAt off 0xC80000 0x1000 4 with
  | some (n, o) => writeSite n o v s
  | none => writeHub off v s

/-- A host write of `n` bytes at a BAR0 offset (R9, R282, R295, R300, R350). -/
def regWrite (off n v : Nat) (s : State) : State :=
  if !hostOpen s then s
  else if inMbxBuf off then
    if (n = 4 || n = 8) && off % n = 0 then mbxWrite .mailbox (off - 0x6000) n v s else s
  else match regAt off s with
    | some (w, _) => if n = (if w then 8 else 4) then regEffect off (v % 2 ^ (8 * n)) s else s
    | none => s

/-! ### Configuration space (R279 to R281) -/

/-- Bits of a configuration dword that a write sets: Command, the BARs, Interrupt Line, and control registers of the
capability structures (PRESUMED, log 64). -/
def cfgMask (d : Nat) : Nat :=
  match d with
  | 0x04 => 0x546
  | 0x10 => 0xFF000000
  | 0x14 => 0xFFFFFFFF
  | 0x18 => 0xFC000000
  | 0x1C => 0xFFFFFFFF
  | 0x24 => 0xFFFFFFF0
  | 0x3C => 0xFF
  | 0x58 => 0x7FFF
  | 0x60 => 0x0FFF
  | 0x78 => 0xFFFF
  | 0x80 => 0xFFFF
  | 0x108 => 0xFFFFFFFF
  | 0x10C => 0xFFFFFFFF
  | 0x118 => 0x140
  | 0x364 => 0x801F0000
  | 0x374 => 0x00050000
  | _ => 0

def cfgStore (d mask v : Nat) (s : State) : State :=
  let old := (kget d s.port.cfg).getD 0
  let m := cfgMask d &&& mask
  { s with port := { s.port with cfg := kset d (old - (old &&& m) + (v &&& m)) s.port.cfg } }

/-- PMCSR: entry to D3hot freezes the port; a write of D0 leaves it (R294, R296). -/
def powerState (v : Nat) (s : State) : State :=
  if v % 4 = 3 then (if s.port.d3hot then s else freeze 6 { s with port := { s.port with d3hot := true } })
  else if v % 4 = 0 then { s with port := { s.port with d3hot := false } } else s

/-- A write to a configuration dword under a mask of its bits. -/
def cfgWrite (d mask v : Nat) (s : State) : State :=
  let w := v &&& mask
  match d with
  | 0x04 => intxEval (cfgStore d mask v s)
  | 0x44 => if bit mask 0 then powerState v s else s
  | 0x104 => { s with port := { s.port with aer := s.port.aer &&& ~~~(BitVec.ofNat 32 w) } }
  | 0x410 => if bit w 5 then { s with port := { s.port with reportLost := false } } else s
  | 0x414 => freezeRelease (bits w 15 0) (bit w 16) s
  | _ => if cfgMask d = 0 then s else cfgStore d mask v s

/-- Where REGISTER_WRITE goes: within its dword, `n` bytes. The registers of the Mideox DVSEC take whole accesses only (R9). -/
def cfgBytes (off n v : Nat) (s : State) : State :=
  let sh := 8 * (off % 4)
  let d := off % 4096
  if 0x40C ≤ d && d < 0x418 && !(n = 4 && d % 4 = 0) then s
  else cfgWrite (off % 4096 / 4 * 4) (((2 ^ (8 * n) - 1) <<< sh) % 2 ^ 32) ((v <<< sh) % 2 ^ 32) s

/-- REGISTER_WRITE (R10): a host write of `bytes` bytes to a register of BAR0 or of configuration space. -/
def execRegisterWrite (config : Bool) (offset : BitVec 24) (bytes : BitVec 4) (value : BitVec 64) (s : State) :
    Host.Outcome State Fault Refusal :=
  if config then .next (cfgBytes offset.toNat bytes.toNat value.toNat s)
  else .next (regWrite offset.toNat bytes.toNat value.toNat s)

/-- PCI_READY (R300). -/
def pciReady (s : State) : Nat :=
  put 0 4 s.co.stage + put 4 1 (b2n s.co.ready) + put 5 1 (b2n s.co.failed) + put 6 1 (b2n s.co.warm) + put 16 16 s.co.failCode

/-- PCI_FREEZE (R294 to R296). -/
def pciFreeze (s : State) : Nat :=
  let p := s.port
  b2n p.frozen + put 1 3 p.cause + put 4 1 (b2n p.multiple) + put 5 1 (b2n p.reportLost) + put 8 3 p.relErr +
    put 16 16 p.freezeCount

/-- Header dword of the capability structure at a dword offset: its identifier and the next structure of the chain in the
order of R280; the PCI Express capability ends the first chain, the Mideox DVSEC the extended one (PRESUMED, log 64). -/
def capHead (d : Nat) : Option Nat :=
  let ext (id ver next : Nat) : Option Nat := some (id + put 16 4 ver + put 20 12 next)
  match d with
  | 0x40 => some 0x00035001
  | 0x50 => some 0x00020010
  | 0x100 => ext 0x01 2 0x180
  | 0x180 => ext 0x19 1 0x200
  | 0x200 => ext 0x25 1 0x210
  | 0x210 => ext 0x26 1 0x260
  | 0x260 => ext 0x2A 1 0x2C0
  | 0x2C0 => ext 0x31 1 0x300
  | 0x300 => ext 0x27 1 0x360
  | 0x360 => ext 0x0F 1 0x370
  | 0x370 => ext 0x1B 1 0x380
  | 0x380 => ext 0x03 1 0x400
  | 0x400 => ext 0x23 1 0
  | _ => none

/-- The link's rate and width in Link Status, and whether it is active. -/
def linkStatus (s : State) : Nat :=
  if s.port.dlActive then put 16 4 s.port.linkRate + put 20 6 s.port.linkWidth + put 29 1 1 else 0

/-- What a configuration read of a dword returns while configuration space answers (R3, R278 to R281, R294, R300): a dword
that no structure of R279 or R280 gives a value reads what writes have left in it. -/
def cfgRead (d : Nat) (s : State) : Nat :=
  let w := (kget d s.port.cfg).getD 0
  match capHead d with
  | some h => h
  | none => match d with
    | 0x00 => 0x94001E5C
    | 0x04 => w + put 16 16 (0x10 + 8 * b2n (intxCond s))
    | 0x08 => 0x12000000 + s.fuse.stepping
    | 0x10 => w + 4
    | 0x18 => w + 4
    | 0x20 => 0xC
    | 0x2C => 0x1E5C + put 16 16 (0x9400 + s.fuse.variant)
    | 0x34 => 0x40
    | 0x3C => w + 0x100
    | 0x44 => if s.port.d3hot then 0xB else 0x8
    | 0x54 => 0x2
    | 0x5C => 6 + put 4 6 16 + put 10 2 2 + put 22 1 1
    | 0x7C => 0x7E
    | 0x60 => w + linkStatus s
    | 0x74 => 0x00030186
    | 0x104 => s.port.aer.toNat
    | 0x118 => w + 0xA0
    | 0x374 => w + 0x1404
    | 0x384 => s.fuse.serial % 2 ^ 32
    | 0x388 => s.fuse.serial / 2 ^ 32 % 2 ^ 32
    | 0x404 => 0x01801E5C
    | 0x408 => 0x0001
    | 0x40C => pciReady s
    | 0x410 => pciFreeze s
    | 0x414 => 0
    | _ => w

/-! ### SMB (R513) -/

/-- The ranges the board controller may reach. -/
def smbReach (off : Nat) : Bool :=
  off < 0x1000 || (0x5040 ≤ off && off < 0x7000) || (0x9000 ≤ off && off < 0x9900) || (0xA000 ≤ off && off < 0xB000)

/-- The four bytes at an offset: a 32-bit register, half of a 64-bit one, or bytes of the mailbox buffer. -/
def smbValue (off : Nat) (s : State) : Nat :=
  if !smbReach off then 0
  else if inMbxBuf off then mread s.mbx.buf (off - 0x6000) 4
  else match regAt off s with
    | some (_, v) => v % 2 ^ 32
    | none => match if off % 8 = 4 then regAt (off - 4) s else none with
      | some (true, v) => v / 2 ^ 32
      | _ => 0

/-- A board write of four bytes: the mailbox and TH_SMB_ALERT. -/
def smbEffect (off v : Nat) (s : State) : State :=
  if inMbxBuf off then mbxWrite .board (off - 0x6000) 4 v s
  else match off with
    | 0x5040 => mbxLock .board v s
    | 0x5044 => mbxCtl .board v s
    | 0xA040 => smbClear v s
    | _ => s

/-- The offset advances by 4, modulo 2^32. -/
def smbNext (s : State) : State :=
  { s with power := { s.power with smbOffset := (s.power.smbOffset + 4) % 2 ^ 32 } }

/-- SET_OFFSET: an offset that is no multiple of 4, or a packet whose PEC is wrong, is not taken. -/
def execSetOffset (offset : BitVec 32) (pec : Bool) (s : State) : Host.Outcome State Fault Refusal :=
  if pec && offset.toNat % 4 = 0 then .next { s with power := { s.power with smbOffset := offset.toNat } } else .next s

def execRead32 (s : State) : Host.Outcome State Fault Refusal :=
  .next (smbNext (emit (.smb 4 (smbValue s.power.smbOffset s)) s))

def execWrite32 (value : BitVec 32) (pec : Bool) (s : State) : Host.Outcome State Fault Refusal :=
  if pec then .next (smbNext (smbEffect s.power.smbOffset value.toNat s)) else .next s

end Sys2Proof.Machine
end

