-- ==== Sys2Proof/Machine/Scalar.lean ====
section
/-!
DEFINITION. The scalar engine: arithmetic, constants, loads and stores, branches and jumps, atomics (R48 to R58, R85,
R177, R216, R289).
-/
namespace Sys2Proof.Machine

/-! ### Arithmetic (R49 to R51) -/

/-- DIVS (R50). -/
def divS (a b : W64) : W64 := if b = 0 then BitVec.allOnes 64 else a.sdiv b

/-- DIVU (R50). -/
def divU (a b : W64) : W64 := if b = 0 then BitVec.allOnes 64 else a / b

/-- REMS (R50). -/
def remS (a b : W64) : W64 := if b = 0 then a else a.srem b

/-- REMU (R50). -/
def remU (a b : W64) : W64 := if b = 0 then a else a % b

/-- The ALU register class: rd = ra op rb. -/
def aluReg (op : W64 → W64 → W64) (f : Fetch) (rd ra rb : BitVec 5) (rsv : BitVec 6) (s : State) : State :=
  scalarRow f (rsv = 0) (fun c x s => retire c (x.put rd.toNat (op (x.get ra.toNat) (x.get rb.toNat))) s) s

/-- The ALU immediate class: rd = ra op sext(IMM). -/
def aluImm (op : W64 → W64 → W64) (f : Fetch) (rd ra : BitVec 5) (imm : BitVec 14) (s : State) : State :=
  scalarRow f true (fun c x s => retire c (x.put rd.toNat (op (x.get ra.toNat) (imm.signExtend 64))) s) s

/-- The shifts of the ALU immediate class: the amount is IMM[5:0], and IMM[13:6] must be 0. -/
def aluShift (op : W64 → Nat → W64) (f : Fetch) (rd ra : BitVec 5) (imm : BitVec 14) (s : State) : State :=
  scalarRow f (imm.toNat < 64) (fun c x s => retire c (x.put rd.toNat (op (x.get ra.toNat) imm.toNat)) s) s

def execAdd (f : Fetch) (rd ra rb : BitVec 5) (rsv : BitVec 6) (s : State) : Host.Outcome State Fault Refusal :=
  .next (aluReg (fun a b => a + b) f rd ra rb rsv s)

def execSub (f : Fetch) (rd ra rb : BitVec 5) (rsv : BitVec 6) (s : State) : Host.Outcome State Fault Refusal :=
  .next (aluReg (fun a b => a - b) f rd ra rb rsv s)

def execAnd (f : Fetch) (rd ra rb : BitVec 5) (rsv : BitVec 6) (s : State) : Host.Outcome State Fault Refusal :=
  .next (aluReg (fun a b => a &&& b) f rd ra rb rsv s)

def execOr (f : Fetch) (rd ra rb : BitVec 5) (rsv : BitVec 6) (s : State) : Host.Outcome State Fault Refusal :=
  .next (aluReg (fun a b => a ||| b) f rd ra rb rsv s)

def execXor (f : Fetch) (rd ra rb : BitVec 5) (rsv : BitVec 6) (s : State) : Host.Outcome State Fault Refusal :=
  .next (aluReg (fun a b => a ^^^ b) f rd ra rb rsv s)

def execSll (f : Fetch) (rd ra rb : BitVec 5) (rsv : BitVec 6) (s : State) : Host.Outcome State Fault Refusal :=
  .next (aluReg (fun a b => a <<< (b.toNat % 64)) f rd ra rb rsv s)

def execSrl (f : Fetch) (rd ra rb : BitVec 5) (rsv : BitVec 6) (s : State) : Host.Outcome State Fault Refusal :=
  .next (aluReg (fun a b => a >>> (b.toNat % 64)) f rd ra rb rsv s)

def execSra (f : Fetch) (rd ra rb : BitVec 5) (rsv : BitVec 6) (s : State) : Host.Outcome State Fault Refusal :=
  .next (aluReg (fun a b => a.sshiftRight (b.toNat % 64)) f rd ra rb rsv s)

def execSlt (f : Fetch) (rd ra rb : BitVec 5) (rsv : BitVec 6) (s : State) : Host.Outcome State Fault Refusal :=
  .next (aluReg (fun a b => if a.slt b then 1 else 0) f rd ra rb rsv s)

def execSltu (f : Fetch) (rd ra rb : BitVec 5) (rsv : BitVec 6) (s : State) : Host.Outcome State Fault Refusal :=
  .next (aluReg (fun a b => if a.ult b then 1 else 0) f rd ra rb rsv s)

def execMin (f : Fetch) (rd ra rb : BitVec 5) (rsv : BitVec 6) (s : State) : Host.Outcome State Fault Refusal :=
  .next (aluReg (fun a b => if a.slt b then a else b) f rd ra rb rsv s)

def execMax (f : Fetch) (rd ra rb : BitVec 5) (rsv : BitVec 6) (s : State) : Host.Outcome State Fault Refusal :=
  .next (aluReg (fun a b => if a.slt b then b else a) f rd ra rb rsv s)

def execMinu (f : Fetch) (rd ra rb : BitVec 5) (rsv : BitVec 6) (s : State) : Host.Outcome State Fault Refusal :=
  .next (aluReg (fun a b => if a.ult b then a else b) f rd ra rb rsv s)

def execMaxu (f : Fetch) (rd ra rb : BitVec 5) (rsv : BitVec 6) (s : State) : Host.Outcome State Fault Refusal :=
  .next (aluReg (fun a b => if a.ult b then b else a) f rd ra rb rsv s)

def execMul (f : Fetch) (rd ra rb : BitVec 5) (rsv : BitVec 6) (s : State) : Host.Outcome State Fault Refusal :=
  .next (aluReg (fun a b => a * b) f rd ra rb rsv s)

def execMulhs (f : Fetch) (rd ra rb : BitVec 5) (rsv : BitVec 6) (s : State) : Host.Outcome State Fault Refusal :=
  .next (aluReg (fun a b => ((a.signExtend 128 * b.signExtend 128) >>> 64).truncate 64) f rd ra rb rsv s)

def execMulhu (f : Fetch) (rd ra rb : BitVec 5) (rsv : BitVec 6) (s : State) : Host.Outcome State Fault Refusal :=
  .next (aluReg (fun a b => ((a.zeroExtend 128 * b.zeroExtend 128) >>> 64).truncate 64) f rd ra rb rsv s)

def execDivs (f : Fetch) (rd ra rb : BitVec 5) (rsv : BitVec 6) (s : State) : Host.Outcome State Fault Refusal :=
  .next (aluReg (fun a b => divS a b) f rd ra rb rsv s)

def execDivu (f : Fetch) (rd ra rb : BitVec 5) (rsv : BitVec 6) (s : State) : Host.Outcome State Fault Refusal :=
  .next (aluReg (fun a b => divU a b) f rd ra rb rsv s)

def execRems (f : Fetch) (rd ra rb : BitVec 5) (rsv : BitVec 6) (s : State) : Host.Outcome State Fault Refusal :=
  .next (aluReg (fun a b => remS a b) f rd ra rb rsv s)

def execRemu (f : Fetch) (rd ra rb : BitVec 5) (rsv : BitVec 6) (s : State) : Host.Outcome State Fault Refusal :=
  .next (aluReg (fun a b => remU a b) f rd ra rb rsv s)

def execAddi (f : Fetch) (rd ra : BitVec 5) (imm : BitVec 14) (s : State) : Host.Outcome State Fault Refusal :=
  .next (aluImm (fun a b => a + b) f rd ra imm s)

def execAndi (f : Fetch) (rd ra : BitVec 5) (imm : BitVec 14) (s : State) : Host.Outcome State Fault Refusal :=
  .next (aluImm (fun a b => a &&& b) f rd ra imm s)

def execOri (f : Fetch) (rd ra : BitVec 5) (imm : BitVec 14) (s : State) : Host.Outcome State Fault Refusal :=
  .next (aluImm (fun a b => a ||| b) f rd ra imm s)

def execXori (f : Fetch) (rd ra : BitVec 5) (imm : BitVec 14) (s : State) : Host.Outcome State Fault Refusal :=
  .next (aluImm (fun a b => a ^^^ b) f rd ra imm s)

def execSlli (f : Fetch) (rd ra : BitVec 5) (imm : BitVec 14) (s : State) : Host.Outcome State Fault Refusal :=
  .next (aluShift (fun a n => a <<< n) f rd ra imm s)

def execSrli (f : Fetch) (rd ra : BitVec 5) (imm : BitVec 14) (s : State) : Host.Outcome State Fault Refusal :=
  .next (aluShift (fun a n => a >>> n) f rd ra imm s)

def execSrai (f : Fetch) (rd ra : BitVec 5) (imm : BitVec 14) (s : State) : Host.Outcome State Fault Refusal :=
  .next (aluShift (fun a n => a.sshiftRight n) f rd ra imm s)

def execSlti (f : Fetch) (rd ra : BitVec 5) (imm : BitVec 14) (s : State) : Host.Outcome State Fault Refusal :=
  .next (aluImm (fun a b => if a.slt b then 1 else 0) f rd ra imm s)

def execSltui (f : Fetch) (rd ra : BitVec 5) (imm : BitVec 14) (s : State) : Host.Outcome State Fault Refusal :=
  .next (aluImm (fun a b => if a.ult b then 1 else 0) f rd ra imm s)

/-! ### Constants (R52) -/

def execSeti (f : Fetch) (rd : BitVec 5) (h : BitVec 2) (rsv : BitVec 4) (imm : BitVec 16) (s : State) : Host.Outcome State Fault Refusal :=
  .next (scalarRow f (rsv = 0) (fun c x s => retire c (x.put rd.toNat (imm.zeroExtend 64 <<< (16 * h.toNat))) s) s)

def execInsi (f : Fetch) (rd : BitVec 5) (h : BitVec 2) (rsv : BitVec 4) (imm : BitVec 16) (s : State) : Host.Outcome State Fault Refusal :=
  .next (scalarRow f (rsv = 0) (fun c x s =>
    let keep := x.get rd.toNat &&& ~~~((0xFFFF : W64) <<< (16 * h.toNat))
    retire c (x.put rd.toNat (keep ||| (imm.zeroExtend 64 <<< (16 * h.toNat)))) s) s)

/-! ### Loads and stores (R53) -/

/-- LOAD. An SX of 1 with SZ = 3 is ILLEGAL_INSTRUCTION. -/
def execLoad (f : Fetch) (rd ra : BitVec 5) (sp sx : Bool) (sz : BitVec 2) (off : BitVec 14) (ecc : Ecc)
    (l1Parity : Bool) (media : MediaList) (s : State) : Host.Outcome State Fault Refusal :=
  .next { scalarRow f (!(sx && sz = 3)) (fun c x s =>
    let n := 2 ^ sz.toNat
    let a := effAddr x ra.toNat off sz.toNat
    let done (v : Nat) (s : State) : State := retire c ((s.core c).put rd.toNat (extendLoad sx n v)) s
    if a % n ≠ 0 then engineFault c 0 fcMisaligned s
    else if !sp then
      if a ≥ stallSize then engineFault c 0 fcStallBounds s
      else withEcc c 0 ecc s fun s => done (mread (s.core c).stall a n) s
    else ctxAccess c .scalar a .read (fun w t s => loadThrough c w t n l1Parity s) done s) { s with media } with
      media := [] }

/-- STORE: writes through; a line it hits in the L1 is updated. -/
def execStore (f : Fetch) (rs ra : BitVec 5) (sp rsv : Bool) (sz : BitVec 2) (off : BitVec 14) (media : MediaList)
    (s : State) : Host.Outcome State Fault Refusal :=
  .next { scalarRow f (!rsv) (fun c x s =>
    let n := 2 ^ sz.toNat
    let a := effAddr x ra.toNat off sz.toNat
    let v := (x.get rs.toNat).toNat % 2 ^ (8 * n)
    if a % n ≠ 0 then engineFault c 0 fcMisaligned s
    else if !sp then
      if a ≥ stallSize then engineFault c 0 fcStallBounds s
      else retire c { x with stall := mwrite x.stall a n v } s
    else ctxAccess c .scalar a .write
      (fun w t s => match writePiece w t n v s with
        | (.ok r, s) => (.ok r, s.setCore c ((s.core c).l1Store t.pa n v))
        | r => r)
      (fun _ s => retire c (s.core c) s) s) { s with media } with media := [] }

/-! ### Branches and jumps (R54) -/

/-- A branch: taken to PC + sext(OFF) × 4. -/
def branch (cond : W64 → W64 → Bool) (f : Fetch) (rsv : Bool) (ra rb : BitVec 5) (off : BitVec 13) (s : State) : State :=
  scalarRow f (!rsv) (fun c x s =>
    s.setCore c (x.setPc (if cond (x.get ra.toNat) (x.get rb.toNat)
      then BitVec.ofNat 64 x.pc + off.signExtend 64 * 4 else x.nextPc))) s

def execBranchEq (f : Fetch) (rsv : Bool) (ra rb : BitVec 5) (off : BitVec 13) (s : State) : Host.Outcome State Fault Refusal :=
  .next (branch (fun a b => a == b) f rsv ra rb off s)

def execBranchNe (f : Fetch) (rsv : Bool) (ra rb : BitVec 5) (off : BitVec 13) (s : State) : Host.Outcome State Fault Refusal :=
  .next (branch (fun a b => a != b) f rsv ra rb off s)

def execBranchLt (f : Fetch) (rsv : Bool) (ra rb : BitVec 5) (off : BitVec 13) (s : State) : Host.Outcome State Fault Refusal :=
  .next (branch (fun a b => a.slt b) f rsv ra rb off s)

def execBranchGe (f : Fetch) (rsv : Bool) (ra rb : BitVec 5) (off : BitVec 13) (s : State) : Host.Outcome State Fault Refusal :=
  .next (branch (fun a b => !a.slt b) f rsv ra rb off s)

def execBranchLtu (f : Fetch) (rsv : Bool) (ra rb : BitVec 5) (off : BitVec 13) (s : State) : Host.Outcome State Fault Refusal :=
  .next (branch (fun a b => a.ult b) f rsv ra rb off s)

def execBranchGeu (f : Fetch) (rsv : Bool) (ra rb : BitVec 5) (off : BitVec 13) (s : State) : Host.Outcome State Fault Refusal :=
  .next (branch (fun a b => !a.ult b) f rsv ra rb off s)

/-- JUMP: PC-relative when ra is g0; a target that is no multiple of 4 is MISALIGNED. -/
def execJump (f : Fetch) (rd ra : BitVec 5) (off : BitVec 18) (s : State) : Host.Outcome State Fault Refusal :=
  .next (scalarRow f true (fun c x s =>
    let base := if ra = 0 then BitVec.ofNat 64 x.pc else x.get ra.toNat
    let target := base + off.signExtend 64 * 4
    if target.toNat % 4 ≠ 0 then engineFault c 0 fcMisaligned s
    else s.setCore c ((x.put rd.toNat x.nextPc).setPc target)) s)

/-! ### Atomics (R58, R177, R216, R289) -/

/-- AtomicOp Requester Enable of Device Control 2 (R289): bit 6 at 0x28 of the capability of R280. -/
def atomicRequester (s : State) : Bool := bit ((kget 0x78 s.port.cfg).getD 0) 6

/-- An atomic of the issuing cluster's cache, holding the line in M (R216). -/
def cacheAtomic (g : Nat) (w : Who) (pa size op operand compare : Nat) (s : State) : Acc × State :=
  let n := pa / 64
  match acquire g w pa true s with
  | (none, s) => (.wait, s)
  | (some st, s) =>
    if st ≠ stOk then (.fault (homeCause st) 0, s)
    else
      let c := s.cluster g
      match kget n c.lines with
      | none => (.wait, s)
      | some l =>
        if l.poison then (.fault (poisonCause l.found) 0, s.setCluster g { c with lines := kset n { l with found := false } c.lines })
        else
          let (old, new) := atomicOn l.data (pa % 64) size op operand compare
          (.ok old, s.setCluster g { c with lines := kset n { l with st := 4, data := new } c.lines })

/-- The ATOMIC message of an atomic (R203). -/
def atomicMsg (pa size op sc operand compare : Nat) (stream : Bool) : Msg :=
  { homeMsg .atomic pa stream with
      addr := BitVec.ofNat 48 pa, operand := BitVec.ofNat 64 operand, compare := BitVec.ofNat 64 compare,
      aux := BitVec.ofNat 16 (op + (if size = 8 then 16 else 0) + sc * 32) }

/-- An atomic at home or at memory. -/
def homeAtomic (w : Who) (x : Xlat) (size op sc operand compare : Nat) (s : State) : Acc × State :=
  match once w (atomicMsg x.pa size op sc operand compare x.stream) s with
  | (none, s) => (.wait, s)
  | (some a, s) =>
    if a.status ≠ stOk then (.fault (homeCause a.status) 0, s)
    else if a.poison then (.fault (poisonCause a.found) 0, s)
    else (.ok (a.data.toNat % 2 ^ (8 * size)), s)

/-- An atomic to host space runs as an AtomicOp (R289). -/
def hostAtomic (w : Who) (x : Xlat) (size op operand compare : Nat) (s : State) : Acc × State :=
  let key := ansKey w.code x.pa
  let iova := x.pa - 0x800000000000
  match takeAns key s with
  | (some a, s) => if a.status ≠ stOk then (.fault a.status 0, s) else (.ok (a.data.toNat % 2 ^ (8 * size)), s)
  | (none, s) =>
    if (kget key s.asked).isSome then (.wait, s)
    else if !hostOpen s then (.fault fcHostFrozen 0, s)
    else if !(op = 0 || op = 1 || op = 9) || !atomicRequester s then (.fault fcHostAtomic 0, s)
    else if !s.port.parked.isEmpty || !tagFree s then (.wait, s)
    else match atcLook w.code w.ctx iova true s with
      | (none, s) => (.wait, s)
      | (some (.error cause), s) => (.fault cause 0, s)
      | (some (.ok a), s) =>
        (.wait, emit (.hostAtomic w.code iova a size op operand compare) { s with asked := kset key w.tag s.asked })

/-- Where an atomic executes (R216). -/
def atomicAt (c : Nat) (w : Who) (x : Xlat) (size op sc operand compare : Nat) (s : State) : Acc × State :=
  let w := w.under x
  if behindPosted w x.pa s then (.wait, s)
  else match x.target with
  | 0 =>
    let g := coreCluster c
    if x.stream then
      match homeAtomic w x size op sc operand compare s with
      | (.ok v, s) =>
        let k := s.cluster g
        (.ok v, s.setCluster g { k with lines := kdel (x.pa / 64) k.lines })
      | r => r
    else if sc ≤ 2 then cacheAtomic g w x.pa size op operand compare s
    else homeAtomic w x size op sc operand compare s
  | 1 => hostAtomic w x size op operand compare s
  | 2 =>
    match windowOnce w 3 (op + if size = 8 then 16 else 0) x.pa size (operand + 2 ^ 64 * compare) s with
    | (.ok v, s) => (.ok (v % 2 ^ (8 * size)), s)
    | r => r
  | _ =>
    match apertureOnce w (atomicMsg x.pa size op sc operand compare x.stream) (siteOf x.pa) s with
    | (.ok v, s) => (.ok (v % 2 ^ (8 * size)), s)
    | r => r

/-- One atomic: operation `op` at the address in ga; the old value goes to rd. CAS compares with rd and stores rb. -/
def atomicRow (op : Nat) (f : Fetch) (rd ra rb : BitVec 5) (sc : BitVec 3) (sz : Bool) (rsv : BitVec 5)
    (media : MediaList) (s : State) : State :=
  { scalarRow f (rsv = 0 && 1 ≤ sc.toNat && sc.toNat ≤ 5) (fun c x s =>
    let size := if sz then 8 else 4
    let a := (x.get ra.toNat).toNat
    let operand := (x.get rb.toNat).toNat % 2 ^ (8 * size)
    let compare := if op = 9 then (x.get rd.toNat).toNat % 2 ^ (8 * size) else 0
    if a % size ≠ 0 then engineFault c 0 fcMisaligned s
    else ctxAccess c .scalar a .rw
      (fun w t s => match atomicAt c w t size op sc.toNat operand compare s with
        | (.ok v, s) => (.ok v, s.setCore c ((s.core c).l1Drop t.pa))
        | r => r)
      (fun v s => retire c ((s.core c).put rd.toNat (BitVec.ofNat 64 v)) s) s) { s with media } with media := [] }

def execAtomicSwap (f : Fetch) (rd ra rb : BitVec 5) (sc : BitVec 3) (sz : Bool) (rsv : BitVec 5)
    (media : MediaList) (s : State) : Host.Outcome State Fault Refusal :=
  .next (atomicRow 0 f rd ra rb sc sz rsv media s)

def execAtomicAdd (f : Fetch) (rd ra rb : BitVec 5) (sc : BitVec 3) (sz : Bool) (rsv : BitVec 5)
    (media : MediaList) (s : State) : Host.Outcome State Fault Refusal :=
  .next (atomicRow 1 f rd ra rb sc sz rsv media s)

def execAtomicAnd (f : Fetch) (rd ra rb : BitVec 5) (sc : BitVec 3) (sz : Bool) (rsv : BitVec 5)
    (media : MediaList) (s : State) : Host.Outcome State Fault Refusal :=
  .next (atomicRow 2 f rd ra rb sc sz rsv media s)

def execAtomicOr (f : Fetch) (rd ra rb : BitVec 5) (sc : BitVec 3) (sz : Bool) (rsv : BitVec 5)
    (media : MediaList) (s : State) : Host.Outcome State Fault Refusal :=
  .next (atomicRow 3 f rd ra rb sc sz rsv media s)

def execAtomicXor (f : Fetch) (rd ra rb : BitVec 5) (sc : BitVec 3) (sz : Bool) (rsv : BitVec 5)
    (media : MediaList) (s : State) : Host.Outcome State Fault Refusal :=
  .next (atomicRow 4 f rd ra rb sc sz rsv media s)

def execMins (f : Fetch) (rd ra rb : BitVec 5) (sc : BitVec 3) (sz : Bool) (rsv : BitVec 5)
    (media : MediaList) (s : State) : Host.Outcome State Fault Refusal :=
  .next (atomicRow 5 f rd ra rb sc sz rsv media s)

def execMaxs (f : Fetch) (rd ra rb : BitVec 5) (sc : BitVec 3) (sz : Bool) (rsv : BitVec 5)
    (media : MediaList) (s : State) : Host.Outcome State Fault Refusal :=
  .next (atomicRow 6 f rd ra rb sc sz rsv media s)

def execAtomicMinu (f : Fetch) (rd ra rb : BitVec 5) (sc : BitVec 3) (sz : Bool) (rsv : BitVec 5)
    (media : MediaList) (s : State) : Host.Outcome State Fault Refusal :=
  .next (atomicRow 7 f rd ra rb sc sz rsv media s)

def execAtomicMaxu (f : Fetch) (rd ra rb : BitVec 5) (sc : BitVec 3) (sz : Bool) (rsv : BitVec 5)
    (media : MediaList) (s : State) : Host.Outcome State Fault Refusal :=
  .next (atomicRow 8 f rd ra rb sc sz rsv media s)

def execCas (f : Fetch) (rd ra rb : BitVec 5) (sc : BitVec 3) (sz : Bool) (rsv : BitVec 5)
    (media : MediaList) (s : State) : Host.Outcome State Fault Refusal :=
  .next (atomicRow 9 f rd ra rb sc sz rsv media s)

end Sys2Proof.Machine
end

