-- ==== Sys2Proof/Machine/System.lean ====
section
/-!
DEFINITION. The system class of the scalar engine: NOP, HALT, FENCE, L1INV, status registers, TRAP, WAITE (R57, R60, R170,
R171).
-/
namespace Sys2Proof.Machine

/-- NOP. -/
def execNop (f : Fetch) (rd ra : BitVec 5) (imm : BitVec 12) (s : State) : Host.Outcome State Fault Refusal :=
  .next (scalarRow f (rd = 0 && ra = 0 && imm = 0) (fun c x s => retire c x s) s)

/-- HALT (R57, R91): the core ends its part of the launch once its FIFOs are empty and its engines idle. -/
def execHalt (f : Fetch) (rd ra : BitVec 5) (imm : BitVec 12) (s : State) : Host.Outcome State Fault Refusal :=
  .next (scalarRow f (rd = 0 && ra = 0 && imm = 0) (fun c x s =>
    settleCore c (s.setCore c { x with blk := some .halt })) s)

/-- FENCE (R170, R171). A release of SYS scope waits until every window write of the scalar engine is acknowledged; an
acquire of CLUS scope or wider empties the L1, and one of QUAD or wider advances the cluster epoch. -/
def execFence (f : Fetch) (rd ra : BitVec 5) (imm : BitVec 12) (s : State) : Host.Outcome State Fault Refusal :=
  let sc := bits imm.toNat 2 0
  let acq := bit imm.toNat 3
  let rel := bit imm.toNat 4
  .next (scalarRow f (rd = 0 && ra = 0 && 1 ≤ sc && sc ≤ 5 && imm.toNat < 32) (fun c _ s =>
    let (clear, s) := if rel && sc = 5 then sysRelease (4 * c + 1) s else (true, s)
    if !clear then s
    else
      let s := if acq && sc ≥ 2 then s.setCore c (s.core c).l1Inv else s
      let s := if acq && sc ≥ 3 then epochAdvance (coreCluster c) s else s
      retire c (s.core c) s) s)

/-- L1INV. -/
def execL1inv (f : Fetch) (rd ra : BitVec 5) (imm : BitVec 12) (s : State) : Host.Outcome State Fault Refusal :=
  .next (scalarRow f (rd = 0 && ra = 0 && imm = 0) (fun c x s => retire c x.l1Inv s) s)

/-- The value of core status register `i` (R60); none for an index that is not listed. -/
def statusReg (c i : Nat) (s : State) : Option Nat :=
  let x := s.core c
  match i with
  | 0x000 => some c
  | 0x001 => some (put 0 20 x.ctx + put 20 3 x.part.val + put 23 1 (b2n x.det) + put 24 4 s.fuse.profile)
  | 0x002 => some (s.count (0x10 + coreQuad c))
  | 0x010 => some x.vflags.toNat
  | 0x011 => some (b2n x.accSat)
  | 0x020 => some (put 0 6 (fifoDepth - x.vec.fifo.length) + put 8 6 (fifoDepth - x.mtx.fifo.length) +
      put 16 6 (fifoDepth - x.dma.fifo.length))
  | 0x030 => some (put 0 16 x.eccStall + put 16 16 x.eccL1)
  | _ => none

/-- CSRR. -/
def execCsrr (f : Fetch) (rd ra : BitVec 5) (imm : BitVec 12) (s : State) : Host.Outcome State Fault Refusal :=
  .next (scalarRow f (ra = 0 && (statusReg f.core.val imm.toNat s).isSome) (fun c x s =>
    retire c (x.put rd.toNat (BitVec.ofNat 64 ((statusReg c imm.toNat s).getD 0))) s) s)

/-- CSRW: the flags are cleared by ones; a write to a read-only register has no effect. -/
def execCsrw (f : Fetch) (rd ra : BitVec 5) (imm : BitVec 12) (s : State) : Host.Outcome State Fault Refusal :=
  .next (scalarRow f (rd = 0 && (statusReg f.core.val imm.toNat s).isSome) (fun c x s =>
    let v := x.get ra.toNat
    retire c (if imm = 0x010 then x.clearVflags v else if imm = 0x011 then x.clearAccSat v else x) s) s)

/-- TRAP: the record carries IMM. -/
def execTrap (f : Fetch) (rd ra : BitVec 5) (imm : BitVec 12) (s : State) : Host.Outcome State Fault Refusal :=
  .next (scalarRow f (rd = 0 && ra = 0) (fun c _ s => engineFault c 0 fcUserTrap s (detail := imm.toNat)) s)

/-- WAITE: waits until an engine's FIFO is empty and the engine idle. -/
def execWaite (f : Fetch) (rd ra : BitVec 5) (imm : BitVec 12) (s : State) : Host.Outcome State Fault Refusal :=
  .next (scalarRow f (rd = 0 && ra = 0 && imm.toNat < 3) (fun c x s =>
    settleCore c (s.setCore c { x with blk := some (.waite imm.toNat) })) s)

end Sys2Proof.Machine
end

