-- ==== Sys2Proof/Machine/Dispatch.lean ====
section
/-!
DEFINITION. exec: one arm for each command, a direct call of its meaning.
-/
namespace Sys2Proof.Machine

def exec (i : Instr) (s : State) : Host.Outcome State Fault Refusal :=
  match i with
  | .powerOnReset => Sys2Proof.Machine.execPowerOnReset s
  | .perst => Sys2Proof.Machine.execPerst s
  | .perstDeassert => Sys2Proof.Machine.execPerstDeassert s
  | .warmReset value => Sys2Proof.Machine.execWarmReset value s
  | .warmN => Sys2Proof.Machine.execWarmN s
  | .hmfWatchdogExpiry => Sys2Proof.Machine.execHmfWatchdogExpiry s
  | .deferredWarmResetStart => Sys2Proof.Machine.execDeferredWarmResetStart s
  | .warmResetResume => Sys2Proof.Machine.execWarmResetResume s
  | .drainTimeout partition => Sys2Proof.Machine.execDrainTimeout partition s
  | .recallTimeout site => Sys2Proof.Machine.execRecallTimeout site s
  | .castOnStageEnd obs => Sys2Proof.Machine.execCastOnStageEnd obs s
  | .castOnResume => Sys2Proof.Machine.execCastOnResume s
  | .timeSample p domains => Sys2Proof.Machine.execTimeSample p domains s
  | .add f rd ra rb rsv => Sys2Proof.Machine.execAdd f rd ra rb rsv s
  | .sub f rd ra rb rsv => Sys2Proof.Machine.execSub f rd ra rb rsv s
  | .and f rd ra rb rsv => Sys2Proof.Machine.execAnd f rd ra rb rsv s
  | .or f rd ra rb rsv => Sys2Proof.Machine.execOr f rd ra rb rsv s
  | .xor f rd ra rb rsv => Sys2Proof.Machine.execXor f rd ra rb rsv s
  | .sll f rd ra rb rsv => Sys2Proof.Machine.execSll f rd ra rb rsv s
  | .srl f rd ra rb rsv => Sys2Proof.Machine.execSrl f rd ra rb rsv s
  | .sra f rd ra rb rsv => Sys2Proof.Machine.execSra f rd ra rb rsv s
  | .slt f rd ra rb rsv => Sys2Proof.Machine.execSlt f rd ra rb rsv s
  | .sltu f rd ra rb rsv => Sys2Proof.Machine.execSltu f rd ra rb rsv s
  | .min f rd ra rb rsv => Sys2Proof.Machine.execMin f rd ra rb rsv s
  | .max f rd ra rb rsv => Sys2Proof.Machine.execMax f rd ra rb rsv s
  | .minu f rd ra rb rsv => Sys2Proof.Machine.execMinu f rd ra rb rsv s
  | .maxu f rd ra rb rsv => Sys2Proof.Machine.execMaxu f rd ra rb rsv s
  | .mul f rd ra rb rsv => Sys2Proof.Machine.execMul f rd ra rb rsv s
  | .mulhs f rd ra rb rsv => Sys2Proof.Machine.execMulhs f rd ra rb rsv s
  | .mulhu f rd ra rb rsv => Sys2Proof.Machine.execMulhu f rd ra rb rsv s
  | .divs f rd ra rb rsv => Sys2Proof.Machine.execDivs f rd ra rb rsv s
  | .divu f rd ra rb rsv => Sys2Proof.Machine.execDivu f rd ra rb rsv s
  | .rems f rd ra rb rsv => Sys2Proof.Machine.execRems f rd ra rb rsv s
  | .remu f rd ra rb rsv => Sys2Proof.Machine.execRemu f rd ra rb rsv s
  | .addi f rd ra imm => Sys2Proof.Machine.execAddi f rd ra imm s
  | .andi f rd ra imm => Sys2Proof.Machine.execAndi f rd ra imm s
  | .ori f rd ra imm => Sys2Proof.Machine.execOri f rd ra imm s
  | .xori f rd ra imm => Sys2Proof.Machine.execXori f rd ra imm s
  | .slli f rd ra imm => Sys2Proof.Machine.execSlli f rd ra imm s
  | .srli f rd ra imm => Sys2Proof.Machine.execSrli f rd ra imm s
  | .srai f rd ra imm => Sys2Proof.Machine.execSrai f rd ra imm s
  | .slti f rd ra imm => Sys2Proof.Machine.execSlti f rd ra imm s
  | .sltui f rd ra imm => Sys2Proof.Machine.execSltui f rd ra imm s
  | .seti f rd h rsv imm => Sys2Proof.Machine.execSeti f rd h rsv imm s
  | .insi f rd h rsv imm => Sys2Proof.Machine.execInsi f rd h rsv imm s
  | .load f rd ra sp sx sz off ecc l1Parity media => Sys2Proof.Machine.execLoad f rd ra sp sx sz off ecc l1Parity media s
  | .store f rs ra sp rsv sz off media => Sys2Proof.Machine.execStore f rs ra sp rsv sz off media s
  | .branchEq f rsv ra rb off => Sys2Proof.Machine.execBranchEq f rsv ra rb off s
  | .branchNe f rsv ra rb off => Sys2Proof.Machine.execBranchNe f rsv ra rb off s
  | .branchLt f rsv ra rb off => Sys2Proof.Machine.execBranchLt f rsv ra rb off s
  | .branchGe f rsv ra rb off => Sys2Proof.Machine.execBranchGe f rsv ra rb off s
  | .branchLtu f rsv ra rb off => Sys2Proof.Machine.execBranchLtu f rsv ra rb off s
  | .branchGeu f rsv ra rb off => Sys2Proof.Machine.execBranchGeu f rsv ra rb off s
  | .jump f rd ra off => Sys2Proof.Machine.execJump f rd ra off s
  | .enq f eng rsv1 ra rsv2 => Sys2Proof.Machine.execEnq f eng rsv1 ra rsv2 s
  | .swait f sem rd rsv count => Sys2Proof.Machine.execSwait f sem rd rsv count s
  | .ssig f sem rd rsv count => Sys2Proof.Machine.execSsig f sem rd rsv count s
  | .sread f sem rd rsv count => Sys2Proof.Machine.execSread f sem rd rsv count s
  | .semaphoreGrant core => Sys2Proof.Machine.execSemaphoreGrant core s
  | .nop f rd ra imm => Sys2Proof.Machine.execNop f rd ra imm s
  | .halt f rd ra imm => Sys2Proof.Machine.execHalt f rd ra imm s
  | .fence f rd ra imm => Sys2Proof.Machine.execFence f rd ra imm s
  | .l1inv f rd ra imm => Sys2Proof.Machine.execL1inv f rd ra imm s
  | .csrr f rd ra imm => Sys2Proof.Machine.execCsrr f rd ra imm s
  | .csrw f rd ra imm => Sys2Proof.Machine.execCsrw f rd ra imm s
  | .trap f rd ra imm => Sys2Proof.Machine.execTrap f rd ra imm s
  | .waite f rd ra imm => Sys2Proof.Machine.execWaite f rd ra imm s
  | .atomicSwap f rd ra rb sc sz rsv media => Sys2Proof.Machine.execAtomicSwap f rd ra rb sc sz rsv media s
  | .atomicAdd f rd ra rb sc sz rsv media => Sys2Proof.Machine.execAtomicAdd f rd ra rb sc sz rsv media s
  | .atomicAnd f rd ra rb sc sz rsv media => Sys2Proof.Machine.execAtomicAnd f rd ra rb sc sz rsv media s
  | .atomicOr f rd ra rb sc sz rsv media => Sys2Proof.Machine.execAtomicOr f rd ra rb sc sz rsv media s
  | .atomicXor f rd ra rb sc sz rsv media => Sys2Proof.Machine.execAtomicXor f rd ra rb sc sz rsv media s
  | .mins f rd ra rb sc sz rsv media => Sys2Proof.Machine.execMins f rd ra rb sc sz rsv media s
  | .maxs f rd ra rb sc sz rsv media => Sys2Proof.Machine.execMaxs f rd ra rb sc sz rsv media s
  | .atomicMinu f rd ra rb sc sz rsv media => Sys2Proof.Machine.execAtomicMinu f rd ra rb sc sz rsv media s
  | .atomicMaxu f rd ra rb sc sz rsv media => Sys2Proof.Machine.execAtomicMaxu f rd ra rb sc sz rsv media s
  | .cas f rd ra rb sc sz rsv media => Sys2Proof.Machine.execCas f rd ra rb sc sz rsv media s
  | .vfadd core ecc => Sys2Proof.Machine.execVfadd core ecc s
  | .vfsub core ecc => Sys2Proof.Machine.execVfsub core ecc s
  | .vfmul core ecc => Sys2Proof.Machine.execVfmul core ecc s
  | .vfma core ecc => Sys2Proof.Machine.execVfma core ecc s
  | .vfmin core ecc => Sys2Proof.Machine.execVfmin core ecc s
  | .vfmax core ecc => Sys2Proof.Machine.execVfmax core ecc s
  | .vmov core ecc => Sys2Proof.Machine.execVmov core ecc s
  | .viadd core ecc => Sys2Proof.Machine.execViadd core ecc s
  | .visub core ecc => Sys2Proof.Machine.execVisub core ecc s
  | .vimul core ecc => Sys2Proof.Machine.execVimul core ecc s
  | .vimin core ecc => Sys2Proof.Machine.execVimin core ecc s
  | .vimax core ecc => Sys2Proof.Machine.execVimax core ecc s
  | .vand core ecc => Sys2Proof.Machine.execVand core ecc s
  | .vor core ecc => Sys2Proof.Machine.execVor core ecc s
  | .vxor core ecc => Sys2Proof.Machine.execVxor core ecc s
  | .vshl core ecc => Sys2Proof.Machine.execVshl core ecc s
  | .vshr core ecc => Sys2Proof.Machine.execVshr core ecc s
  | .vsra core ecc => Sys2Proof.Machine.execVsra core ecc s
  | .vsel core ecc => Sys2Proof.Machine.execVsel core ecc s
  | .vcvt core ecc => Sys2Proof.Machine.execVcvt core ecc s
  | .recip core ecc => Sys2Proof.Machine.execRecip core ecc s
  | .rsqrt core ecc => Sys2Proof.Machine.execRsqrt core ecc s
  | .sqrt core ecc => Sys2Proof.Machine.execSqrt core ecc s
  | .exp2 core ecc => Sys2Proof.Machine.execExp2 core ecc s
  | .log2 core ecc => Sys2Proof.Machine.execLog2 core ecc s
  | .exp core ecc => Sys2Proof.Machine.execExp core ecc s
  | .ln core ecc => Sys2Proof.Machine.execLn core ecc s
  | .tanh core ecc => Sys2Proof.Machine.execTanh core ecc s
  | .sigmoid core ecc => Sys2Proof.Machine.execSigmoid core ecc s
  | .gelu core ecc => Sys2Proof.Machine.execGelu core ecc s
  | .sin core ecc => Sys2Proof.Machine.execSin core ecc s
  | .cos core ecc => Sys2Proof.Machine.execCos core ecc s
  | .vrsum core ecc => Sys2Proof.Machine.execVrsum core ecc s
  | .vrmax core ecc => Sys2Proof.Machine.execVrmax core ecc s
  | .vhsum core ecc => Sys2Proof.Machine.execVhsum core ecc s
  | .vquant core ecc => Sys2Proof.Machine.execVquant core ecc s
  | .vdeq core ecc => Sys2Proof.Machine.execVdeq core ecc s
  | .mloadw core ecc => Sys2Proof.Machine.execMloadw core ecc s
  | .mmac core ecc => Sys2Proof.Machine.execMmac core ecc s
  | .copy core ecc media => Sys2Proof.Machine.execCopy core ecc media s
  | .copyFill core ecc media => Sys2Proof.Machine.execCopyFill core ecc media s
  | .engineCommandComplete core eng => Sys2Proof.Machine.execEngineCommandComplete core eng s
  | .writeRefusal core dma addr stream => Sys2Proof.Machine.execWriteRefusal core dma addr stream s
  | .swatchCheck core sum => Sys2Proof.Machine.execSwatchCheck core sum s
  | .strikeWindowExpiry core => Sys2Proof.Machine.execStrikeWindowExpiry core s
  | .rdShared m dirErr media => Sys2Proof.Machine.execRdShared m dirErr media s
  | .rdUnique m dirErr media => Sys2Proof.Machine.execRdUnique m dirErr media s
  | .upgrade m dirErr media => Sys2Proof.Machine.execUpgrade m dirErr media s
  | .rdOnce m media => Sys2Proof.Machine.execRdOnce m media s
  | .wrFull m media => Sys2Proof.Machine.execWrFull m media s
  | .wrPartial m media => Sys2Proof.Machine.execWrPartial m media s
  | .wbDirty m media => Sys2Proof.Machine.execWbDirty m media s
  | .evictClean m media => Sys2Proof.Machine.execEvictClean m media s
  | .atomic m media => Sys2Proof.Machine.execAtomic m media s
  | .snpShared m => Sys2Proof.Machine.execSnpShared m s
  | .snpUnique m => Sys2Proof.Machine.execSnpUnique m s
  | .snpInv m => Sys2Proof.Machine.execSnpInv m s
  | .snpCurrent m => Sys2Proof.Machine.execSnpCurrent m s
  | .snpRecall m => Sys2Proof.Machine.execSnpRecall m s
  | .snpRsp m media => Sys2Proof.Machine.execSnpRsp m media s
  | .snpData m media => Sys2Proof.Machine.execSnpData m media s
  | .grant m => Sys2Proof.Machine.execGrant m s
  | .cmp m => Sys2Proof.Machine.execCmp m s
  | .ack m media => Sys2Proof.Machine.execAck m media s
  | .data m => Sys2Proof.Machine.execData m s
  | .holdTimeEnd cluster line => Sys2Proof.Machine.execHoldTimeEnd cluster line s
  | .snoopTimeout site line => Sys2Proof.Machine.execSnoopTimeout site line s
  | .patrol line found => Sys2Proof.Machine.execPatrol line found s
  | .controllerSlot ctl queued room refresh capped => Sys2Proof.Machine.execControllerSlot ctl queued room refresh capped s
  | .stackTemperatureReport stack temp critical => Sys2Proof.Machine.execStackTemperatureReport stack temp critical s
  | .throttleStepDown stack => Sys2Proof.Machine.execThrottleStepDown stack s
  | .stackCritical stack => Sys2Proof.Machine.execStackCritical stack s
  | .migrate queue index media => Sys2Proof.Machine.execMigrate queue index media s
  | .heatIntervalEnd => Sys2Proof.Machine.execHeatIntervalEnd s
  | .ctxCreate p pasid pasidEn priv => Sys2Proof.Machine.execCtxCreate p pasid pasidEn priv s
  | .ctxDestroy p ctx => Sys2Proof.Machine.execCtxDestroy p ctx s
  | .ctxQuery p ctx => Sys2Proof.Machine.execCtxQuery p ctx s
  | .contextAbandon p ctx => Sys2Proof.Machine.execContextAbandon p ctx s
  | .segSet p ctx seg desc => Sys2Proof.Machine.execSegSet p ctx seg desc s
  | .segClear p ctx seg => Sys2Proof.Machine.execSegClear p ctx seg s
  | .map p ctx seg first frames => Sys2Proof.Machine.execMap p ctx seg first frames s
  | .unmap p ctx seg first count => Sys2Proof.Machine.execUnmap p ctx seg first count s
  | .shootdownAcknowledge cluster ctx seg => Sys2Proof.Machine.execShootdownAcknowledge cluster ctx seg s
  | .granuleBind p addr struct count => Sys2Proof.Machine.execGranuleBind p addr struct count s
  | .granuleUnbind p addr count => Sys2Proof.Machine.execGranuleUnbind p addr count s
  | .atsInvalidationRequest tag pasid page pages => Sys2Proof.Machine.execAtsInvalidationRequest tag pasid page pages s
  | .translationCompletion pasid page pages read write success tpage => Sys2Proof.Machine.execTranslationCompletion pasid page pages read write success tpage s
  | .bar4Read offset len media => Sys2Proof.Machine.execBar4Read offset len media s
  | .bar4Write offset mask data media => Sys2Proof.Machine.execBar4Write offset mask data media s
  | .inboundAtomicop offset wide op operand compare media => Sys2Proof.Machine.execInboundAtomicop offset wide op operand compare media s
  | .pciDbTail queue tail => Sys2Proof.Machine.execPciDbTail queue tail s
  | .hostReadCompletion who iova success data => Sys2Proof.Machine.execHostReadCompletion who iova success data s
  | .completionTimeout who iova => Sys2Proof.Machine.execCompletionTimeout who iova s
  | .interruptDisable value => Sys2Proof.Machine.execInterruptDisable value s
  | .pciIntxStat => Sys2Proof.Machine.execPciIntxStat s
  | .uncorrectableError status => Sys2Proof.Machine.execUncorrectableError status s
  | .poisonedTlp completion => Sys2Proof.Machine.execPoisonedTlp completion s
  | .surpriseDown => Sys2Proof.Machine.execSurpriseDown s
  | .portReset => Sys2Proof.Machine.execPortReset s
  | .hotRemoval => Sys2Proof.Machine.execHotRemoval s
  | .d3hot => Sys2Proof.Machine.execD3hot s
  | .freezeRelease key release => Sys2Proof.Machine.execFreezeRelease key release s
  | .dlActive rate width flit => Sys2Proof.Machine.execDlActive rate width flit s
  | .queueCreate p ownerClass site priv log2 cls ctx ring headAddr => Sys2Proof.Machine.execQueueCreate p ownerClass site priv log2 cls ctx ring headAddr s
  | .queueEnable p queue => Sys2Proof.Machine.execQueueEnable p queue s
  | .queueDisable p queue => Sys2Proof.Machine.execQueueDisable p queue s
  | .queueDisabled queue => Sys2Proof.Machine.execQueueDisabled queue s
  | .queueDestroy p queue => Sys2Proof.Machine.execQueueDestroy p queue s
  | .queueFetch queue media => Sys2Proof.Machine.execQueueFetch queue media s
  | .launch queue index media => Sys2Proof.Machine.execLaunch queue index media s
  | .launchReserve queue index => Sys2Proof.Machine.execLaunchReserve queue index s
  | .workCopy queue index media => Sys2Proof.Machine.execWorkCopy queue index media s
  | .fill queue index media => Sys2Proof.Machine.execFill queue index media s
  | .signal queue index => Sys2Proof.Machine.execSignal queue index s
  | .wait queue index => Sys2Proof.Machine.execWait queue index s
  | .barrier queue index => Sys2Proof.Machine.execBarrier queue index s
  | .censusRead queue index media => Sys2Proof.Machine.execCensusRead queue index media s
  | .descriptorComplete queue index => Sys2Proof.Machine.execDescriptorComplete queue index s
  | .fenceCreate p owner mirror => Sys2Proof.Machine.execFenceCreate p owner mirror s
  | .fenceDestroy p fence => Sys2Proof.Machine.execFenceDestroy p fence s
  | .fenceSignal p fence epoch => Sys2Proof.Machine.execFenceSignal p fence epoch s
  | .fenceReset p fence => Sys2Proof.Machine.execFenceReset p fence s
  | .objRetain p kind id count => Sys2Proof.Machine.execObjRetain p kind id count s
  | .objRelease p kind id count => Sys2Proof.Machine.execObjRelease p kind id count s
  | .hubEvtCtl ring enable log2 => Sys2Proof.Machine.execHubEvtCtl ring enable log2 s
  | .hubEvtAck ring ack => Sys2Proof.Machine.execHubEvtAck ring ack s
  | .ptFaultCtl part enable => Sys2Proof.Machine.execPtFaultCtl part enable s
  | .ptFaultAck part ack => Sys2Proof.Machine.execPtFaultAck part ack s
  | .hubCmdTail tail => Sys2Proof.Machine.execHubCmdTail tail s
  | .hubCmdCtl enable log2 => Sys2Proof.Machine.execHubCmdCtl enable log2 s
  | .packetFetch p body => Sys2Proof.Machine.execPacketFetch p body s
  | .claim path => Sys2Proof.Machine.execClaim path s
  | .release path => Sys2Proof.Machine.execRelease path s
  | .go path objs => Sys2Proof.Machine.execGo path objs s
  | .mailboxReleaseTimeout => Sys2Proof.Machine.execMailboxReleaseTimeout s
  | .regStage p entries => Sys2Proof.Machine.execRegStage p entries s
  | .txnBegin p idleMs => Sys2Proof.Machine.execTxnBegin p idleMs s
  | .txnCommit p => Sys2Proof.Machine.execTxnCommit p s
  | .txnRollback p => Sys2Proof.Machine.execTxnRollback p s
  | .txnQuery p => Sys2Proof.Machine.execTxnQuery p s
  | .txnJournal p => Sys2Proof.Machine.execTxnJournal p s
  | .txnIdleTimeout txn => Sys2Proof.Machine.execTxnIdleTimeout txn s
  | .offlineClear p index addr => Sys2Proof.Machine.execOfflineClear p index addr s
  | .autotierPoolGrant p tier frames => Sys2Proof.Machine.execAutotierPoolGrant p tier frames s
  | .autotierPoolWithdraw p tier frames => Sys2Proof.Machine.execAutotierPoolWithdraw p tier frames s
  | .partitionReset p => Sys2Proof.Machine.execPartitionReset p s
  | .partitionLayout p clusters quotaA quotaB quotaC => Sys2Proof.Machine.execPartitionLayout p clusters quotaA quotaB quotaC s
  | .instanceCreate p tag ctxs => Sys2Proof.Machine.execInstanceCreate p tag ctxs s
  | .instanceDestroy p inst => Sys2Proof.Machine.execInstanceDestroy p inst s
  | .instanceFreeze p inst timeout => Sys2Proof.Machine.execInstanceFreeze p inst timeout s
  | .instanceThaw p inst timeout => Sys2Proof.Machine.execInstanceThaw p inst timeout s
  | .instanceFrozen inst => Sys2Proof.Machine.execInstanceFrozen inst s
  | .instanceFreezeTimeout inst waiter => Sys2Proof.Machine.execInstanceFreezeTimeout inst waiter s
  | .instanceSave p inst buf bufBytes => Sys2Proof.Machine.execInstanceSave p inst buf bufBytes s
  | .instanceRestore p blob blobBytes frameMap count remap host => Sys2Proof.Machine.execInstanceRestore p blob blobBytes frameMap count remap host s
  | .missWindowEnd => Sys2Proof.Machine.execMissWindowEnd s
  | .siteReset p site => Sys2Proof.Machine.execSiteReset p site s
  | .siteAdmissionTimeout site => Sys2Proof.Machine.execSiteAdmissionTimeout site s
  | .declare site decl accepts => Sys2Proof.Machine.execDeclare site decl accepts s
  | .shedAck site level action => Sys2Proof.Machine.execShedAck site level action s
  | .quiesceTimeout site => Sys2Proof.Machine.execQuiesceTimeout site s
  | .nopFrame site crReq crSnp crRsp crDat malformed => Sys2Proof.Machine.execNopFrame site crReq crSnp crRsp crDat malformed s
  | .msg site f media => Sys2Proof.Machine.execMsg site f media s
  | .doorbell site queue tail part crReq crSnp crRsp crDat malformed => Sys2Proof.Machine.execDoorbell site queue tail part crReq crSnp crRsp crDat malformed s
  | .apertureTimeout site txn => Sys2Proof.Machine.execApertureTimeout site txn s
  | .siteLinkLoss site => Sys2Proof.Machine.execSiteLinkLoss site s
  | .laneRepair site modules repaired retrained => Sys2Proof.Machine.execLaneRepair site modules repaired retrained s
  | .rdcurr site tag addr media => Sys2Proof.Machine.execRdcurr site tag addr media s
  | .rdshared site tag addr media => Sys2Proof.Machine.execRdshared site tag addr media s
  | .rdany site tag addr media => Sys2Proof.Machine.execRdany site tag addr media s
  | .rdown site tag addr media => Sys2Proof.Machine.execRdown site tag addr media s
  | .rdownnodata site tag addr media => Sys2Proof.Machine.execRdownnodata site tag addr media s
  | .dirtyevict site tag addr data media => Sys2Proof.Machine.execDirtyevict site tag addr data media s
  | .cleanevict site tag addr data => Sys2Proof.Machine.execCleanevict site tag addr data s
  | .cleanevictnodata site tag addr => Sys2Proof.Machine.execCleanevictnodata site tag addr s
  | .itomwr site tag addr data media => Sys2Proof.Machine.execItomwr site tag addr data media s
  | .wrcur site tag addr data media => Sys2Proof.Machine.execWrcur site tag addr data media s
  | .wowrinvf site tag addr data media => Sys2Proof.Machine.execWowrinvf site tag addr data media s
  | .wowrinv site tag addr data mask media => Sys2Proof.Machine.execWowrinv site tag addr data mask media s
  | .cxlIoMemoryRequest site write line parts media => Sys2Proof.Machine.execCxlIoMemoryRequest site write line parts media s
  | .siteGrantRequest p site cxlCtx => Sys2Proof.Machine.execSiteGrantRequest p site cxlCtx s
  | .siteGrantAperture p site cxlCtx => Sys2Proof.Machine.execSiteGrantAperture p site cxlCtx s
  | .siteGrantWithdraw p site cxlCtx => Sys2Proof.Machine.execSiteGrantWithdraw p site cxlCtx s
  | .sitePowerSample site watts => Sys2Proof.Machine.execSitePowerSample site watts s
  | .sitePowerReset site => Sys2Proof.Machine.execSitePowerReset site s
  | .siteTest site loopback prbs => Sys2Proof.Machine.execSiteTest site loopback prbs s
  | .slPortReset p port => Sys2Proof.Machine.execSlPortReset p port s
  | .slWindowSet p desc => Sys2Proof.Machine.execSlWindowSet p desc s
  | .slWindowClear p dir win => Sys2Proof.Machine.execSlWindowClear p dir win s
  | .slRekey p port => Sys2Proof.Machine.execSlRekey p port s
  | .rekeyStart port day => Sys2Proof.Machine.execRekeyStart port day s
  | .hold port => Sys2Proof.Machine.execHold port s
  | .ready port => Sys2Proof.Machine.execReady port s
  | .ackBlock port seq => Sys2Proof.Machine.execAckBlock port seq s
  | .nak port seq => Sys2Proof.Machine.execNak port seq s
  | .credit port req rsp => Sys2Proof.Machine.execCredit port req rsp s
  | .lpi port => Sys2Proof.Machine.execLpi port s
  | .wake port => Sys2Proof.Machine.execWake port s
  | .lpiEntry port => Sys2Proof.Machine.execLpiEntry port s
  | .ackInterval port => Sys2Proof.Machine.execAckInterval port s
  | .packet port k => Sys2Proof.Machine.execPacket port k s
  | .write port src media => Sys2Proof.Machine.execWrite port src media s
  | .read port src media => Sys2Proof.Machine.execRead port src media s
  | .remoteAtomic port src media => Sys2Proof.Machine.execRemoteAtomic port src media s
  | .remoteFence port src => Sys2Proof.Machine.execRemoteFence port src s
  | .winState port => Sys2Proof.Machine.execWinState port s
  | .rekeyKem port => Sys2Proof.Machine.execRekeyKem port s
  | .rekeyEncap port => Sys2Proof.Machine.execRekeyEncap port s
  | .error port => Sys2Proof.Machine.execError port s
  | .readData port => Sys2Proof.Machine.execReadData port s
  | .atomicData port => Sys2Proof.Machine.execAtomicData port s
  | .fenceAck port => Sys2Proof.Machine.execFenceAck port s
  | .remoteTimeout port tag => Sys2Proof.Machine.execRemoteTimeout port tag s
  | .phyLock port locked => Sys2Proof.Machine.execPhyLock port locked s
  | .qualificationComplete port errors => Sys2Proof.Machine.execQualificationComplete port errors s
  | .hello port serial chainOk => Sys2Proof.Machine.execHello port serial chainOk s
  | .kem port => Sys2Proof.Machine.execKem port s
  | .encap port sigOk => Sys2Proof.Machine.execEncap port sigOk s
  | .finish port sigOk => Sys2Proof.Machine.execFinish port sigOk s
  | .berMeasurement port corrected uncorrectable => Sys2Proof.Machine.execBerMeasurement port corrected uncorrectable s
  | .sloythLinkLoss port => Sys2Proof.Machine.execSloythLinkLoss port s
  | .keySlotBind p slot => Sys2Proof.Machine.execKeySlotBind p slot s
  | .keySlotDrain p => Sys2Proof.Machine.execKeySlotDrain p s
  | .keyDrainTimeout partition => Sys2Proof.Machine.execKeyDrainTimeout partition s
  | .attestReport p frag nonce => Sys2Proof.Machine.execAttestReport p frag nonce s
  | .attestRead p frag offset => Sys2Proof.Machine.execAttestRead p frag offset s
  | .attestIdentity p frag => Sys2Proof.Machine.execAttestIdentity p frag s
  | .debugChallenge p level => Sys2Proof.Machine.execDebugChallenge p level s
  | .debugResponse p frag auth sigOk => Sys2Proof.Machine.execDebugResponse p frag auth sigOk s
  | .challengeLapse => Sys2Proof.Machine.execChallengeLapse s
  | .debugLockoutEnd => Sys2Proof.Machine.execDebugLockoutEnd s
  | .lcTransition p frag obj fromSt target root rsv cut => Sys2Proof.Machine.execLcTransition p frag obj fromSt target root rsv cut s
  | .profileSet p frag obj profile => Sys2Proof.Machine.execProfileSet p frag obj profile s
  | .fwUpdate p frag obj conf => Sys2Proof.Machine.execFwUpdate p frag obj conf s
  | .repairQuiesceRun p timeout => Sys2Proof.Machine.execRepairQuiesceRun p timeout s
  | .repairQuiesceQuery p timeout => Sys2Proof.Machine.execRepairQuiesceQuery p timeout s
  | .serviceQuerySummary p first => Sys2Proof.Machine.execServiceQuerySummary p first s
  | .serviceQueryRecords p first => Sys2Proof.Machine.execServiceQueryRecords p first s
  | .serviceQueryReports p first => Sys2Proof.Machine.execServiceQueryReports p first s
  | .serviceQueryPresentation p first => Sys2Proof.Machine.execServiceQueryPresentation p first s
  | .marginSample core margin => Sys2Proof.Machine.execMarginSample core margin s
  | .repair kind source unit slot logical index => Sys2Proof.Machine.execRepair kind source unit slot logical index s
  | .repairPending index => Sys2Proof.Machine.execRepairPending index s
  | .powerQuery p => Sys2Proof.Machine.execPowerQuery p s
  | .powerControlTick pkg hub hbm => Sys2Proof.Machine.execPowerControlTick pkg hub hbm s
  | .regulatorAlert => Sys2Proof.Machine.execRegulatorAlert s
  | .dieTemperatureSample cluster temp => Sys2Proof.Machine.execDieTemperatureSample cluster temp s
  | .thermtrip => Sys2Proof.Machine.execThermtrip s
  | .sensorRead sensor value => Sys2Proof.Machine.execSensorRead sensor value s
  | .flowFault pump => Sys2Proof.Machine.execFlowFault pump s
  | .failsafeEnd => Sys2Proof.Machine.execFailsafeEnd s
  | .loopSetpointUpdate => Sys2Proof.Machine.execLoopSetpointUpdate s
  | .pumpDutyUpdate tach0 tach1 => Sys2Proof.Machine.execPumpDutyUpdate tach0 tach1 s
  | .railSample drop => Sys2Proof.Machine.execRailSample drop s
  | .pwrFailN low => Sys2Proof.Machine.execPwrFailN low s
  | .shedLevelFall => Sys2Proof.Machine.execShedLevelFall s
  | .setOffset offset pec => Sys2Proof.Machine.execSetOffset offset pec s
  | .read32 => Sys2Proof.Machine.execRead32 s
  | .write32 value pec => Sys2Proof.Machine.execWrite32 value pec s
  | .registerWrite config offset bytes value => Sys2Proof.Machine.execRegisterWrite config offset bytes value s
  | .porNDeassert => Sys2Proof.Machine.execPorNDeassert s
  | .siteLinkUp site rate modules repaired => Sys2Proof.Machine.execSiteLinkUp site rate modules repaired s
  | .admissionStepTimeout site powerGood => Sys2Proof.Machine.execAdmissionStepTimeout site powerGood s
  | .transmitEqualisationComplete port => Sys2Proof.Machine.execTransmitEqualisationComplete port s
  | .regulatorAlertClear => Sys2Proof.Machine.execRegulatorAlertClear s

end Sys2Proof.Machine
end

