-- ==== Sys2Proof/Machine/Tick.lean ====
section
/-!
DEFINITION. One tick of the always-on clock: what goes on when no command waits (R24, R29, R154, and what the hub does as
soon as it can). DESIGN CHOICE (log 2): step does it on an empty queue.
-/
namespace Sys2Proof.Machine

/-- Cycles of a domain in the tick that follows always-on cycle n, at the frequencies of R24: an LPDDR6 or DDR5 controller
runs at its data rate over 8, a Sloyth port at 17.5 cycles of its own in 10 ns. -/
def tickCycles (d n : Nat) (s : State) : Nat :=
  if d = 0 then 1
  else if d = 1 then 8
  else if d = 2 then 20
  else if d = 3 then 10
  else if d < 0x20 then s.coreRate
  else if d < 0x30 then 15
  else if d < 0x50 then
    let r := (s.ctl (d - 0x20)).rate
    r * (n + 1) / 800 - r * n / 800
  else if d < 0x60 then 20
  else 17 + n % 2

/-- Every running counter advances; a stopped one holds its value (R29). -/
def tickClocks (s : State) : State :=
  let n := s.aon
  { s with clocks := kmap (fun d c => if c.running then { c with count := c.count + tickCycles d n s } else c) s.clocks }

/-- Operating time advances once in 10^8 always-on cycles (R154). -/
def tickSeconds (s : State) : State :=
  if (s.clock 0).running && s.aon % 100000000 = 0 then { s with opSeconds := s.opSeconds + 1 } else s

/-- The homes, the caches, the host port and the writes that were accepted go on. -/
def settleMemory (s : State) : State :=
  let s := homeWake (settleWrites s)
  let s := releaseParked (settlePosted (releaseRun s))
  settleInval (if s.power.shed ≥ 4 then recallOwned s else s)

/-- Work of queues and contexts goes on. -/
def settleWork (s : State) : State :=
  let s := foldS (s.cores.map (·.1)) fetchIllegal s
  let s := foldS (s.fences.map (·.1)) rewait (stampWaits s)
  settleAbandons (settleLaunches s)

/-- Changes of configuration, moves and shootdowns go on. -/
def settleConfig (s : State) : State :=
  let s := settleAutos (settleMoves (settleDrops (settleShoots s)))
  settleAccepted (settleChanges s)

/-- A reset that an error has made due starts; below L4 only (R38, R221, R238). DESIGN CHOICE (log 101): the warm reset for
hub-global state has the source of the HMF's. -/
def settleDue (s : State) : State :=
  if s.resetDue.isEmpty || s.power.shed ≥ 4 then s
  else
    let due := s.resetDue.map (·.1)
    let s := { s with resetDue := [] }
    if due.contains 8 then warmTrigger 3 s else foldS due partResetByHub s

/-- What the hub does by itself once its conditions hold. -/
def settleAll (s : State) : State :=
  let s := settleConfig (settleWork (settleMemory s))
  let s := partResetSettle (settleDue s)
  let s := foldS (List.range 4) siteSettle s
  let s := slCount (slSettle s)
  let s := drainSettle s
  let s := quiesceSettle s
  warmAdvance (shedTell s)

/-- One tick. -/
def tick (s : State) : State := settleAll (tickSeconds (tickClocks s))

end Sys2Proof.Machine
end

