-- ==== Sys2Proof/Safety.lean ====
section
/-!
DEFINITION. The properties of states that statements speak of.
-/
namespace Sys2Proof

/-- Fuses only go one way (R4, R445, R450, R464, R466): what manufacture fused stays, a provisioned profile stays, a blown
life-cycle, owner-root or SVN fuse stays blown. -/
structure FuseLater (f g : Machine.Fuse) : Prop where
  variant : g.variant = f.variant
  stepping : g.stepping = f.stepping
  serial : g.serial = f.serial
  dus : g.dus = f.dus
  makerRoot : g.makerRoot = f.makerRoot
  thresh : g.thresh = f.thresh
  profile : f.profile ≠ 0 → g.profile = f.profile
  svn : f.svn ≤ g.svn
  lc : f.lc &&& g.lc = f.lc
  ownerRoot : f.ownerRoot &&& g.ownerRoot = f.ownerRoot

/-- The byte memory of the tiers is in its canonical form. -/
def MemoryCanonical (s : Machine.State) : Prop := Machine.Memory.wf s.mem = true

/-- The command answers a next state of which P holds. -/
def Completes (c : Instr) (s : Machine.State) (P : Machine.State → Prop) : Prop :=
  ∃ t, Machine.exec c s = .next t ∧ P t

/-- The scalar engine of the core issues the instruction fetched: a kernel runs, nothing blocks the engine, no shed pause
holds, the fetch lies inside the kernel's code and passes parity (R40, R48, R54, R86, R509). -/
structure CanIssue (f : Fetch) (s : Machine.State) : Prop where
  run : (s.core f.core.val).run = true
  free : (s.core f.core.val).blk = none
  shed : s.power.shed < 4
  code : (s.core f.core.val).pc < (s.core f.core.val).codeSize
  parity : f.parity = false

/-- No mapping is being withdrawn or moved, no change of configuration is in hand, and no write waits for its answer: an
access goes by today's translation, and by nothing before it (R79, R247, R271, R359). -/
structure Calm (s : Machine.State) : Prop where
  shoots : s.shoots = []
  moves : s.moves = []
  changes : s.changes = []
  posted : s.posted = []

/-- No page moves, no write waits for its answer, and no line's requests are on hold at their home: what reaches a home is
served at once, and nothing else goes on with it (R196, R200, R247). -/
structure HomesOpen (s : Machine.State) : Prop where
  moves : s.moves = []
  posted : s.posted = []
  lines : ∀ e ∈ s.lines, e.2.hold = none

/-- The message q that the row of operation `op` on the operand m brings to its receiver, and the state u it arrives in: one
in flight with none of its way before it (R201), or a new request (R205, R206). -/
def Brings (op : MOp) (m : Msg) (s : Machine.State) (q : Msg) (u : Machine.State) : Prop :=
  (Machine.mayArrive { m with op } s = true ∧ q = { m with op } ∧ u = { s with net := (Machine.takeMsg { m with op } s.net).2 }) ∨
  ((Machine.takeMsg { m with op } s.net).1 = false ∧ Machine.newRequest { m with op } s = some (q, u))

/-- Line n is sound in its memory: not poisoned, sealed under the key it is read under, and no error met in this step
(R218, R236, R460). -/
structure LineSound (n : Nat) (media : MediaList) (s : Machine.State) : Prop where
  poison : (s.line n).poison = false
  key : Machine.keyDiffers n s = false
  media : ∀ e ∈ media, e.1 ≠ n

/-- Line n is idle at its home: no transaction, none waiting, and its stack is not in self-refresh (R196, R243). -/
structure LineIdle (n : Nat) (s : Machine.State) : Prop where
  tx : (s.line n).tx = none
  queue : (s.line n).queue = []
  awake : (s.ctl (Machine.ctlOf (64 * n))).step ≠ 5

/-- No drain work of the packet p is under way (R271, R305, R410, R439). -/
structure NoDrain (p : Pkt) (s : Machine.State) : Prop where
  shoots : ∀ u ∈ s.shoots, Machine.samePkt u.pkt p = false
  drops : ∀ d ∈ s.drops, Machine.samePkt d.1 p = false
  queues : ∀ q ∈ s.queues, ∀ k, q.2.stopping = some k → Machine.samePkt k p = false
  sites : ∀ x ∈ s.sites, ∀ k ∈ x.2.withdraws, Machine.samePkt k p = false
  winIn : ∀ w ∈ s.winIn, ∀ k, w.2.closing = some k → Machine.samePkt k p = false

/-- HMF serves the packet p at once, as a direct command: the hub is ready, no warm reset runs, the life cycle admits
commands, no shed level defers it, its header is well-formed, no change is in hand, and no packet accepted before it is still
to be performed (R341, R343, R347, R350 to R352, R359, R362). -/
structure Served (p : Pkt) (s : Machine.State) : Prop extends NoDrain p s where
  ready : s.co.ready = true
  reset : s.rst.inProgress = false
  lc : s.sec.lc ≠ 4 ∧ s.sec.lc ≠ 7
  shed : s.power.shed < 4
  txn : p.txn = 0
  rsv : p.rsv = none
  changes : s.changes = []
  first : (s.accepted.takeWhile fun a => !Machine.samePkt a.pkt p) = []

/-- A packet of a partition that is not being reset (R351, R385). -/
structure ServedFor (p : Pkt) (s : Machine.State) : Prop extends Served p s where
  part : p.partition.toNat < 8
  resetting : (s.part p.partition.toNat).resetting = none

/-- A packet of the whole hub: PARTITION 15 (R351). -/
structure ServedHub (p : Pkt) (s : Machine.State) : Prop extends Served p s where
  part : p.partition = 15

/-- The command answers a reply to p with opcode `op` and result `r`, over the state u. -/
def Replies (c : Instr) (p : Pkt) (op : Nat) (r : Machine.OpRes) (s u : Machine.State) : Prop :=
  Machine.exec c s = .next (Machine.reply p op r u)

/-- The command changes the configuration to u: the generation rises by one, the objects named carry it, and the reply is
ST_OK with `len` bytes of `data` (R342, R357, R360). -/
def Commits (c : Instr) (p : Pkt) (op len data : Nat) (objs : List Nat) (s u : Machine.State) : Prop :=
  Replies c p op { len, data } s (Machine.stampAll s.cfgGen objs u)

/-- Element j of what group g of the vector command w wrote, in a core after that group: in VD, or in its stream. -/
def destElement (x : Machine.Core) (w : BitVec 256) (g j : Nat) : Nat :=
  let n := (Machine.vSizes w).2
  if Machine.vSelD w = 1 then (x.vget (Machine.vVd w)).toNat / 256 ^ (n * j) % 256 ^ n
  else Machine.mread x.stall (Machine.vAddrD w + 32 * Machine.vStrD w * g + n * j) n

/-- The state t after the vector command w granted on core c in s: COUNT groups one after another, each of 64 elements that
`res` gives from the core before the group, its group and the element number; the flags gather; a group changes only the
vector registers, stall memory, their marks and the flags; then the engine goes on. -/
def GroupsRun (c : Nat) (w : BitVec 256) (s t : Machine.State) (res : Machine.Core → Nat → Nat → Machine.FRes) : Prop :=
  ∃ x : Nat → Machine.Core, x 0 = s.core c ∧
    t = Machine.engineDone c .vector (if Machine.vCount w = 0 then s else s.setCore c (x (Machine.vCount w))) ∧
    ∀ g, g < Machine.vCount w →
      (∀ j, j < 64 → destElement (x (g + 1)) w g j = (res (x g) g j).code % 256 ^ (Machine.vSizes w).2) ∧
      (x (g + 1)).vflags = (x g).vflags ||| (List.range 64).foldl (fun a j => a ||| BitVec.ofNat 6 (res (x g) g j).flags) 0 ∧
      { x (g + 1) with vregs := (x g).vregs, stall := (x g).stall, marks := (x g).marks, vmarks := (x g).vmarks,
                       vflags := (x g).vflags } = x g

/-- VHSUM's tree of additions (R68): node i of level k. -/
def pairSum (rm : Nat) (f : Nat → Nat) : Nat → Nat → Nat
  | 0, i => f i
  | k + 1, i => (Machine.add32 rm (Machine.decodeFlt Machine.fp32 (pairSum rm f k (2 * i)))
      (Machine.decodeFlt Machine.fp32 (pairSum rm f k (2 * i + 1)))).code

end Sys2Proof
end

