-- ==== Sys2Proof/Certificates/Slice0/Obligations.lean ====
section
/-!
DEFINITION. The statements for the provers, in the order of OBLIGATIONS.json.
-/
open Sys2Proof Sys2Proof.Machine

/-- A step runs the command at the front of the queue. For every command c and state s, a step of s with c put at the
front of its queue is exec of c on s, whose queue is the rest. The queue is the model's own (log 2). -/
def Obligations.StepRunsTheFrontCommand : Prop :=
  ∀ (c : Instr) (s : State), step (s.withFront c) = exec c s

/-- On an empty queue one always-on cycle passes. When no command waits, a step is one tick of the always-on clock.
That the empty queue stands for one cycle is the model's choice (log 2). -/
def Obligations.EmptyQueueTicks : Prop :=
  ∀ s : State, s.pending = [] → step s = .next (tick s)

/-- Every command is answered by a next state. For every command and every state, exec answers a next state: no
command of the table ends in a fault or a refusal of the model, whatever its operands. What the next state holds is
stated command by command below. -/
def Obligations.EveryCommandIsAnswered : Prop :=
  ∀ (c : Instr) (s : State), ∃ t, exec c s = .next t

/-- A command leaves the queue alone and operating time never falls. Whatever the command and the state: in the next
state the queue of waiting commands is as it was, and operating time is no less than before. Through step, the queue
loses exactly its front command, and loses nothing when it is empty. -/
def Obligations.CommandsLeaveTheQueue : Prop :=
  (∀ (c : Instr) (s t : State), exec c s = .next t → t.pending = s.pending ∧ s.opSeconds ≤ t.opSeconds) ∧
  (∀ s t : State, step s = .next t → t.pending = s.pending.tail ∧ s.opSeconds ≤ t.opSeconds)

/-- Every step keeps tier memory in its canonical form. From every state whose byte memory of the tiers is canonical
(addresses strictly rising, no entry equal to what an unlisted address reads as), a step of the block, whichever
command is at the front and also when none is, leads to a state whose tier memory is canonical. So two equal memories
are equal data after any run. -/
def Obligations.TierMemoryStaysCanonical : Prop :=
  ∀ s t : State, MemoryCanonical s → step s = .next t → MemoryCanonical t

/-- No step unblows a fuse or changes what manufacture fused. Whatever the step, resets and cast-on included: variant,
stepping, serial number, device unique secret, MAKER root and fused thresholds stay as they were; a provisioned build
profile stays; the count of blown SVN fuses does not fall; every blown life-cycle fuse and every blown OWNER_ROOT fuse
stays blown. -/
def Obligations.FusesGoOneWay : Prop :=
  ∀ s t : State, step s = .next t → FuseLater s.fuse t.fuse

/-- Right after power-on reset every counter is 0, every table empty and memory canonical. In the reset state: cast-on
is at CO0, neither running nor ready; no command waits; the canonical form of memory holds with nothing listed; no
context, queue, fence, granule owner, transaction or site state is set; the shed level is 0 and no port is frozen;
every clock count is 0. The level of the two reset pins (low) is the model's choice (log 20). -/
def Obligations.ResetState : Prop :=
  let s := State.reset
  MemoryCanonical s ∧ s.mem = [] ∧ s.pending = [] ∧ s.co.stage = 0 ∧ s.co.running = false ∧ s.ready = false ∧
  s.power.shed = 0 ∧ s.port.frozen = false ∧ (∀ d, s.count d = 0) ∧ (∀ c, s.ctx c = none) ∧ (∀ q, s.queue q = none) ∧
  (∀ f, s.fence f = none) ∧ (∀ g, (s.gran g).owned = false) ∧ s.txns = [] ∧ (∀ c, (s.core c).run = false)

/-- General registers keep what is written, and g0 reads as zero and discards writes. For every core, register and
value: reading the register written gives the value, but g0 reads 0 whatever was written; every other register reads
as before; and a write to g0 changes nothing of the core at all. -/
def Obligations.RegisterFile : Prop :=
  ∀ (x : Core) (r q : Nat) (v : W64),
    (x.put r v).get r = (if r = 0 then 0 else v) ∧ (q ≠ r → (x.put r v).get q = x.get q) ∧ x.put 0 v = x ∧
    (x.put r v) = { x with g := (x.put r v).g }

/-- The ALU register class computes rd = ra op rb and changes nothing else. When the core issues, each of the 19
operations (reserved bits 0) answers the state in which rd holds the result, the program counter has moved by 4, and
nothing else has changed. The results are given on integers: comparisons and MIN, MAX, MULHS and the divisions on
signed values, their U forms on unsigned ones, shifts by rb[5:0]; a quotient by zero is all ones and the remainder is
the dividend; DIVS rounds toward zero and of -2^63 by -1 gives -2^63, REMS 0. Completion (exec answers a next state)
is the conclusion for add, sub, and, or, xor, sll, srl, sra, slt, sltu, min, max, minu, maxu, mul, mulhs, mulhu, divs,
divu, rems and remu. -/
def Obligations.RegisterArithmetic : Prop :=
  ∀ (s : State) (f : Fetch) (rd ra rb : BitVec 5), CanIssue f s →
    let c := f.core.val
    let a := (s.core c).get ra.toNat
    let b := (s.core c).get rb.toNat
    let gives (i : Instr) (v : W64) : Prop := exec i s = .next (retire c ((s.core c).put rd.toNat v) s)
    gives (.add f rd ra rb 0) (BitVec.ofInt 64 (a.toInt + b.toInt)) ∧
    gives (.sub f rd ra rb 0) (BitVec.ofInt 64 (a.toInt - b.toInt)) ∧
    gives (.and f rd ra rb 0) (a &&& b) ∧
    gives (.or f rd ra rb 0) (a ||| b) ∧
    gives (.xor f rd ra rb 0) (a ^^^ b) ∧
    gives (.sll f rd ra rb 0) (BitVec.ofNat 64 (a.toNat * 2 ^ (b.toNat % 64))) ∧
    gives (.srl f rd ra rb 0) (BitVec.ofNat 64 (a.toNat / 2 ^ (b.toNat % 64))) ∧
    gives (.sra f rd ra rb 0) (BitVec.ofInt 64 (a.toInt / 2 ^ (b.toNat % 64))) ∧
    gives (.slt f rd ra rb 0) (if a.toInt < b.toInt then 1 else 0) ∧
    gives (.sltu f rd ra rb 0) (if a.toNat < b.toNat then 1 else 0) ∧
    gives (.min f rd ra rb 0) (BitVec.ofInt 64 (min a.toInt b.toInt)) ∧
    gives (.max f rd ra rb 0) (BitVec.ofInt 64 (max a.toInt b.toInt)) ∧
    gives (.minu f rd ra rb 0) (BitVec.ofNat 64 (min a.toNat b.toNat)) ∧
    gives (.maxu f rd ra rb 0) (BitVec.ofNat 64 (max a.toNat b.toNat)) ∧
    gives (.mul f rd ra rb 0) (BitVec.ofNat 64 (a.toNat * b.toNat)) ∧
    gives (.mulhs f rd ra rb 0) (BitVec.ofInt 64 (a.toInt * b.toInt / 2 ^ 64)) ∧
    gives (.mulhu f rd ra rb 0) (BitVec.ofNat 64 (a.toNat * b.toNat / 2 ^ 64)) ∧
    gives (.divs f rd ra rb 0) (if b = 0 then BitVec.allOnes 64 else BitVec.ofInt 64 (a.toInt.tdiv b.toInt)) ∧
    gives (.divu f rd ra rb 0) (if b = 0 then BitVec.allOnes 64 else BitVec.ofNat 64 (a.toNat / b.toNat)) ∧
    gives (.rems f rd ra rb 0) (if b = 0 then a else BitVec.ofInt 64 (a.toInt.tmod b.toInt)) ∧
    gives (.remu f rd ra rb 0) (if b = 0 then a else BitVec.ofNat 64 (a.toNat % b.toNat))

/-- The ALU immediate and constant classes compute from the immediate and change nothing else. When the core issues,
ADDI to SLTUI give ra op the sign-extended immediate (SLTUI compares with it as unsigned), the three shifts the amount
IMM[5:0] when IMM[13:6] is 0, SETI the 16 bits at position 16 × H with all others 0, INSI the old rd with those 16
bits replaced. The next state has rd so written and the program counter moved by 4, and nothing else changed.
Completion (exec answers a next state) is the conclusion for addi, andi, ori, xori, slti, sltui, slli, srli, srai,
seti and insi. -/
def Obligations.ImmediateArithmetic : Prop :=
  ∀ (s : State) (f : Fetch) (rd ra : BitVec 5) (imm : BitVec 14) (n : Fin 64) (h : BitVec 2) (k : BitVec 16),
    CanIssue f s →
    let c := f.core.val
    let a := (s.core c).get ra.toNat
    let b := BitVec.ofInt 64 imm.toInt
    let gives (i : Instr) (v : W64) : Prop := exec i s = .next (retire c ((s.core c).put rd.toNat v) s)
    gives (.addi f rd ra imm) (a + b) ∧
    gives (.andi f rd ra imm) (a &&& b) ∧
    gives (.ori f rd ra imm) (a ||| b) ∧
    gives (.xori f rd ra imm) (a ^^^ b) ∧
    gives (.slli f rd ra (BitVec.ofNat 14 n.val)) (BitVec.ofNat 64 (a.toNat * 2 ^ n.val)) ∧
    gives (.srli f rd ra (BitVec.ofNat 14 n.val)) (BitVec.ofNat 64 (a.toNat / 2 ^ n.val)) ∧
    gives (.srai f rd ra (BitVec.ofNat 14 n.val)) (BitVec.ofInt 64 (a.toInt / 2 ^ n.val)) ∧
    gives (.slti f rd ra imm) (if a.toInt < imm.toInt then 1 else 0) ∧
    gives (.sltui f rd ra imm) (if a.toNat < b.toNat then 1 else 0) ∧
    gives (.seti f rd h 0 k) (BitVec.ofNat 64 (k.toNat * 2 ^ (16 * h.toNat))) ∧
    Completes (.insi f rd h 0 k) s (fun t => ∃ v : W64,
      t = retire c ((s.core c).put rd.toNat v) s ∧
      (∀ i, i < 64 → v.getLsbD i = if 16 * h.toNat ≤ i ∧ i < 16 * h.toNat + 16 then k.getLsbD (i - 16 * h.toNat)
        else ((s.core c).get rd.toNat).getLsbD i))

/-- LOAD and STORE with SP 0 move 1 to 8 aligned bytes of stall memory. With SP 0, an aligned address below 0x10_0000
and clean stall memory, LOAD writes rd with the bytes read little-endian there, sign-extended when SX is 1 (SX 1 with
SZ 3 is no legal form), and STORE puts the low bytes of rs there: reading the range gives them, and every stall byte
outside it reads as before. An address that is no multiple of the size faults MISALIGNED, and an aligned one at or
above 0x10_0000 STALL_BOUNDS. Operands of one access of the media and of parity have no part in it. The program
counter moves by 4 and nothing else changes. Completion (exec answers a next state) is the conclusion for load and
store. -/
def Obligations.StallLoadsAndStores : Prop :=
  ∀ (s : State) (f : Fetch) (rd ra : BitVec 5) (sx l1 : Bool) (sz : BitVec 2) (off : BitVec 14) (m : MediaList)
    (e : Ecc), CanIssue f s → s.media = [] →
    let c := f.core.val
    let x := s.core c
    let n := 2 ^ sz.toNat
    let a := (x.get ra.toNat + BitVec.ofInt 64 off.toInt * BitVec.ofNat 64 n).toNat
    (a % n = 0 → a < 0x100000 → ¬(sx = true ∧ sz = 3) →
      exec (.load f rd ra false sx sz off .clean l1 m) s = .next (retire c (x.put rd.toNat
        (if sx then BitVec.signExtend 64 (BitVec.ofNat (8 * n) (mread x.stall a n)) else BitVec.ofNat 64 (mread x.stall a n))) s)) ∧
    (a % n = 0 → a < 0x100000 → Completes (.store f rd ra false false sz off m) s fun t => ∃ mem,
      t = retire c { x with stall := mem } s ∧ mread mem a n = (x.get rd.toNat).toNat % 256 ^ n ∧
      ∀ i, i < a ∨ a + n ≤ i → mget mem i = mget x.stall i) ∧
    (a % n ≠ 0 → ¬(sx = true ∧ sz = 3) →
      exec (.load f rd ra false sx sz off e l1 m) s = .next { engineFault c 0 fcMisaligned { s with media := m } with media := [] } ∧
      exec (.store f rd ra false false sz off m) s = .next { engineFault c 0 fcMisaligned { s with media := m } with media := [] }) ∧
    (a % n = 0 → 0x100000 ≤ a → ¬(sx = true ∧ sz = 3) →
      exec (.load f rd ra false sx sz off e l1 m) s = .next { engineFault c 0 fcStallBounds { s with media := m } with media := [] } ∧
      exec (.store f rd ra false false sz off m) s = .next { engineFault c 0 fcStallBounds { s with media := m } with media := [] })

/-- LOAD and STORE with SP 1 go through translation and the L1 data cache. With SP 1, an aligned address and a device-
tier translation, while no mapping is being withdrawn or moved, no change of configuration is in hand and no write
waits for its answer: a LOAD whose line is in the L1 gives the bytes of that line at the address; a STORE that the
memory side performs at once updates the line of the L1 that it hits, and the L1 is left alone where it misses. A
translation that fails stops the core with its cause, the address in the record. In each case every register but rd is
as it was. The translation caches of the core and its cluster see the page. Completion (exec answers a next state) is
the conclusion for LOAD and for STORE. -/
def Obligations.ContextLoadsAndStores : Prop :=
  ∀ (s u : State) (f : Fetch) (rd ra : BitVec 5) (sx : Bool) (sz : BitVec 2) (off : BitVec 14) (m : MediaList)
    (e : Ecc) (r : Nat), CanIssue f s → Calm s → ¬(sx = true ∧ sz = 3) →
    let c := f.core.val
    let x := s.core c
    let n := 2 ^ sz.toNat
    let a := effAddr x ra.toNat off sz.toNat
    let on := { s with media := m }
    let w := whoCore on c .scalar
    a % n = 0 →
    (∀ (y : Xlat) (d : LineData), translate s x.ctx a .read = .ok y → y.target = 0 → kget (y.pa / 64) x.l1 = some d →
      exec (.load f rd ra true sx sz off e false m) s = .next
        (let u := tlbTouch c x.ctx y.seg y.page on
         { retire c ((u.core c).put rd.toNat (extendLoad sx n (bytesAt d.toNat (y.pa % 64) n))) u with media := [] })) ∧
    (∀ y : Xlat, translate s x.ctx a .write = .ok y →
      writePiece w y n ((x.get rd.toNat).toNat % 2 ^ (8 * n))
        (tlbTouch c x.ctx y.seg y.page on) = (.ok r, u) →
      Completes (.store f rd ra true false sz off m) s fun t =>
        t.core c = ((u.core c).l1Store y.pa n ((x.get rd.toNat).toNat % 2 ^ (8 * n))).setPc (u.core c).nextPc ∧
        t.mem = u.mem ∧ t.lines = u.lines ∧ t.clusters = u.clusters ∧ t.out = u.out ∧ t.media = []) ∧
    (∀ (cause i : Nat), translate s x.ctx a .read = .err cause i →
      exec (.load f rd ra true sx sz off e false m) s = .next
        { engineFault c 0 cause on (va := some a) (seg := i) with media := [] })

/-- Branches compare ra with rb, and JUMP links and jumps. When the core issues: each of the six branches moves the
program counter to PC + sext(OFF) × 4 when its condition holds and by 4 when not, and changes nothing else; JUMP to an
aligned target writes PC + 4 to rd and goes to PC + sext(OFF) × 4 when ra is g0, to ga + sext(OFF) × 4 otherwise; a
target that is no multiple of 4 faults MISALIGNED; and a fetch at or beyond the code size faults IMEM_BOUNDS before
the instruction does anything. Completion (exec answers a next state) is the conclusion for branchEq, branchNe,
branchLt, branchGe, branchLtu, branchGeu and jump. -/
def Obligations.BranchesAndJumps : Prop :=
  ∀ (s : State) (f : Fetch) (rd ra rb : BitVec 5) (off : BitVec 13) (jo : BitVec 18), CanIssue f s →
    let c := f.core.val
    let x := s.core c
    let a := x.get ra.toNat
    let b := x.get rb.toNat
    let pc := BitVec.ofNat 64 x.pc
    let goes (i : Instr) (taken : Bool) : Prop := exec i s = .next (s.setCore c
      { x with pc := (if taken then pc + BitVec.ofInt 64 (off.toInt * 4) else pc + 4).toNat })
    let target := (if ra = 0 then pc else a) + BitVec.ofInt 64 (jo.toInt * 4)
    goes (.branchEq f false ra rb off) (decide (a = b)) ∧
    goes (.branchNe f false ra rb off) (decide (a ≠ b)) ∧
    goes (.branchLt f false ra rb off) (decide (a.toInt < b.toInt)) ∧
    goes (.branchGe f false ra rb off) (decide (b.toInt ≤ a.toInt)) ∧
    goes (.branchLtu f false ra rb off) (decide (a.toNat < b.toNat)) ∧
    goes (.branchGeu f false ra rb off) (decide (b.toNat ≤ a.toNat)) ∧
    (target.toNat % 4 = 0 → exec (.jump f rd ra jo) s = .next (s.setCore c { (x.put rd.toNat (pc + 4)) with pc := target.toNat })) ∧
    (target.toNat % 4 ≠ 0 → exec (.jump f rd ra jo) s = .next (engineFault c 0 fcMisaligned s)) ∧
    (∀ u : State, (u.core c).run = true → (u.core c).blk = none → u.power.shed < 4 → (u.core c).codeSize ≤ (u.core c).pc →
      exec (.jump f rd ra jo) u = .next (engineFault c 0 fcImemBounds u))

/-- What each atomic stores, and that it changes no other byte of the line. For every line, aligned place in it, width
of 4 or 8 bytes and operands of that width, an atomic gives the old little-endian value there, and puts in its place:
SWAP the operand; ADD the sum, wrapping; AND, OR, XOR bitwise; MINS and MAXS the smaller and larger as signed values
of the width, MINU and MAXU as unsigned; CAS the operand if the old value equals the compare value, else the old
value. The other bytes of the line keep their values. -/
def Obligations.AtomicResults : Prop :=
  ∀ (d : LineData) (off a b : Nat) (wide : Bool), off % (if wide then 8 else 4) = 0 → off < 64 →
    a < 2 ^ (if wide then 64 else 32) → b < 2 ^ (if wide then 64 else 32) →
    let n := if wide then 8 else 4
    let w := if wide then 64 else 32
    let old := d.toNat / 256 ^ off % 256 ^ n
    let so := (BitVec.ofNat w old).toInt
    let sa := (BitVec.ofNat w a).toInt
    let puts (op v : Nat) : Prop := (atomicOn d off n op a b).1 = old ∧
      (atomicOn d off n op a b).2.toNat / 256 ^ off % 256 ^ n = v ∧
      ∀ i, i < off ∨ off + n ≤ i → i < 64 → (atomicOn d off n op a b).2.toNat / 256 ^ i % 256 = d.toNat / 256 ^ i % 256
    puts 0 a ∧ puts 1 ((old + a) % 2 ^ w) ∧ puts 2 (old &&& a) ∧ puts 3 (old ||| a) ∧ puts 4 (old ^^^ a) ∧
    puts 5 (if so ≤ sa then old else a) ∧ puts 6 (if sa ≤ so then old else a) ∧
    puts 7 (min old a) ∧ puts 8 (max old a) ∧ puts 9 (if old = b then a else old)

/-- An atomic on a line its cluster holds in M or E runs in the cluster cache and gives rd the old value. For the ten
atomics at scope CORE or CLUS, with no mapping being withdrawn or moved, no change in hand and no write waiting for
its answer, an aligned address that translates to a COHERENT device-tier page and the line held unpoisoned in M or E
by the core's own cluster with no request in flight: rd receives the old value, the cluster's line is in M with the
new data, the core's L1 loses the line, and the program counter moves by 4. No message is sent and no other line of
that cluster changes. At scope QUAD, DEV or SYS the atomic runs at home: when home's answer is there, rd receives the
value it carries, cut to the size. An address that is not aligned to the size faults MISALIGNED at every scope.
Completion (exec answers a next state) is the conclusion for atomicSwap, atomicAdd, atomicAnd, atomicOr, atomicXor,
atomicMins, atomicMaxs, atomicMinu, atomicMaxu and cas. -/
def Obligations.AtomicsInTheClusterCache : Prop :=
  ∀ (s : State) (f : Fetch) (rd ra rb : BitVec 5) (sc : BitVec 3) (wide : Bool) (m : MediaList) (y : Xlat) (l : CLine),
    CanIssue f s → Calm s → 1 ≤ sc.toNat → sc.toNat ≤ 5 →
    let c := f.core.val
    let g := coreCluster c
    let x := s.core c
    let seenBy := (tlbTouch c x.ctx y.seg y.page s).core c
    let n := if wide then 8 else 4
    let a := (x.get ra.toNat).toNat
    let v := (x.get rb.toNat).toNat % 2 ^ (8 * n)
    let old (o : Nat) := atomicOn l.data (y.pa % 64) n o v (if o = 9 then (x.get rd.toNat).toNat % 2 ^ (8 * n) else 0)
    let at_ (i : Instr) (o : Nat) : Prop :=
      (sc.toNat ≤ 2 → a % n = 0 → translate s x.ctx a .rw = .ok y → y.target = 0 → y.stream = false →
        kget (y.pa / 64) (s.cluster g).lines = some l → kget (y.pa / 64) (s.cluster g).reqs = none → l.stream = false →
        l.poison = false → l.st = 2 ∨ l.st = 4 →
        Completes i s fun t =>
          t.core c = (((seenBy.l1Drop y.pa).put rd.toNat (BitVec.ofNat 64 (old o).1)).setPc x.nextPc) ∧
          kget (y.pa / 64) (t.cluster g).lines =
            some { l with st := 4, data := (old o).2, due := if l.due = 1 ∨ l.due = 2 then 0 else l.due } ∧
          (∀ k, k ≠ y.pa / 64 → kget k (t.cluster g).lines = kget k (s.cluster g).lines) ∧
          t.net = s.net ∧ t.out = s.out ∧ t.mem = s.mem ∧ t.lines = s.lines) ∧
      (∀ h : Ans, 3 ≤ sc.toNat → a % n = 0 → translate s x.ctx a .rw = .ok y → y.target = 0 → y.stream = false →
        kget (ansKey (whoCore s c .scalar).code y.pa) s.ans = some h → h.status = stOk → h.poison = false →
        Completes i s fun t =>
          t.core c = (((seenBy.l1Drop y.pa).put rd.toNat (BitVec.ofNat 64 (h.data.toNat % 2 ^ (8 * n)))).setPc x.nextPc) ∧
          t.mem = s.mem ∧ t.out = s.out) ∧
      (a % n ≠ 0 → exec i s = .next { engineFault c 0 fcMisaligned { s with media := m } with media := [] })
    at_ (.atomicSwap f rd ra rb sc wide 0 m) 0 ∧ at_ (.atomicAdd f rd ra rb sc wide 0 m) 1 ∧
    at_ (.atomicAnd f rd ra rb sc wide 0 m) 2 ∧ at_ (.atomicOr f rd ra rb sc wide 0 m) 3 ∧
    at_ (.atomicXor f rd ra rb sc wide 0 m) 4 ∧ at_ (.mins f rd ra rb sc wide 0 m) 5 ∧
    at_ (.maxs f rd ra rb sc wide 0 m) 6 ∧ at_ (.atomicMinu f rd ra rb sc wide 0 m) 7 ∧
    at_ (.atomicMaxu f rd ra rb sc wide 0 m) 8 ∧ at_ (.cas f rd ra rb sc wide 0 m) 9

/-- NOP, HALT, FENCE, L1INV, CSRR, CSRW, TRAP and WAITE. When the core issues: NOP only moves the program counter;
L1INV empties the L1; HALT with all FIFOs empty and all engines idle ends the program on the core; FENCE without
acquire, and one that releases at a scope narrower than SYS, only moves the program counter; a release at SYS does so
once the engine's window writes are acknowledged; one that acquires at CLUS empties the L1, at QUAD or wider also
advances the cluster's epoch; CSRR gives the status register (the core id, context, partition, mode and profile, the
quadrant's count, the flags, the free FIFO entries, the error counts) to rd; CSRW clears the flags it names by ones
and writes to a read-only register do nothing; TRAP faults USER_TRAP with its code as detail; WAITE on an idle engine
moves on, on a busy one whose commands run it blocks. An index that is not listed is ILLEGAL_INSTRUCTION. Completion
(exec answers a next state) is the conclusion for NOP, HALT, FENCE, L1INV, CSRR, CSRW, TRAP and WAITE. -/
def Obligations.SystemInstructions : Prop :=
  ∀ (s : State) (f : Fetch) (rd ra : BitVec 5) (imm : BitVec 12), CanIssue f s →
    let c := f.core.val
    let x := s.core c
    let reg (i : Nat) (v : Nat) : Prop :=
      exec (.csrr f rd 0 (BitVec.ofNat 12 i)) s = .next (retire c (x.put rd.toNat (BitVec.ofNat 64 v)) s)
    exec (.nop f 0 0 0) s = .next (retire c x s) ∧
    exec (.l1inv f 0 0 0) s = .next (retire c { x with l1 := [] } s) ∧
    (x.vec.idle = true → x.mtx.idle = true → x.dma.idle = true → exec (.halt f 0 0 0) s =
      .next (settleLaunches (stopCore c false (s.setCore c { x with blk := some .halt })))) ∧
    (∀ sc : BitVec 12, 1 ≤ sc.toNat → sc.toNat ≤ 5 → exec (.fence f 0 0 sc) s = .next (retire c x s)) ∧
    exec (.fence f 0 0 9) s = .next (retire c x s) ∧
    (∀ sc : BitVec 12, 17 ≤ sc.toNat → sc.toNat ≤ 20 → exec (.fence f 0 0 sc) s = .next (retire c x s)) ∧
    (∀ u : State, sysRelease (4 * c + 1) s = (true, u) → exec (.fence f 0 0 21) s = .next (retire c (u.core c) u)) ∧
    (∀ u : State, sysRelease (4 * c + 1) s = (false, u) → exec (.fence f 0 0 21) s = .next u) ∧
    exec (.fence f 0 0 10) s = .next (retire c { x with l1 := [] } (s.setCore c { x with l1 := [] })) ∧
    (∀ sc : BitVec 12, 11 ≤ sc.toNat → sc.toNat ≤ 13 → exec (.fence f 0 0 sc) s =
      let u := epochAdvance (coreCluster c) (s.setCore c { x with l1 := [] })
      .next (retire c (u.core c) u)) ∧
    reg 0x000 c ∧ reg 0x001 (x.ctx % 2 ^ 20 + x.part.val * 2 ^ 20 + (if x.det then 2 ^ 23 else 0) + s.fuse.profile % 16 * 2 ^ 24) ∧
    reg 0x002 (s.count (0x10 + coreQuad c)) ∧ reg 0x010 x.vflags.toNat ∧ reg 0x011 (if x.accSat then 1 else 0) ∧
    reg 0x020 ((32 - x.vec.fifo.length) % 64 + (32 - x.mtx.fifo.length) % 64 * 2 ^ 8 + (32 - x.dma.fifo.length) % 64 * 2 ^ 16) ∧
    reg 0x030 (x.eccStall % 2 ^ 16 + x.eccL1 % 2 ^ 16 * 2 ^ 16) ∧
    exec (.csrw f 0 ra 0x010) s = .next (retire c { x with vflags := x.vflags &&& ~~~((x.get ra.toNat).truncate 6) } s) ∧
    exec (.csrw f 0 ra 0x011) s = .next (retire c { x with accSat := x.accSat && !(x.get ra.toNat).getLsbD 0 } s) ∧
    exec (.csrw f 0 ra 0x000) s = .next (retire c x s) ∧ exec (.csrw f 0 ra 0x001) s = .next (retire c x s) ∧
    exec (.csrw f 0 ra 0x002) s = .next (retire c x s) ∧ exec (.csrw f 0 ra 0x020) s = .next (retire c x s) ∧
    exec (.csrw f 0 ra 0x030) s = .next (retire c x s) ∧
    (imm ∉ [0x000, 0x001, 0x002, 0x010, 0x011, 0x020, 0x030] →
      exec (.csrr f rd 0 imm) s = .next (engineFault c 0 fcIllegal s) ∧
      exec (.csrw f 0 ra imm) s = .next (engineFault c 0 fcIllegal s)) ∧
    exec (.trap f 0 0 imm) s = .next (engineFault c 0 fcUserTrap s (detail := imm.toNat)) ∧
    (∀ e : Fin 3, (x.eng (engOf e.val)).idle = true →
      exec (.waite f 0 0 (BitVec.ofNat 12 e.val)) s = .next (retire c { x with blk := none } (s.setCore c { x with blk := some (.waite e.val) }))) ∧
    (∀ (e : Fin 3) (w : BitVec 256), (x.eng (engOf e.val)).granted = some w →
      exec (.waite f 0 0 (BitVec.ofNat 12 e.val)) s = .next (s.setCore c { x with blk := some (.waite e.val) }))

/-- ENQ, SWAIT, SSIG, SREAD, SEMAPHORE_GRANT and the completion of an engine's command. When the core issues, no
command waits for validation or semaphore at the engine, and its FIFO has room: ENQ copies ga+3, ga+2, ga+1, ga as
words w3 to w0 behind the engine's FIFO and moves on (an engine that runs a command leaves the new one waiting). SWAIT
whose count the semaphore holds subtracts it and moves on; one it does not hold blocks the scalar engine, here with
another engine at work. SSIG adds its count; above 65,535 it faults SEM_OVERFLOW and the count stays. SREAD gives the
count to rd. SEMAPHORE_GRANT lets a blocked SWAIT go on once the count is there. ENGINE_COMMAND_COMPLETE takes the
oldest command whose effect is made, counts it and adds its signal, here with the scalar engine free and no accepted
write waiting for its answer. Completion (exec answers a next state) is the conclusion for ENQ, SWAIT, SSIG, SREAD,
SEMAPHORE_GRANT and ENGINE_COMMAND_COMPLETE. -/
def Obligations.SemaphoresAndFifos : Prop :=
  ∀ (s : State) (f : Fetch) (rd ra : BitVec 5) (sem : BitVec 4) (n : BitVec 16) (w : BitVec 256), CanIssue f s →
    let c := f.core.val
    let x := s.core c
    let has := x.sem sem.toNat
    (∀ (e : Fin 3) (k : Nat), ra.toNat = 4 * (k + 1) → (x.eng (engOf e.val)).granted = some w → (x.eng (engOf e.val)).fifo.length < 32 →
      exec (.enq f (BitVec.ofNat 2 e.val) 0 ra 0) s = .next (retire c (x.setEng (engOf e.val) { x.eng (engOf e.val) with
        fifo := (x.eng (engOf e.val)).fifo ++
          [x.get (ra.toNat + 3) ++ x.get (ra.toNat + 2) ++ x.get (ra.toNat + 1) ++ x.get ra.toNat] }) s)) ∧
    (n.toNat ≤ has → Completes (.swait f sem 0 false n) s fun t =>
      t.core c = ({ x.setSem sem.toNat (has - n.toNat) with blk := none }).setPc x.nextPc ∧ t.out = s.out ∧ t.mem = s.mem) ∧
    (has < n.toNat → x.vec.granted = some w → x.vec.checked = false →
      exec (.swait f sem 0 false n) s = .next (s.setCore c { x with blk := some (.swait sem.toNat n.toNat) })) ∧
    (has + n.toNat ≤ 65535 → n ≠ 0 → Completes (.ssig f sem 0 false n) s fun t =>
      t.core c = (x.setSem sem.toNat (has + n.toNat)).setPc x.nextPc ∧ t.out = s.out ∧ t.mem = s.mem) ∧
    (65535 < has + n.toNat → n ≠ 0 → Completes (.ssig f sem 0 false n) s fun t =>
      t = (let u := engineFault c 0 fcSemOverflow s; if (u.core c).run then retire c (u.core c) u else u)) ∧
    exec (.sread f sem rd false 0) s = .next (retire c (x.put rd.toNat (BitVec.ofNat 64 has)) s) ∧
    (∀ (u : State) (d : Fin 4000), u.power.shed < 4 → (u.core d.val).run = true →
      (u.core d.val).blk = some (.swait sem.toNat n.toNat) → n.toNat ≤ (u.core d.val).sem sem.toNat →
      (u.core d.val).vec.fifo = [] → (u.core d.val).mtx.fifo = [] → (u.core d.val).dma.fifo = [] →
      Completes (.semaphoreGrant d) u fun t =>
        t.core d.val = ({ (u.core d.val).setSem sem.toNat ((u.core d.val).sem sem.toNat - n.toNat) with blk := none }).setPc
          (u.core d.val).nextPc ∧ t.out = u.out ∧ t.mem = u.mem) ∧
    (∀ (e : Fin 3) (l : List (BitVec 256)), let k := x.eng (engOf e.val)
      let taken := x.setEng (engOf e.val) { k with done := l, finished := k.finished + 1 }
      k.done = w :: l → (engOf e.val = .dma → s.posted = [] ∧ dAck w ≠ 5) →
      x.sem (cSigSem w) + cSigCnt w ≤ 65535 →
      Completes (.engineCommandComplete f.core (BitVec.ofNat 2 e.val)) s fun t =>
        t.core c = (if cSigCnt w = 0 then taken else taken.setSem (cSigSem w) (x.sem (cSigSem w) + cSigCnt w)) ∧ t.out = s.out ∧ t.mem = s.mem)

/-- A fault stops its core, keeps it from running, and makes an ACTIVE context LOST with the cause. STOP of a running
core leaves it not running, with no command in any engine and its scalar engine unblocked, and notes the context that
ran and, for a fault, that stall memory must be cleared. An instruction whose reserved bits are not 0, an SX of 1 with
SZ 3, an ENQ of engine 3, and an atomic of scope 0, 6 or 7 take ILLEGAL_INSTRUCTION; a fetch that fails parity takes
IMEM_PARITY; the record is that of engine 0 of the core with the instruction's program counter. -/
def Obligations.FaultsOfACore : Prop :=
  (∀ (s : State) (c : Nat) (b : Bool), (s.core c).run = true →
    let y := (stopCore c b s).core c
    y.run = false ∧ y.blk = none ∧ y.vec.idle = true ∧ y.mtx.idle = true ∧ y.dma.idle = true ∧
    y.prevCtx = some (s.core c).ctx ∧ (b = true → y.dirty = true) ∧ (stopCore c b s).mem = s.mem) ∧
  (∀ (s : State) (f : Fetch) (rd ra rb : BitVec 5) (r6 : BitVec 6) (m : MediaList) (wide : Bool) (sc : BitVec 3) (e : Ecc)
     (off : BitVec 14), CanIssue f s → s.media = [] →
    let ill := Host.Outcome.next (engineFault f.core.val 0 fcIllegal s)
    (r6 ≠ 0 → exec (.add f rd ra rb r6) s = ill ∧ exec (.remu f rd ra rb r6) s = ill) ∧
    exec (.load f rd ra false true 3 off e false []) s = .next { engineFault f.core.val 0 fcIllegal s with media := [] } ∧
    exec (.enq f 3 0 ra 0) s = ill ∧
    (sc = 0 ∨ sc = 6 ∨ sc = 7 → exec (.cas f rd ra rb sc wide 0 m) s =
      .next { engineFault f.core.val 0 fcIllegal { s with media := m } with media := [] })) ∧
  (∀ (s : State) (f : Fetch), (s.core f.core.val).run = true → (s.core f.core.val).blk = none → s.power.shed < 4 →
    (s.core f.core.val).pc < (s.core f.core.val).codeSize → f.parity = true →
    exec (.nop f 0 0 0) s = .next (engineFault f.core.val 0 fcImemParity s))

/-- Vector operands come from a stall stream, a vector register or the immediate. For every command word whose
elements have 4 bytes, group g and element j below 64 of operand o (A, B or C): with SEL 0 it is the four little-
endian stall bytes at ADDR + 32 × STR × g + 4j, with SEL 1 bytes 4j to 4j + 3 of the vector register, with SEL 2 the
immediate. VCVT, whose elements take the size of its type, has element j at bytes size × j of the group or register.
And when a stream would reach 0x10_0000 or beyond, every vector command of R67 but VQUANT and VDEQ only faults
STALL_BOUNDS, whatever the code of stall memory finds. -/
def Obligations.VectorSources : Prop :=
  (∀ (x : Core) (w : BitVec 256) (g o j : Nat), j < 64 →
    let n := (vSizes w).1
    vSel w o ≤ 1 ∨ n = 4 →
    (vSource x w g o).1 / 256 ^ (n * j) % 256 ^ n =
      if vSel w o = 0 then mread x.stall (vAddr w o + 32 * vStr w o * g + n * j) n
      else if vSel w o = 1 then (x.vget (vReg w o)).toNat / 256 ^ (n * j) % 256 ^ n else vImm w) ∧
  (∀ (s : State) (core : Fin 4000) (w : BitVec 256) (e : Ecc) (uses : List Nat), (s.core core.val).run = true →
    (s.core core.val).vec.granted = some w → vCount w ≠ 0 → vUses (cOp w) = some uses → vInBounds w uses = false →
    let stops (op : Nat) (i : Fin 4000 → Ecc → Instr) : Prop :=
      cOp w = op → exec (i core e) s = .next (engineFault core.val 1 fcStallBounds s)
    stops 0x01 .vfadd ∧ stops 0x02 .vfsub ∧ stops 0x03 .vfmul ∧ stops 0x04 .vfma ∧ stops 0x05 .vfmin ∧ stops 0x06 .vfmax ∧
    stops 0x08 .vmov ∧ stops 0x10 .viadd ∧ stops 0x11 .visub ∧ stops 0x12 .vimul ∧ stops 0x13 .vimin ∧ stops 0x14 .vimax ∧
    stops 0x15 .vand ∧ stops 0x16 .vor ∧ stops 0x17 .vxor ∧ stops 0x18 .vshl ∧ stops 0x19 .vshr ∧ stops 0x1A .vsra ∧
    stops 0x20 .vsel ∧ stops 0x30 .vcvt ∧ stops 0x50 .vrsum ∧ stops 0x51 .vrmax ∧ stops 0x52 .vhsum ∧
    ∀ k : Nat, vImm w = k → (k = 0 → stops 0x40 .recip) ∧ (k = 1 → stops 0x40 .rsqrt) ∧ (k = 2 → stops 0x40 .sqrt) ∧
      (k = 3 → stops 0x40 .exp2) ∧ (k = 4 → stops 0x40 .log2) ∧ (k = 5 → stops 0x40 .exp) ∧ (k = 6 → stops 0x40 .ln) ∧
      (k = 7 → stops 0x40 .tanh) ∧ (k = 8 → stops 0x40 .sigmoid) ∧ (k = 9 → stops 0x40 .gelu) ∧ (k = 10 → stops 0x40 .sin) ∧
      (k = 11 → stops 0x40 .cos))

/-- VMOV, VSEL and the INT32 and bitwise vector operations, lane by lane. For a vector command granted on a running
core, its streams in stall memory and its destination stream apart from its sources (or coinciding), COUNT groups are
computed one after another; element j of each group becomes: VMOV A; VSEL A where C is not 0, else B; VIADD, VISUB,
VIMUL the INT32 sum, difference, product, with SAT clipped to the range with INT_SAT, else wrapped; VIMIN, VIMAX the
signed smaller and larger; VAND, VOR, VXOR bitwise; VSHL, VSHR, VSRA the shift of A by B[4:0]. Results go to VD or the
destination stream. Only vector registers, stall memory, marks and flags of that core change before the engine goes
on. Completion (exec answers a next state t) is the conclusion for each of VMOV, VSEL, VIADD, VISUB, VIMUL, VIMIN,
VIMAX, VAND, VOR, VXOR, VSHL, VSHR and VSRA. -/
def Obligations.VectorIntegersAndMoves : Prop :=
  ∀ (s : State) (core : Fin 4000) (w : BitVec 256) (uses : List Nat), (s.core core.val).run = true →
    (s.core core.val).vec.granted = some w → vUses (cOp w) = some uses → vInBounds w uses = true →
    vOverlap w uses = false →
    let el (o : Nat) (x : Core) (g j : Nat) : Nat := lane (vSource x w g o).1 j
    let runs (op : Nat) (i : Instr) (res : Core → Nat → Nat → FRes) : Prop :=
      cOp w = op → ∃ t, exec i s = .next t ∧ GroupsRun core.val w s t res
    let int (f : Int → Int → Int) (x : Core) (g j : Nat) : FRes :=
      let r := f (BitVec.ofNat 32 (el 0 x g j)).toInt (BitVec.ofNat 32 (el 1 x g j)).toInt
      if vSat w = true ∧ r < -2 ^ 31 then { code := 2 ^ 31, flags := vfIntSat }
      else if vSat w = true ∧ 2 ^ 31 ≤ r then { code := 2 ^ 31 - 1, flags := vfIntSat }
      else { code := (r % 2 ^ 32).toNat }
    let word (f : W32 → W32 → Nat) (x : Core) (g j : Nat) : FRes :=
      { code := f (BitVec.ofNat 32 (el 0 x g j)) (BitVec.ofNat 32 (el 1 x g j)) }
    runs 0x08 (.vmov core .clean) (fun x g j => { code := el 0 x g j }) ∧
    runs 0x20 (.vsel core .clean) (fun x g j => { code := if el 2 x g j ≠ 0 then el 0 x g j else el 1 x g j }) ∧
    runs 0x10 (.viadd core .clean) (int fun a b => a + b) ∧
    runs 0x11 (.visub core .clean) (int fun a b => a - b) ∧
    runs 0x12 (.vimul core .clean) (int fun a b => a * b) ∧
    runs 0x13 (.vimin core .clean) (word fun a b => if a.toInt ≤ b.toInt then a.toNat else b.toNat) ∧
    runs 0x14 (.vimax core .clean) (word fun a b => if a.toInt ≤ b.toInt then b.toNat else a.toNat) ∧
    runs 0x15 (.vand core .clean) (word fun a b => a.toNat &&& b.toNat) ∧
    runs 0x16 (.vor core .clean) (word fun a b => a.toNat ||| b.toNat) ∧
    runs 0x17 (.vxor core .clean) (word fun a b => a.toNat ^^^ b.toNat) ∧
    runs 0x18 (.vshl core .clean) (word fun a b => a.toNat * 2 ^ (b.toNat % 32) % 2 ^ 32) ∧
    runs 0x19 (.vshr core .clean) (word fun a b => a.toNat / 2 ^ (b.toNat % 32)) ∧
    runs 0x1A (.vsra core .clean) (word fun a b => (a.toInt / 2 ^ (b.toNat % 32) % 2 ^ 32).toNat)

/-- The FP32 vector operations, VCVT, the special functions and the reductions, lane by lane. Under the same premises:
VFADD, VFSUB, VFMUL, VFMA, VFMIN and VFMAX give element j the FP32 result of the elements of A, B and C under RM; VCVT
converts it between its types; the twelve special functions apply to A, correctly rounded when the core is in
deterministic mode; VRSUM adds A to VD and VRMAX takes the larger, group 0 first; VHSUM gives lane 0 the sum of the
fixed tree of six levels and the other lanes 0. Flags set by the elements are or-ed into CL_CORE_VFLAGS. Completion
(exec answers a next state t) is the conclusion for each of VFADD, VFSUB, VFMUL, VFMA, VFMIN, VFMAX, VCVT, RECIP,
RSQRT, SQRT, EXP2, LOG2, EXP, LN, TANH, SIGMOID, GELU, SIN, COS, VRSUM, VRMAX and VHSUM. -/
def Obligations.VectorFloatsAndConversions : Prop :=
  ∀ (s : State) (core : Fin 4000) (w : BitVec 256) (uses : List Nat), (s.core core.val).run = true →
    (s.core core.val).vec.granted = some w → vUses (cOp w) = some uses → vInBounds w uses = true →
    vOverlap w uses = false →
    let el (o : Nat) (x : Core) (g j : Nat) : Nat := bytesAt (vSource x w g o).1 ((vSizes w).1 * j) (vSizes w).1
    let fl (o : Nat) (x : Core) (g j : Nat) : FVal := decodeFlt fp32 (el o x g j)
    let vd (x : Core) (j : Nat) : Nat := (x.vget (vVd w)).toNat / 256 ^ (4 * j) % 256 ^ 4
    let runs (op : Nat) (i : Instr) (res : Core → Nat → Nat → FRes) : Prop :=
      cOp w = op → ∃ t, exec i s = .next t ∧ GroupsRun core.val w s t res
    let fn (k : Nat) (i : Instr) : Prop := cOp w = 0x40 → vImm w = k →
      ∃ t, exec i s = .next t ∧ GroupsRun core.val w s t fun x g j => vsf k (vRm w) x.det (el 0 x g j)
    runs 0x01 (.vfadd core .clean) (fun x g j => add32 (vRm w) (fl 0 x g j) (fl 1 x g j)) ∧
    runs 0x02 (.vfsub core .clean) (fun x g j => add32 (vRm w) (fl 0 x g j) (fl 1 x g j).negate) ∧
    runs 0x03 (.vfmul core .clean) (fun x g j => mul32 (vRm w) (fl 0 x g j) (fl 1 x g j)) ∧
    runs 0x04 (.vfma core .clean) (fun x g j => fma32 (vRm w) (fl 0 x g j) (fl 1 x g j) (fl 2 x g j)) ∧
    runs 0x05 (.vfmin core .clean) (fun x g j => minMax32 false (el 0 x g j) (el 1 x g j)) ∧
    runs 0x06 (.vfmax core .clean) (fun x g j => minMax32 true (el 0 x g j) (el 1 x g j)) ∧
    runs 0x30 (.vcvt core .clean) (fun x g j => vcvt (vImm w % 16) (vImm w / 16 % 16) (vRm w) (el 0 x g j)) ∧
    fn 0 (.recip core .clean) ∧ fn 1 (.rsqrt core .clean) ∧ fn 2 (.sqrt core .clean) ∧ fn 3 (.exp2 core .clean) ∧
    fn 4 (.log2 core .clean) ∧ fn 5 (.exp core .clean) ∧ fn 6 (.ln core .clean) ∧ fn 7 (.tanh core .clean) ∧
    fn 8 (.sigmoid core .clean) ∧ fn 9 (.gelu core .clean) ∧ fn 10 (.sin core .clean) ∧ fn 11 (.cos core .clean) ∧
    runs 0x50 (.vrsum core .clean) (fun x g j => add32 (vRm w) (decodeFlt fp32 (vd x j)) (fl 0 x g j)) ∧
    runs 0x51 (.vrmax core .clean) (fun x g j => minMax32 true (vd x j) (el 0 x g j)) ∧
    (cOp w = 0x52 → ∃ t, exec (.vhsum core .clean) s = .next t ∧ ∃ x : Nat → Core, x 0 = s.core core.val ∧
      t = engineDone core.val .vector (if vCount w = 0 then s else s.setCore core.val (x (vCount w))) ∧
      ∀ g, g < vCount w → ∀ j, j < 64 →
        destElement (x (g + 1)) w g j = if j = 0 then pairSum (vRm w) (el 0 (x g) g) 6 0 % 2 ^ 32 else 0)

/-- NaNs, infinities, zeros and order of FP32 arithmetic. A NaN operand of an addition, a multiplication or a fused
multiply-add gives the canonical quiet NaN 0x7FC0_0000; infinity minus infinity and zero times infinity give it with
INVALID; an infinity keeps its sign. An exact zero sum of unlike signs is +0, and -0 toward minus infinity.
minimumNumber and maximumNumber give the number when one operand is a NaN and order -0 below +0. A NaN converts to the
integer 0 with INVALID, an infinity to the nearest end with INT_SAT. RECIP of ±0 is ±infinity with DIV_ZERO, SQRT of a
negative number and SIN and COS beyond 4,096 are the quiet NaN with INVALID, in both modes. -/
def Obligations.FloatSpecialValues : Prop :=
  (∀ (rm : Nat) (b n : Bool) (x y : FVal), (add32 rm (.nan b) x).code = 0x7FC00000 ∧ (add32 rm x (.nan b)).code = 0x7FC00000 ∧
    (mul32 rm (.nan b) x).code = 0x7FC00000 ∧ (mul32 rm x (.nan b)).code = 0x7FC00000 ∧
    (fma32 rm (.nan b) x y).code = 0x7FC00000 ∧ (fma32 rm x y (.nan b)).code = 0x7FC00000 ∧
    add32 rm (.inf n) (.inf !n) = { code := 0x7FC00000, flags := vfInvalid } ∧
    (∀ m : Bool, mul32 rm (.fin m 0) (.inf n) = { code := 0x7FC00000, flags := vfInvalid }) ∧
    (∀ (m : Bool) (q : Rat), (add32 rm (.inf n) (.fin m q)).code = (if n then 0xFF800000 else 0x7F800000)) ∧
    (add32 rm (.fin n 0) (.fin (!n) 0)).code = (if rm = 2 then 0x80000000 else 0) ∧
    (add32 rm (.fin n 0) (.fin n 0)).code = (if n then 0x80000000 else 0)) ∧
  (∀ a : Nat, (decodeFlt fp32 a).isNan = false → (minMax32 false a 0x7FC00000).code = a ∧ (minMax32 true 0x7FC00000 a).code = a ∧
    (minMax32 false 0x7F800001 a).flags = vfInvalid) ∧
  (minMax32 false 0 0x80000000).code = 0x80000000 ∧ (minMax32 true 0x80000000 0).code = 0 ∧
  (∀ rm b, cvtInt true 32 rm (.nan b) = { code := 0, flags := vfInvalid }) ∧
  (∀ rm, cvtInt true 32 rm (.inf true) = { code := 0x80000000, flags := vfIntSat } ∧
    cvtInt true 32 rm (.inf false) = { code := 0x7FFFFFFF, flags := vfIntSat } ∧
    cvtInt false 8 rm (.inf false) = { code := 255, flags := vfIntSat } ∧ cvtInt false 8 rm (.inf true) = { code := 0, flags := vfIntSat }) ∧
  (∀ (rm : Nat) (det : Bool), vsf 0 rm det 0 = { code := 0x7F800000, flags := vfDivZero } ∧
    vsf 0 rm det 0x80000000 = { code := 0xFF800000, flags := vfDivZero } ∧
    vsf 2 rm det 0xBF800000 = { code := 0x7FC00000, flags := vfInvalid } ∧
    vsf 10 rm det 0x45800001 = { code := 0x7FC00000, flags := vfInvalid } ∧
    vsf 11 rm det 0x45800001 = { code := 0x7FC00000, flags := vfInvalid })

/-- VQUANT writes tagged tiles and census records, VDEQ reads tiles back. VQUANT whose policy register breaks R134
faults COMMAND_INVALID; one of COUNT 0 only completes; else, within stall memory and with source apart from
destination, its COUNT tiles are made one after another. One tile on a running core puts its header at the destination
(the format of the last attempt, the rows, the tile scale as FP32, the census sequence number), changes no stall byte
outside the tile, and raises the sequence number. VDEQ of one valid tile writes 32 FP32 values a row, each the value
of the element by its scales rounded to FP32, and changes no other stall byte; a header that breaks R126 or R129
faults TILE_HEADER. Completion (exec answers a next state) is the conclusion for vquant and vdeq. -/
def Obligations.QuantizingStoreAndLoad : Prop :=
  (∀ (s : State) (core : Fin 4000) (w : BitVec 256), (s.core core.val).run = true →
    (s.core core.val).vec.granted = some w → cOp w = 0x60 →
    let pol := ((s.core core.val).vget (vReg w 1)).toNat
    (∀ e, quantReq w pol s.fuse.profile = none → exec (.vquant core e) s = .next (engineFault core.val 1 fcCommandInvalid s)) ∧
    (∀ (e : Ecc) (q : QReq), quantReq w pol s.fuse.profile = some q → vCount w = 0 →
      exec (.vquant core e) s = .next (engineDone core.val .vector s)) ∧
    (∀ q : QReq, quantReq w pol s.fuse.profile = some q → vCount w ≠ 0 → widest q ≤ 32 * vStrD w →
      vAddr w 0 + 32 * vStr w 0 * (vCount w - 1) + 128 * q.rows ≤ 0x100000 →
      vAddrD w + 32 * vStrD w * (vCount w - 1) + widest q ≤ 0x100000 →
      (∀ i j, i < vCount w → j < vCount w →
        overlaps (vAddr w 0 + 32 * vStr w 0 * i) (128 * q.rows) (vAddrD w + 32 * vStrD w * j) (widest q) = false) →
      exec (.vquant core .clean) s =
        .next (engineDone core.val .vector (foldS (List.range (vCount w)) (quantTile core.val w q pol none) s)))) ∧
  (∀ (s : State) (core : Fin 4000) (w : BitVec 256) (q : QReq) (pol i : Nat), (s.core core.val).run = true → 1 ≤ q.rows → q.rows ≤ 32 →
    let x := s.core core.val
    let d := vAddrD w + 32 * vStrD w * i
    let src := (List.range (32 * q.rows)).map fun j => decodeFlt fp32 (mread x.stall (vAddr w 0 + 32 * vStr w 0 * i + 4 * j) 4)
    let t := (attempts q src ((lane pol 7 + i) % 2 ^ 32) (lane pol 8) (lane pol 9) q.escMax q.req).getLastD default
    ∃ (y : Core) (word : Nat), quantTile core.val w q pol none i s = censusPut core.val word (s.setCore core.val y) ∧
      (mget y.stall d).toNat % 16 = t.fmt % 16 ∧ (mget y.stall (d + 1)).toNat = q.rows ∧
      mread y.stall (d + 4) 4 = fp32Code t.st % 2 ^ 32 ∧ mread y.stall (d + 12) 4 = x.seq % 2 ^ 32 ∧ y.seq = x.seq + 1 ∧
      (∀ a, a < d ∨ d + tileSize t.fmt q.rows ≤ a → mget y.stall a = mget x.stall a)) ∧
  (∀ (s : State) (core : Fin 4000) (w : BitVec 256) (f rows : Nat) (col : Bool) (ts : Rat), (s.core core.val).run = true →
    (s.core core.val).vec.granted = some w → cOp w = 0x61 → vCount w = 1 →
    let x := s.core core.val
    let a := vAddr w 0
    let d := vAddrD w
    a + 32 ≤ 0x100000 →
    (headerOf (mread x.stall a 32) = none → exec (.vdeq core .clean) s = .next (engineFault core.val 1 fcTileHeader s)) ∧
    (headerOf (mread x.stall a 32) = some (f, col, rows, ts) → a + tileSize f rows ≤ 0x100000 → d + 128 * rows ≤ 0x100000 →
      overlaps a (tileSize f rows) d (128 * rows) = false →
      Completes (.vdeq core .clean) s fun t => ∃ y : Core, t = engineDone core.val .vector (s.setCore core.val y) ∧
        (∀ i, i < 32 * rows → mread y.stall (d + 4 * i) 4 = (deqElement f
          (if blockScaled f then (mget x.stall (a + scalePart f rows + (if col then i % 32 else i / 32))).toNat else 0)
          (packedAt f (mread x.stall (a + 32 + i / 32 * tilePitch f) (tilePitch f)) (i % 32))
          (if (vImm w).testBit 0 then 1 else ts)).code % 2 ^ 32) ∧
        (∀ b, b < d ∨ d + 128 * rows ≤ b → mget y.stall b = mget x.stall b) ∧
        { y with stall := x.stall, marks := x.marks, vflags := x.vflags } = x))

/-- MLOADW fills and arms the shadow tile, MMAC multiplies vectors by the active tile. A command of K, M or N 0 only
completes. MLOADW makes the shadow tile hold element (k, m) of row k at ADDR_W + k × pitch for k below K and m below M
and nothing outside, its scales the bytes at ADDR_SW, and arms it; nothing else of the core changes. MMAC first makes
an armed shadow the active tile and draws its swatches (none at RATE 0); then for each vector n and column m below M
the accumulator at ADDR_ACC + n × STR_ACC + 4m takes the old value (0 with CLEAR) plus the exact dot product of the
vector with the column, in INT32 or FP32 with saturation, or a free value where accumulators and operands overlap; no
byte outside row n changes, and ACC_SAT gathers. Completion (exec answers a next state) is the conclusion for mloadw
and mmac. -/
def Obligations.MatrixArray : Prop :=
  ∀ (s : State) (core : Fin 4000) (w : BitVec 256), (s.core core.val).run = true → (s.core core.val).mtx.granted = some w →
    mK w ≤ 32 → mM w ≤ 32 →
    let x := s.core core.val
    let f := mFmtW w
    (∀ e, cOp w = 1 → mK w = 0 ∨ mM w = 0 → exec (.mloadw core e) s = .next (engineDone core.val .matrix s)) ∧
    (∀ e, cOp w = 2 → mK w = 0 ∨ mM w = 0 ∨ mN w = 0 → exec (.mmac core e) s = .next (engineDone core.val .matrix s)) ∧
    (cOp w = 1 → mK w ≠ 0 → mM w ≠ 0 → Completes (.mloadw core .clean) s fun t => ∃ h : Tile,
      t = engineDone core.val .matrix (s.setCore core.val { x with shadow := h, armed := true }) ∧
      h.k = mK w ∧ h.m = mM w ∧ h.fmt = f ∧
      (∀ k m, k < 32 → m < 32 → kget (32 * k + m) h.w = if k < mK w ∧ m < mM w then
        some (mread x.stall (mAddrW w + k * tilePitch f) (tilePitch f) / 2 ^ (fmtBits f * m) % 2 ^ fmtBits f) else none) ∧
      (∀ m, kget m h.s = if blockScaled f = true ∧ m < mM w then some (mget x.stall (mAddrSw w + m)).toNat else none)) ∧
    (cOp w = 2 → mK w ≠ 0 → mM w ≠ 0 → mN w ≠ 0 → Completes (.mmac core .clean) s fun t => ∃ y : Nat → Core,
      let ready := s.setCore core.val (if x.armed then { x with active := x.shadow, armed := false } else x)
      let u := swatchPick core.val w ready
      y 0 = u.core core.val ∧ (swatchRate core.val s = 0 → u = ready) ∧
      { y 0 with swatch := x.swatch } = ready.core core.val ∧
      t = engineDone core.val .matrix ({ u with free := u.free + 32 * mN w }.setCore core.val (y (mN w))) ∧
      ∀ n, n < mN w →
        let row := mAddrAcc w + n * mStrAcc w
        let res (m : Nat) : AccRes :=
          let old := if mClear w then 0 else mread (y n).stall (row + 4 * m) 4
          let e := dotColumn (y 0).active w (vecBytes (y n) w n) (vecScale (y n) w n) m
          if mmacOverlap w then ((Config.free32 (u.free + 32 * n + m)).toNat, Config.freeBool (u.free + 32 * n + m))
          else if intAcc (mFmtA w) then accInt old e (u.free + 32 * n + m) else accFloat old e
        (∀ m, m < mM w → mread (y (n + 1)).stall (row + 4 * m) 4 = (res m).1 % 2 ^ 32) ∧
        (∀ a, a < row ∨ row + 4 * mM w ≤ a → mget (y (n + 1)).stall a = mget (y n).stall a) ∧
        (y (n + 1)).accSat = ((y n).accSat || (List.range (mM w)).any fun m => (res m).2) ∧
        { y (n + 1) with stall := (y n).stall, marks := (y n).marks, accSat := (y n).accSat } = y n)

/-- COPY and its FILL form move rows, and a home's late refusal faults the issuing engine. A COPY of no rows or no
bytes only completes. From stall memory to stall memory within bounds, its destination rows apart from its source and
from one another: byte j of row i at DST + i × DST_STRIDE takes byte j of row i at SRC + i × SRC_STRIDE; FILL puts
byte j mod 4 of the pattern there; other stall bytes keep their values, and only stall memory and marks change. A copy
whose pieces are all made, whatever spaces it moves between, completes; one out of bounds faults STALL_BOUNDS.
WRITE_REFUSAL: a write that waits for its answer and that its home refuses is taken away and faults the engine and
context that issued it; with no write waiting, a refusal faults the running core's engine, the address in the record,
with the cause of the refusal; where the home accepts, or the core is stopped, nothing happens. Completion (exec
answers a next state) is the conclusion for copy, copyFill and writeRefusal. -/
def Obligations.DmaCopies : Prop :=
  (∀ (s : State) (core : Fin 4000) (w : BitVec 256) (m : MediaList), (s.core core.val).run = true →
    (s.core core.val).dma.granted = some w → s.power.shed < 4 →
    let c := core.val
    let x := s.core c
    let row (i : Nat) := dDst w + i * dDstStride w
    ∀ i : Ecc → MediaList → Instr, (i = Instr.copy core ∧ dFill w = false) ∨ (i = Instr.copyFill core ∧ dFill w = true) →
    (∀ e, dRows w = 0 ∨ dRowBytes w = 0 →
      exec (i e m) s = .next { engineDone c .dma { s with media := m } with media := [] }) ∧
    (∀ e, dRows w ≠ 0 → dRowBytes w ≠ 0 → dmaInBounds w = false →
      exec (i e m) s = .next { engineFault c 3 fcStallBounds { s with media := m } with media := [] }) ∧
    (∀ u : State, dRows w ≠ 0 → dRowBytes w ≠ 0 → dmaInBounds w = true →
      dmaRun c w (dRows w) (dRows w * (dRowBytes w + 1) + 1) (x.dma.pos / 2 ^ 32) (x.dma.pos % 2 ^ 32)
        { s with media := m } = (.done, u) →
      exec (i .clean m) s = .next { engineDone c .dma u with media := [] }) ∧
    (dRows w ≠ 0 → dRowBytes w ≠ 0 → dmaInBounds w = true → dSrcCtx w = false → dDstCtx w = false →
      x.dma.pos = 0 → x.dma.carry = (0, 0) → (∀ a b, a < dRows w → b < dRows w → a ≠ b → overlaps (row a) (dRowBytes w) (row b) (dRowBytes w) = false) →
      (∀ a b, a < dRows w → b < dRows w →
        overlaps (row a) (dRowBytes w) (dSrc w + b * dSrcStride w) (dRowBytes w) = false) →
      Completes (i .clean m) s fun t => ∃ y : Core,
        t = { engineDone c .dma ({ s with media := m }.setCore c y) with media := [] } ∧
        (∀ a b, a < dRows w → b < dRowBytes w → mget y.stall (row a + b) =
          if dFill w then BitVec.ofNat 8 (dSrc w / 256 ^ (b % 4)) else mget x.stall (dSrc w + a * dSrcStride w + b)) ∧
        (∀ p, (∀ a, a < dRows w → p < row a ∨ row a + dRowBytes w ≤ p) → mget y.stall p = mget x.stall p) ∧
        { y with stall := x.stall, marks := x.marks } = x)) ∧
  (∀ (s : State) (core : Fin 4000) (d stream : Bool) (addr : BitVec 48),
    let msg (part : Fin 8) (ctx : Nat) : Msg := { homeMsg .wrPartial addr.toNat stream with part, ctx := BitVec.ofNat 20 ctx }
    let m := msg (s.core core.val).part (s.core core.val).ctx
    (∀ (k st : Nat) (p : Posted), s.posted = [(k, p)] → p.cluster.isSome = true → p.core = core.val → p.eng = (if d then 3 else 0) →
      p.target = 0 → p.stream = stream → p.pa / 64 = addr.toNat / 64 → homeRefusal (msg p.part p.ctx) s = some st →
      exec (.writeRefusal core d addr stream) s =
        .next (settleLaunches (postedFail p (homeCause st) 0 { s with posted := [] }))) ∧
    (∀ st, s.posted = [] → (s.core core.val).run = true → homeRefusal m s = some st → exec (.writeRefusal core d addr stream) s =
      .next (engineFault core.val (if d then 3 else 0) (homeCause st) s (pa := some addr.toNat))) ∧
    (s.posted = [] → homeRefusal m s = none ∨ (s.core core.val).run = false → exec (.writeRefusal core d addr stream) s = .next s))

/-- A swatch check compares the array's sum with a recomputation, and strikes leave their window. SWATCH_CHECK without
a captured pair does nothing. The oldest captured pair with an operand or product that is not finite in FP32 is
abandoned: the pair is dropped and counted as abandoned. A pair of finite operands whose array sum d is finite and
whose |d - r| is at most 2^-18 of the sum of absolute products, plus 2^-126 (r the recomputed sum; difference and
bound each computed in FP32: log 83, the model's reading), is dropped and counted as done, and no fault is raised. One
that lies farther away faults SWATCH_MISMATCH as engine 1 of the core and adds a strike record. STRIKE_WINDOW_EXPIRY
lets operating time reach the end of the oldest strike's window. Completion (exec answers a next state) is the
conclusion for swatchCheck and strikeWindowExpiry. -/
def Obligations.SwatchChecks : Prop :=
  ∀ (s : State) (core : Fin 4000) (v : BitVec 32), let c := core.val
    let x := s.core c
    (x.swatch = [] → exec (.swatchCheck core (some v)) s = .next s ∧ exec (.swatchCheck core none) s = .next s) ∧
    (∀ k l o, x.swatch = k :: l → swatchFinite k = false → Completes (.swatchCheck core o) s fun t =>
      t = s.setCore c { x with swatch := l, swAband := satAdd 16 x.swAband 1 }) ∧
    (∀ (k : Swatch) (l : List Swatch) (d r q far bound : Rat), x.swatch = k :: l → swatchFinite k = true → finite32 v.toNat = some d →
      finite32 (recompute k.a k.w 0 0).1 = some r → finite32 (recompute k.a k.w 0 0).2 = some q →
      finite32 ((fma32 0 (decodeFlt fp32 v.toNat) (.fin false 1) (decodeFlt fp32 ((recompute k.a k.w 0 0).1 ^^^ 2 ^ 31))).code % 2 ^ 31) = some far →
      finite32 (fma32 0 (.fin false (p2 (-18))) (decodeFlt fp32 (recompute k.a k.w 0 0).2) (.fin false (p2 (-126)))).code = some bound →
      (far ≤ bound → Completes (.swatchCheck core (some v)) s fun t =>
        t.core c = { x with swatch := l, swDone := (x.swDone + 1) % 2 ^ 48 } ∧ t.rep = s.rep ∧ t.out = s.out ∧ t.ctxs = s.ctxs) ∧
      (bound < far → Completes (.swatchCheck core (some v)) s fun t =>
        t = swatchMismatch c k v.toNat (recompute k.a k.w 0 0).1 (swatchCount c true s))) ∧
    (strikesOf s (coreCluster c) (slotOf s c) = [] → exec (.strikeWindowExpiry core) s = .next s) ∧
    (∀ h l, strikesOf s (coreCluster c) (slotOf s c) = h :: l →
      exec (.strikeWindowExpiry core) s = .next { s with opSeconds := max s.opSeconds (h + swatchWindow s) })

/-- A home serves each request on a line that no agent holds. A request of a cluster or hub agent (in flight with none
of its way before it, or new) that the home does not refuse, on a line that is idle, sound in memory and without
directory entry, while no page moves and no line is on hold: RD_SHARED (NO_E 0), RD_UNIQUE and UPGRADE answer DATA in
E with home's bytes, name the requester the owner and keep the line busy for its ACK; RD_SHARED with NO_E answers S
and makes it a sharer; RD_ONCE answers DATA in I and leaves no entry; WR_FULL writes the 64 bytes and WR_PARTIAL the
masked ones, each answered CMP ST_OK; ATOMIC answers the old value, zero-extended, and puts the new one in place.
Reads change no byte; writes change no byte outside the line; no core, cluster or report changes. Completion (exec
answers a next state) is the conclusion for rdShared, rdUnique, upgrade, rdOnce, wrFull, wrPartial and atomic. The
premise on the directory's space is the model's (16 entries of a home are never one full set). -/
def Obligations.HomeServesFreeLines : Prop :=
  ∀ (s u : State) (m q : Msg) (media : MediaList), HomesOpen s → ¬(200 ≤ m.src.toNat ∧ m.src.toNat ≤ 203) →
    let n := m.addr.toNat / 64
    LineIdle n s → (s.line n).dir = none → LineSound n media s → dirCount (homeOf (64 * n)) s < 16 →
    let re (op : MOp) (st : LSt) (d : LineData) : Msg :=
      { op, state := st, txn := q.txn, src := homeAgent n, dst := q.src, addr := BitVec.ofNat 48 (64 * n), data := d,
        part := q.part, ctx := q.ctx, who := q.who }
    let old : LineData := BitVec.ofNat 512 (mread s.mem (64 * n) 64)
    let done (i : Instr) (op : MOp) (r : Msg) (P : State → Prop) : Prop :=
      Brings op m s q u → homeRefusal q u = none → Completes i s fun t =>
        t.net = u.net ++ [r] ∧ t.cores = s.cores ∧ t.clusters = u.clusters ∧ t.out = s.out ∧
        (∀ a, a < 64 * n ∨ 64 * n + 64 ≤ a → mget t.mem a = mget s.mem a) ∧ P t
    let owned (t : State) : Prop := t.mem = s.mem ∧ ((t.line n).dir.map fun d => (d.owner, d.sharers, d.bcast)) =
      some (some m.src.toNat, [], false) ∧ ((t.line n).tx.map fun x => x.req.src) = some m.src
    let free (t : State) : Prop := (t.line n).dir = none ∧ (t.line n).tx = none
    (m.noE = false → done (.rdShared m false media) .rdShared (re .data .E old) owned) ∧
    (m.noE = true → done (.rdShared m false media) .rdShared (re .data .S old) fun t => t.mem = s.mem ∧
      ((t.line n).dir.map fun d => (d.owner, d.sharers, d.bcast)) = some (none, [m.src.toNat], false)) ∧
    done (.rdUnique m false media) .rdUnique (re .data .E old) owned ∧
    done (.upgrade m false media) .upgrade (re .data .E old) owned ∧
    done (.rdOnce m media) .rdOnce (re .data .I old) (fun t => t.mem = s.mem ∧ free t) ∧
    (m.poison = false → done (.wrFull m media) .wrFull (re .cmp .I 0) fun t => free t ∧
      ∀ i, i < 64 → (mget t.mem (64 * n + i)).toNat = m.data.toNat / 256 ^ i % 256) ∧
    (m.poison = false → done (.wrPartial m media) .wrPartial (re .cmp .I 0) fun t => free t ∧
      ∀ i, i < 64 → (mget t.mem (64 * n + i)).toNat =
        if m.mask.getLsbD i then m.data.toNat / 256 ^ i % 256 else (mget s.mem (64 * n + i)).toNat) ∧
    (let size := if m.aux.getLsbD 4 then 8 else 4
     let a := m.addr.toNat
     done (.atomic m media) .atomic (re .data .I (BitVec.ofNat 512 (mread s.mem a size))) fun t => free t ∧
      mread t.mem a size = atomicNew (m.aux.toNat % 16) (8 * size) (mread s.mem a size) m.operand.toNat m.compare.toNat ∧
      ∀ b, b < a ∨ a + size ≤ b → mget t.mem b = mget s.mem b)

/-- A home refuses requests that fail its checks, before any snoop, and changes nothing. On an idle line, any of the
nine requests (in flight or new) that the home's check refuses is answered by CMP with the check's status, and nothing
else in the hub changes. A message of a way on which another is before it, and a new request that R205 or R206
forbids, do nothing. A granule that is not owned, that another partition owns, that needs a scrub, or whose structure
the requester may not touch is refused with ST_NOT_PERMITTED; an address outside the populated tiers with
ST_BAD_PARAM; a STREAM request of RD_SHARED, RD_UNIQUE, UPGRADE, WB_DIRTY or EVICT_CLEAN with ST_BAD_PARAM; KIND 1
requests of the other four complete without the directory. A row whose flag says that the directory entry is
uncorrectable does what the row does with that error among those of the step (R221). Completion (exec answers a next state) is the conclusion
for rdShared, rdUnique, upgrade, rdOnce, wrFull, wrPartial, wbDirty, evictClean and atomic. -/
def Obligations.HomeRefusals : Prop :=
  (∀ (s u : State) (m q : Msg) (st : Nat), HomesOpen s → s.media = [] → ¬(200 ≤ m.src.toNat ∧ m.src.toNat ≤ 203) →
    let n := m.addr.toNat / 64
    (s.line n).tx = none → (s.line n).queue = [] →
    let re : Msg :=
      { op := .cmp, txn := q.txn, src := homeAgent n, dst := q.src, aux := BitVec.ofNat 16 st,
        addr := BitVec.ofNat 48 (64 * n), part := q.part, ctx := q.ctx, who := q.who }
    let turned (i : Instr) (op : MOp) : Prop :=
      (Brings op m s q u → homeRefusal q u = some st → exec i s = .next { u with net := u.net ++ [re] }) ∧
      ((takeMsg { m with op } s.net).1 = true → mayArrive { m with op } s = false → exec i s = .next s) ∧
      ((takeMsg { m with op } s.net).1 = false → newRequest { m with op } s = none → exec i s = .next s)
    turned (.rdShared m false []) .rdShared ∧ turned (.rdUnique m false []) .rdUnique ∧ turned (.upgrade m false []) .upgrade ∧
    turned (.rdOnce m []) .rdOnce ∧ turned (.wrFull m []) .wrFull ∧ turned (.wrPartial m []) .wrPartial ∧
    turned (.atomic m []) .atomic ∧ turned (.wbDirty m []) .wbDirty ∧ turned (.evictClean m []) .evictClean) ∧
  (∀ (s : State) (m : Msg), let g := s.gran (m.addr.toNat / 0x200000)
    (s.populated m.addr.toNat = false → homeRefusal m s = some stBadParam) ∧
    (s.populated m.addr.toNat = true → m.hubAgent = false →
      (g.hub = true ∨ g.owned = false ∨ g.owner ≠ m.part ∨ g.struct = true ∨ g.needsScrub = true →
        homeRefusal m s = some stNotPermitted) ∧
      (g.hub = false → g.owned = true → g.owner = m.part → g.struct = false → g.needsScrub = false →
        ((kget g.keySlot.val s.keys).getD {}).state = 1 → m.stream = true →
        (m.op ∈ [MOp.rdShared, .rdUnique, .upgrade, .wbDirty, .evictClean] → homeRefusal m s = some stBadParam) ∧
        (m.op ∈ [MOp.rdOnce, .wrFull, .wrPartial] → homeRefusal m s = none ∧ ∀ d, snoopsFor m d s = [])))) ∧
  (∀ (s : State) (m : Msg) (media : MediaList), let bad := (m.addr.toNat / 64, Media.dirUncorrectable) :: media
    exec (.rdShared m true media) s = exec (.rdShared m false bad) s ∧
    exec (.rdUnique m true media) s = exec (.rdUnique m false bad) s ∧
    exec (.upgrade m true media) s = exec (.upgrade m false bad) s)

/-- Requests on held lines snoop the holders, and the answers decide the reply. On an idle line that another cluster
owns, with no sharers, while no page moves and no line is on hold: RD_SHARED sends SNP_SHARED, RD_UNIQUE SNP_UNIQUE,
RD_ONCE SNP_CURRENT to the owner and WR_FULL SNP_UNIQUE, and the line waits for it. The owner's SNP_DATA in O to a
RD_SHARED is forwarded in S, the owner keeping O; its SNP_RSP in S gives home's data in S with both as sharers;
SNP_DATA in I to a RD_UNIQUE is forwarded in M, memory as it was. An UPGRADE of the owner is answered GRANT in M. The
requester's ACK frees the line. Completion (exec answers a next state) is the conclusion for rdShared, rdUnique,
upgrade, rdOnce, wrFull, snpData, snpRsp and ack. -/
def Obligations.HomeSnoopsHolders : Prop :=
  ∀ (s u : State) (m q : Msg) (o : Nat) (d : Dir) (media : MediaList), HomesOpen s → s.media = [] →
    ¬(200 ≤ m.src.toNat ∧ m.src.toNat ≤ 203) → o < 200 → o ≠ m.src.toNat → m.stream = false →
    let n := m.addr.toNat / 64
    let home (req : Msg) (op : MOp) (st : LSt) (x : LineData) (p : Bool) : Msg :=
      { op, state := st, poison := p, txn := req.txn, src := homeAgent n, dst := req.src, addr := BitVec.ofNat 48 (64 * n),
        data := x, part := req.part, ctx := req.ctx, who := req.who }
    let dirs (t : State) := (t.line n).dir.map fun d => (d.owner, d.sharers, d.bcast)
    (d.owner = some o → d.sharers = [] → d.bcast = false → LineIdle n s → (s.line n).dir = some d →
      let snoops (i : Instr) (op k : MOp) : Prop := Brings op m s q u → homeRefusal q u = none → Completes i s fun t =>
        t.net = u.net ++
          [{ op := k, txn := s.snpTxn, src := homeAgent n, dst := BitVec.ofNat 8 o, addr := BitVec.ofNat 48 (64 * n),
             part := q.part, ctx := q.ctx }] ∧
        ((t.line n).tx.map fun x => (x.req, x.waiting, x.snpTxn)) = some ({ q with fwd := none }, [o], s.snpTxn) ∧
        t.snpTxn = s.snpTxn + 1 ∧ t.mem = s.mem ∧ t.clusters = u.clusters
      snoops (.rdShared m false []) .rdShared .snpShared ∧ snoops (.rdUnique m false []) .rdUnique .snpUnique ∧
      snoops (.upgrade m false []) .upgrade .snpUnique ∧ snoops (.rdOnce m []) .rdOnce .snpCurrent ∧
      snoops (.wrFull m []) .wrFull .snpUnique) ∧
    (d.owner = some m.src.toNat → d.sharers = [] → d.bcast = false → LineIdle n s →
      (s.line n).dir = some d → Brings .upgrade m s q u → homeRefusal q u = none → Completes (.upgrade m false []) s fun t =>
        t.net = u.net ++ [home q .grant .M 0 false] ∧ dirs t = some (some m.src.toNat, [], false) ∧ t.mem = s.mem) ∧
    (∀ (t0 : HomeTx) (r : Msg), t0.why = .request → t0.waiting = [o] → t0.got = none → t0.left = [] → t0.keep = false →
      (s.line n).tx = some t0 → (s.line n).queue = [] → (s.line n).dir = some d → d.owner = some o → d.sharers = [] → d.bcast = false →
      r.addr.toNat / 64 = n → r.src.toNat = o →
      (t0.req = { m with op := .rdShared } → r.state = .O → mayArrive { r with op := .snpData } s = true →
        Completes (.snpData r media) s fun t =>
        t.net = (takeMsg { r with op := .snpData } s.net).2 ++ [home m .data .S r.data r.poison] ∧
        dirs t = some (some o, [m.src.toNat], false) ∧ t.mem = s.mem) ∧
      (t0.req = { m with op := .rdShared } → r.state = .S → LineSound n media s → mayArrive { r with op := .snpRsp } s = true →
        Completes (.snpRsp r media) s fun t =>
        t.net = (takeMsg { r with op := .snpRsp } s.net).2 ++ [home m .data .S (BitVec.ofNat 512 (mread s.mem (64 * n) 64)) false] ∧
        dirs t = some (none, [o, m.src.toNat], false) ∧ t.mem = s.mem) ∧
      (t0.req = { m with op := .rdUnique } → r.state = .I → mayArrive { r with op := .snpData } s = true →
        Completes (.snpData r media) s fun t =>
        t.net = (takeMsg { r with op := .snpData } s.net).2 ++ [home m .data .M r.data r.poison] ∧
        dirs t = some (some m.src.toNat, [], false) ∧ t.mem = s.mem)) ∧
    (∀ t0 : HomeTx, (s.line n).tx = some t0 → (s.line n).queue = [] → t0.ackOf.isSome = true → t0.req.src = m.src →
      m.fwd = none → mayArrive { m with op := .ack } s = true →
      Completes (.ack m media) s fun t => (t.line n).tx = none ∧ (t.line n).dir = (s.line n).dir ∧ t.mem = s.mem ∧
        t.net = (takeMsg { m with op := .ack } s.net).2)

/-- A cluster cache answers each snoop by its state. For a cluster cache holding a COHERENT line outside the hold time
with no request in flight on it, a snoop that arrives (none of its way before it): SNP_SHARED leaves S from S and E,
and O from M (log 10: the spec allows I too) and from O; SNP_CURRENT leaves the state as it is; SNP_UNIQUE, SNP_INV
and SNP_RECALL leave I. M and O answer SNP_DATA with the line and its poison, S and E answer SNP_RSP; the answer goes
to the snooping home with its TXN. A line not held answers SNP_RSP in I. With a write-back in flight the answer leaves
I. In the hold time no answer is sent and the snoop is held until HOLD_TIME_END, which answers it, once the access
that the grant was asked for is made. Completion (exec answers a next state) is the conclusion for snpShared,
snpCurrent, snpUnique, snpInv, snpRecall and holdTimeEnd. -/
def Obligations.ClusterAnswersSnoops : Prop :=
  ∀ (s : State) (m : Msg) (g n : Nat), s.moves = [] → s.posted = [] → s.media = [] → m.dst.toNat = g → g < 200 →
    m.addr.toNat / 64 = n → ¬(200 ≤ m.src.toNat ∧ m.src.toNat ≤ 203) →
    let answer (op : MOp) (i : Instr) (left : Nat → Nat) : Prop := mayArrive { m with op } s = true →
      let net := (takeMsg { m with op } s.net).2
      let tells (l : CLine) (st : LSt) : Msg :=
        if l.st = 3 ∨ l.st = 4 then { op := .snpData, state := st, poison := l.poison, txn := m.txn, src := m.dst, dst := m.src,
                                      addr := m.addr, data := l.data }
        else { op := .snpRsp, state := st, txn := m.txn, src := m.dst, dst := m.src, addr := m.addr }
      (∀ l : CLine, kget n (s.cluster g).lines = some l → l.stream = false → l.hold = false → 1 ≤ l.st → l.st ≤ 4 →
        (kget n (s.cluster g).reqs = none → Completes i s fun t => t.net = net ++ [tells l (stOf (left l.st))] ∧
          kget n (t.cluster g).lines = (if left l.st = 0 then none else some { l with st := left l.st }) ∧
          (∀ k, k ≠ n → kget k (t.cluster g).lines = kget k (s.cluster g).lines) ∧ t.mem = s.mem ∧ t.lines = s.lines) ∧
        (kget n (s.cluster g).reqs = some 7 → Completes i s fun t => t.net = net ++ [tells l .I] ∧
          kget n (t.cluster g).lines = none)) ∧
      (∀ l : CLine, kget n (s.cluster g).lines = some l → l.stream = false → l.hold = true →
        exec i s = .next { s with net, heldSnp := kset (g * 2 ^ 48 + n) { m with op } s.heldSnp }) ∧
      (kget n (s.cluster g).lines = none → exec i s = .next { s with net := net ++ [
        { op := .snpRsp, txn := m.txn, src := m.dst, dst := m.src, addr := m.addr }] })
    answer .snpShared (.snpShared m) (fun st => if st = 4 then 3 else if st = 2 then 1 else st) ∧
    answer .snpCurrent (.snpCurrent m) id ∧ answer .snpUnique (.snpUnique m) (fun _ => 0) ∧
    answer .snpInv (.snpInv m) (fun _ => 0) ∧ answer .snpRecall (.snpRecall m) (fun _ => 0) ∧
    (∀ (c : Fin 200) (b : BitVec 42) (l : CLine), c.val = g → b.toNat = n → kget n (s.cluster g).lines = some l →
      (l.due ≠ 0 → engineWaits g n s = true → exec (.holdTimeEnd c b) s = .next s) ∧
      (l.due = 0 ∨ engineWaits g n s = false →
        (kget (g * 2 ^ 48 + n) s.heldSnp = none → Completes (.holdTimeEnd c b) s fun t =>
          kget n (t.cluster g).lines = some { l with hold := false, due := 0 } ∧ t.net = s.net ∧ t.lines = s.lines ∧ t.mem = s.mem) ∧
        (kget (g * 2 ^ 48 + n) s.heldSnp = some { m with op := .snpInv } → l.stream = false → l.st = 1 →
          Completes (.holdTimeEnd c b) s fun t =>
          kget n (t.cluster g).lines = none ∧ kget (g * 2 ^ 48 + n) t.heldSnp = none ∧
          t.net = s.net ++ [{ op := .snpRsp, txn := m.txn, src := m.dst, dst := m.src, addr := m.addr }])))

/-- Grants install lines and are acknowledged, completions drop them, and evictions reach home. DATA that arrives in a
state other than I installs the line in that state (in M where the cluster asked by UPGRADE), with its poison and the
hold time running, ends the request, frees its TXN and sends ACK to the home; GRANT turns the held line to M in the
same way; CMP leaves the line I. DATA and CMP for an engine or agent wait for it as its answer. A new WB_DIRTY of a
cluster takes the line's data with it and counts as in flight until its CMP; a WB_DIRTY of the owner writes the line
at home, which answers CMP and frees the entry; EVICT_CLEAN of the owner frees the entry and writes nothing. A well-
formed DATA of a partner die answers the aperture request of its TXN; of a TXN with none outstanding it does nothing.
Completion (exec answers a next state) is the conclusion for data, grant, cmp, wbDirty and evictClean. -/
def Obligations.ClusterTakesRepliesAndEvicts : Prop :=
  ∀ (s : State) (m : Msg) (g n : Nat), HomesOpen s → s.media = [] →
    ¬(200 ≤ m.src.toNat ∧ m.src.toNat ≤ 203) → m.addr.toNat / 64 = n → m.fwd = none →
    let net (op : MOp) := (takeMsg { m with op } s.net).2
    let ack : Msg := { op := .ack, txn := m.txn, src := m.dst, dst := m.src, addr := m.addr }
    let freed := kdel (4096 * m.dst.toNat + m.txn.toNat) s.reqTxn
    let due : Nat := if engineWaits g n s then (if kget n (s.cluster g).reqs = some 1 then 1 else 2) else 0
    (m.dst.toNat = g → g < 200 → m.who = 0 →
      (m.state ≠ .I → mayArrive { m with op := .data } s = true → Completes (.data m) s fun t => t.net = net .data ++ [ack] ∧
        kget n (t.cluster g).lines = some
          { st := if kget n (s.cluster g).reqs = some 3 then 4 else codeOf m.state, stream := false, data := m.data,
            poison := m.poison, hold := true, due, found := m.note == 1 } ∧
        kget n (t.cluster g).reqs = none ∧ (∀ k, k ≠ n → kget k (t.cluster g).lines = kget k (s.cluster g).lines) ∧
        t.reqTxn = freed ∧ t.mem = s.mem ∧ t.lines = s.lines) ∧
      (∀ l : CLine, kget n (s.cluster g).lines = some l → mayArrive { m with op := .grant } s = true →
        Completes (.grant m) s fun t => t.net = net .grant ++ [ack] ∧
        kget n (t.cluster g).lines = some { l with st := 4, hold := true, due } ∧ kget n (t.cluster g).reqs = none ∧
        t.reqTxn = freed ∧ t.mem = s.mem) ∧
      (m.aux = 0 → mayArrive { m with op := .cmp } s = true → Completes (.cmp m) s fun t => t.net = net .cmp ∧
        kget n (t.cluster g).lines = none ∧ kget n (t.cluster g).reqs = none ∧ t.reqTxn = freed ∧ t.ans = s.ans ∧ t.mem = s.mem)) ∧
    (m.dst.toNat = 0xFF → m.who ≠ 0 → m.who ≠ 0x5FFFF → m.note = 0 →
      let ans (i : Instr) (op : MOp) : Prop := mayArrive { m with op } s = true → exec i s = .next
        { s with net := net op, reqTxn := freed, asked := kdel (m.who * 2 ^ 48 + n) s.asked,
                 ans := kset (m.who * 2 ^ 48 + n) { status := m.aux.toNat, data := m.data, poison := m.poison } s.ans }
      ans (.data m) .data ∧ ans (.cmp m) .cmp) ∧
    (∀ (u : State) (q : Msg) (d : Dir), LineIdle n s → (s.line n).dir = some d → d.owner = some m.src.toNat → d.sharers = [] →
      d.bcast = false →
      let cmp : Msg :=
        { op := .cmp, txn := q.txn, src := homeAgent n, dst := q.src, addr := BitVec.ofNat 48 (64 * n), part := q.part,
          ctx := q.ctx, who := q.who }
      (Brings .wbDirty m s q u → homeRefusal q u = none → Completes (.wbDirty m []) s fun t =>
        t.net = u.net ++ [cmp] ∧ (t.line n).dir = none ∧ t.clusters = u.clusters ∧
        (∀ i, i < 64 → (mget t.mem (64 * n + i)).toNat = q.data.toNat / 256 ^ i % 256) ∧
        ∀ a, a < 64 * n ∨ 64 * n + 64 ≤ a → mget t.mem a = mget s.mem a) ∧
      (Brings .evictClean m s q u → homeRefusal q u = none → Completes (.evictClean m []) s fun t =>
        t.net = u.net ++ [cmp] ∧ (t.line n).dir = none ∧ t.clusters = u.clusters ∧ t.mem = s.mem)) ∧
    (∀ l : CLine, m.src.toNat = g → g < 200 → s.net = [] → s.reqTxn = [] → s.changes = [] → kget n (s.cluster g).lines = some l →
      l.stream = false → l.hold = false →
      (l.st = 4 ∨ l.st = 3 → ∃ q u, Brings .wbDirty m s q u ∧ q.data = l.data ∧ q.poison = l.poison ∧
        kget n (u.cluster g).reqs = some 7 ∧ kget n (u.cluster g).lines = some l) ∧
      (l.st = 2 ∨ l.st = 1 → ∃ q u, Brings .evictClean m s q u ∧ kget n (u.cluster g).reqs = some 8)) ∧
    (∀ (d : Fin 4) (k : Msg), k.src.toNat = 200 + d.val →
      (kget k.txn.toNat (s.site d.val).apq = none → exec (.data k) s = .next s) ∧
      ∀ r : ApReq, kget k.txn.toNat (s.site d.val).apq = some r → r.data = true → k.dst = r.src → k.state = .I →
        k.aux.toNat ≤ 0x13 → k.addr.toNat = r.pa / 64 * 64 →
        exec (.data k) s = .next (apDone d.val r 0 k.data k.poison
          (s.setSite d.val { s.site d.val with apq := kdel k.txn.toNat (s.site d.val).apq })))

/-- Stack temperature raises throttle steps at once and lowers them one by one. For every stack, its fused threshold H
and reading T: STACK_TEMPERATURE_REPORT stores T and the critical flag, and the step becomes the larger of the step in
force and the one T asks for: none below H, one more for each 3 °C from H up, step 5 from H + 12 or when the stack
reports critical. THROTTLE_STEP_DOWN lowers a step by one only when the stack is not critical and T is at least 2 °C
below the entry of the step in force; else nothing happens. STACK_CRITICAL in step 5 sets the THERMAL bit of
TH_SMB_ALERT, keeps the controllers and raises the event; below step 5 it does nothing. Thresholds are fused; an
unlisted stack has 95 (log 70, the model's choice). Completion (exec answers a next state) is the conclusion for
stackTemperatureReport, throttleStepDown and stackCritical. -/
def Obligations.StackThermalSteps : Prop :=
  ∀ (s : State) (k : Fin 16) (temp : BitVec 8) (critical : Bool),
    let c := s.ctl k.val
    let h := (kget k.val s.fuse.thresh).getD 95
    let asks := if critical then 5 else if temp.toNat < h then 0 else min 5 ((temp.toNat - h) / 3 + 1)
    exec (.stackTemperatureReport k temp critical) s =
      .next (s.setCtl k.val { c with temp := temp.toNat, critical, step := max c.step asks }) ∧
    exec (.throttleStepDown k) s =
      .next (if c.step ≠ 0 ∧ c.critical = false ∧ c.temp + 2 ≤ h + 3 * (c.step - 1)
        then s.setCtl k.val { c with step := c.step - 1 } else s) ∧
    (c.step = 5 → Completes (.stackCritical k) s fun t => t.power.smb.testBit 1 = true ∧ t.ctls = s.ctls ∧
      t = thermalEvent 3 k.val (10 * c.temp) 0 s) ∧
    (c.step ≠ 5 → exec (.stackCritical k) s = .next s)

/-- A controller's slot issues the requests of its owner in order and counts short slots. CONTROLLER_SLOT moves to the
next of 64 slots and takes the committed table at slot 0. With two entries of each queue that no partition reserves
and room for one request: of two eligible requests of the slot's partition, given oldest first, one carried at class 1
goes before an older one that is not, and of two of class 1 the one with the smaller BUDGET left; a request of another
partition is issued when the owner has none; a slot beyond the throttle step's share issues none. A request that can
take no entry of its direction waits at its home: nothing is issued. A partition's request that waited through its
whole slot without an issue adds one short slot, with its cause. Issuing a class 1 request counts it in PT_RT_STAT.
The class is the one asked for, never a smaller number than its port's field. BUDGET loses 1 for a hop, 2 for a spine
transfer and the crossing's cycles, never below 0. Completion (exec answers a next state) is the conclusion for
controllerSlot. -/
def Obligations.ControllerSlots : Prop :=
  (∀ (s : State) (x : BitVec 6) (refresh capped : Bool),
    let c := s.ctl x.toNat
    let slot := (c.slot + 1) % 64
    let table := if slot = 0 ∨ c.table = [] then tdmTable x.toNat s else c.table
    let p := (table[slot]?).getD 15
    let moved := s.setCtl x.toNat { c with slot, table }
    (exec (.controllerSlot x [] 1 refresh capped) s = .next moved) ∧
    (∀ a : CtlReq, reservedEntries x.toNat a.write a.part.val s = 0 → sharedEntries x.toNat a.write s = 0 →
      exec (.controllerSlot x [a] 1 refresh capped) s = .next moved) ∧
    ((∀ w, 2 ≤ sharedEntries x.toNat w s) →
      (∀ a b : CtlReq, a.eligible = true → b.eligible = true → slot < slotCap c.step → a.part.val = p → b.part.val = p →
        (reqClass a s ≠ 1 → reqClass b s ≠ 1 →
          exec (.controllerSlot x [a, b] 1 refresh capped) s = .next (emit (.issue x.toNat slot [0]) moved)) ∧
        (reqClass a s ≠ 1 → reqClass b s = 1 → Completes (.controllerSlot x [a, b] 1 refresh capped) s fun t =>
          t.out = s.out ++ [.issue x.toNat slot [1]] ∧ t.ctls = moved.ctls ∧
          t.regs = (if budgetLeft b = 0 then statAdd (ptBase p + 0x130) 32 32 1 (statAdd (ptBase p + 0x130) 0 32 1 s)
            else statAdd (ptBase p + 0x130) 0 32 1 s).regs) ∧
        (reqClass a s = 1 → reqClass b s = 1 → budgetLeft b < budgetLeft a →
          Completes (.controllerSlot x [a, b] 1 refresh capped) s fun t =>
            t.out = s.out ++ [.issue x.toNat slot [1]] ∧ t.ctls = moved.ctls)) ∧
      (∀ a : CtlReq, a.eligible = true → slot < slotCap c.step → a.part.val ≠ p → reqClass a s ≠ 1 →
        exec (.controllerSlot x [a] 1 refresh capped) s = .next (emit (.issue x.toNat slot [0]) moved)) ∧
      (∀ a : CtlReq, slotCap c.step ≤ slot → a.part.val = p → a.whole = true →
        Completes (.controllerSlot x [a] 1 refresh capped) s fun t =>
          t.out = s.out ∧
          kget p (t.ctl x.toNat).short = some (((kget p c.short).getD (0, 0)).1 + 1, ((kget p c.short).getD (0, 0)).2 ||| 1) ∧
          (t.ctl x.toNat).slot = slot ∧ t.mem = s.mem))) ∧
  (∀ (s : State) (a : CtlReq), reqClass a s =
    max a.asks.toNat (bits (s.reg 0x7000 portClassReset) (2 * a.port.val + 1) (2 * a.port.val))) ∧
  (∀ (a : CtlReq) (l : Leg), a.path = [] → budgetLeft a = a.budget.toNat ∧
    budgetLeft { a with path := [.hop] } = a.budget.toNat - 1 ∧ budgetLeft { a with path := [.hop, .spine] } = a.budget.toNat - 3 ∧
    budgetLeft { a with path := [.cross .siteRing] } = a.budget.toNat - 6 ∧
    budgetLeft { a with path := [.cross .ringDdr, .cross .ringHbm, .cross .ucieRx] } = a.budget.toNat - 24 ∧
    budgetLeft { a with path := [l] } ≤ a.budget.toNat)

/-- PATROL corrects or poisons, HEAT_INTERVAL_END halves the counts, MISS_WINDOW_END counts missed windows. PATROL of
a populated line that reads well changes nothing; of one with more bad symbols than its code corrects (4 in tier A and
B, 2 in either half of a fine granule, 8 in tier C) poisons it at its home, and its granule is on the offline list
when the list has room; corrected symbols below 256 in 24 hours add to MEM_ERR and their granule's record.
HEAT_INTERVAL_END keeps each granule's heat as the sum of its homes' counts and halves every count; above L0, or with
no context and no round in hand, nothing else but rounds in hand changes. MISS_WINDOW_END with nothing collected
changes nothing; a partition that owns a slot and whose short slots exceed its threshold, its records disabled, counts
a missed window and its causes, and the short slots start over. Completion (exec answers a next state) is the
conclusion for patrol, heatIntervalEnd and missWindowEnd. -/
def Obligations.PatrolHeatAndMissWindows : Prop :=
  (∀ (s : State) (b : BitVec 42), let n := b.toNat
    exec (.patrol b none) s = .next s ∧ (s.populated (64 * n) = false → ∀ f, exec (.patrol b f) s = .next s) ∧
    (∀ x y : Nat, ∀ mac : Bool, s.populated (64 * n) = true →
      let limit := if tierOf (64 * n) < 2 then 4 else 8
      let bad : Prop := if tierOf (64 * n) = 0 ∧ isFine (granOf (64 * n)) s = true then 2 < x ∨ 2 < y
        else limit < x + y
      (bad → s.offline.length < 4096 → Completes (.patrol b (some (.symbols x y mac))) s fun t =>
        (t.line n).poison = true ∧ (∃ e ∈ t.offline, e.granule = 64 * n / 0x200000) ∧ t.mem = s.mem ∧
        ∀ k, k ≠ n → t.line k = s.line k) ∧
      (¬bad → x + y = 0 → exec (.patrol b (some (.symbols x y mac))) s = .next s) ∧
      (¬bad → 0 < x + y → kget (64 * n / 0x200000) s.corr = none →
        exec (.patrol b (some (.symbols x y mac))) s = .next (memErrAdd (ctlOf (64 * n)) 0 32 (x + y)
          { s with corr := kset (64 * n / 0x200000) [(s.opSeconds, x + y)] s.corr })))) ∧
  (∀ s : State, 1 ≤ s.power.shed ∨ (s.ctxs = [] ∧ s.autos = []) → Completes .heatIntervalEnd s fun t =>
    (∀ k, kget k t.heat = (kget k s.heat).map (· / 2)) ∧
    (∀ g q : Nat, q < 8 → (kget (8 * g + q) s.heat).isSome = true →
      kget g t.heatVal = some ((List.range 8).foldl (fun a q => a + (kget (8 * g + q) s.heat).getD 0) 0)) ∧
    t = { s with heat := t.heat, heatVal := t.heatVal, autos := [] }) ∧
  (∀ s : State, s.miss = [] → (∀ e ∈ s.ctls, e.2.short = []) → exec .missWindowEnd s = .next s) ∧
  (∀ (s : State) (x n f : Nat) (p : Fin 8) (c : Ctl), s.miss = [] → s.ctls = [(x, c)] → c.short = [(p.val, (n, f))] →
    c.table.contains p.val = true → let ctl := s.reg (ptBase p.val + 0x120) 1
    bits ctl 23 8 < n → ctl % 2 = 0 →
    let o := ptBase p.val + 0x128
    let u := statAdd o 0 32 1 s
    let u := if f.testBit 0 then statAdd o 32 16 1 u else u
    let u := if f.testBit 1 then statAdd o 48 16 1 u else u
    exec .missWindowEnd s = .next { u with ctls := [(x, { c with short := [] })] })

/-- Packets that fail a header check are refused with its status and nothing else changes but the reply. For a packet
that no earlier one and no change in hand holds back, of CTX_CREATE, and so of every stageable command of a partition,
with the reply written in each case and no other effect: before the hub is ready ST_NOT_READY, and for PARTITION_RESET
during a warm reset ST_BUSY; PARTITION 8 to 15 is ST_BAD_PARAM at offset 2; in SCRAPPED or LOCKED ST_LC_STATE; at L4
or deeper ST_SHED; for a partition under reset ST_BUSY; a wrong length ST_BAD_PARAM at 12; a reserved field
ST_BAD_PARAM at its offset; a TXN that is no open transaction ST_TXN_ABORTED at 4. A packet of an open transaction of
the same path and scope is staged behind its operations, unperformed, and the reply gives its index and the id it
reserves. A packet behind an earlier one of its path where either carries SERIAL does nothing yet. Completion (exec
answers a next state) is the conclusion for ctxCreate and partitionReset. -/
def Obligations.PacketHeaderChecks : Prop :=
  ∀ (s : State) (p : Pkt) (pasid : BitVec 20) (en priv : Bool),
    let i := Instr.ctxCreate p pasid en priv
    let refuses (st off : Nat) : Prop := Replies i p 0x100 { status := st, err := off } s s
    let free : Prop := s.changes = [] ∧ (s.accepted.takeWhile fun a => !samePkt a.pkt p) = []
    (free → s.co.ready = false → refuses stNotReady 0xFFFF) ∧
    (free → s.co.ready = false → s.rst.inProgress = true → (s.part (p.partition.toNat % 8)).resetting = none →
      Replies (.partitionReset p) p 0x400 { status := stBusy } s s) ∧
    (free → s.co.ready = true → p.partition.toNat > 7 → refuses stBadParam 2) ∧
    (free → s.co.ready = true → p.partition.toNat < 8 →
      (s.sec.lc = 4 ∨ s.sec.lc = 7 → refuses stLcState 0xFFFF) ∧
      (s.sec.lc ≠ 4 → s.sec.lc ≠ 7 →
        (4 ≤ s.power.shed → refuses stShed 0xFFFF) ∧
        (s.power.shed < 4 →
          ((s.part p.partition.toNat).resetting.isSome = true → refuses stBusy 0xFFFF) ∧
          ((s.part p.partition.toNat).resetting = none →
            (p.paramLen ≠ 8 → refuses stBadParam 12) ∧
            (∀ o, p.paramLen = 8 → p.rsv = some o → refuses stBadParam o.toNat) ∧
            (p.paramLen = 8 → p.rsv = none → p.txn ≠ 0 → kget p.txn.toNat s.txns = none → refuses stTxnAborted 4))))) ∧
    (∀ (t : Txn) (c : Nat), p.txn ≠ 0 → p.rsv = none → p.paramLen = 8 → ServedFor { p with txn := 0 } s →
      kget p.txn.toNat s.txns = some t → t.path = p.path → t.scope = 15 ∨ t.scope = p.partition.toNat → t.committing = false →
      t.ops.length < 4096 → t.ops.foldl (fun n o => n + o.bytes) 0 + 8 ≤ 1048576 →
      lowestId 1 1048576 (fun i => (s.ctx i).isSome) s = some c →
      exec i s = .next (replyTo' p 0x100 { len := 4, data := c % 2 ^ 32 } p.txn.toNat t.ops.length
        { s with txns := kset p.txn.toNat
                   { t with ops := t.ops ++ [{ op := .ctxCreate p pasid en priv, reserved := some (2 ^ 32 + c), bytes := 8 }] } s.txns })) ∧
    (∀ a ∈ s.accepted.takeWhile fun a => !samePkt a.pkt p, a.pkt.path = p.path → a.pkt.serial = true ∨ p.serial = true →
      exec i s = .next s)

/-- A reply goes to the packet's ring slot or to the mailbox and frees the packet. For a packet without NOTIFY: over
the ring, with an address of 0 for the completion word, the reply data are reported to the packet's 4,096-byte slot
(SEQ modulo the ring's size) at byte 32, and after them the 32-byte header (opcode, status, data length, error offset,
TAG, TXN, stage index, SEQ, a 1) at byte 0; by mailbox or board, both stand at the start of the mailbox buffer, which
is no longer BUSY and is DONE. The packet is no longer among the accepted ones; memory, contexts, queues and fences do
not change. -/
def Obligations.RepliesReachTheirSender : Prop :=
  ∀ (s : State) (p : Pkt) (op txn stage : Nat) (r : OpRes), p.notify = false →
    let word := put 0 16 op + put 16 16 r.status + put 32 16 r.len + put 48 16 r.err + put 64 32 p.tag.toNat + put 96 32 txn +
      put 128 16 stage + put 160 32 (if p.path = .ring then p.seq.toNat else 0xFFFFFFFF) + 2 ^ 192
    let same (a : Accepted) : Bool := a.pkt.path == p.path && (p.path != .ring || a.pkt.seq == p.seq)
    let u := { s with accepted := s.accepted.filter fun a => !same a }
    let t := replyTo' p op r txn stage s
    t.accepted = u.accepted ∧ t.mem = s.mem ∧ t.ctxs = s.ctxs ∧ t.queues = s.queues ∧ t.fences = s.fences ∧
    (let slot := s.cmd.base + 4096 * (p.seq.toNat % 2 ^ s.cmd.log2)
     p.path = .ring → s.cmd.doneAddr = 0 →
      (r.len = 0 → t.out = (report (.write slot 32 word) u).out) ∧
      (r.len ≠ 0 → t.out = (report (.write slot 32 word) (report (.write (slot + 32) r.len r.data) u)).out)) ∧
    (let buf := mwrite (mwrite s.mbx.buf 32 r.len r.data) 0 32 word
     p.path ≠ .ring → t = { u with mbx := { s.mbx with buf, busy := false, done := true } })

/-- CTX_CREATE, CTX_DESTROY, CTX_QUERY and CONTEXT_ABANDON. For packets served at once: CTX_CREATE gives the lowest
free id an ACTIVE context of the packet's partition with count 1, no segment, its PASID and flags, and the two
allocations of its descriptor and table, and replies the id; where an allocation does not fit it replies
ST_NO_RESOURCE and changes nothing. CTX_DESTROY of a context with other references sets BIND_OFF and releases one; of
one without, it is gone with its allocations; a second one does nothing. CTX_QUERY replies 80 bytes and changes
nothing. CONTEXT_ABANDON starts by making an ACTIVE context LOST with the cause of an abandonment and every context
BIND_OFF, holding it with one reference until its end, then goes on; it destroys a LOST context that owns nothing and
replies; a second one is ST_BUSY while it runs and does nothing after it. A context of another partition is
ST_NOT_PERMITTED, one that does not exist ST_BAD_PARAM, at offset 32. Completion (exec answers a next state) is the
conclusion for ctxCreate, ctxDestroy, ctxQuery and contextAbandon. -/
def Obligations.ContextCommands : Prop :=
  ∀ (s : State) (p : Pkt) (pasid c : BitVec 20) (en priv : Bool), ServedFor p s → p.paramLen = 8 →
    let part := p.partition.toNat
    (∀ (i d t : Nat) (s1 s2 : State), (∀ j, j < i → (s.ctx j).isSome = true ∨ 2 ^ 32 + j ∈ s.reservedIds) → s.ctx i = none →
      i < 1048576 → 2 ^ 32 + i ∉ s.reservedIds →
      (alloc part 64 64 s = none → Replies (.ctxCreate p pasid en priv) p 0x100 { status := stNoResource } s s) ∧
      (alloc part 64 64 s = some (d, s1) → alloc part 2048 64 s1 = some (t, s2) →
        Commits (.ctxCreate p pasid en priv) p 0x100 4 i [objCtx i] s
          (s2.setCtx i { part := ⟨part % 8, Nat.mod_lt _ (by decide)⟩, pasid := pasid.toNat, pasidEn := en, priv, desc := d, segTable := t }))) ∧
    (s.ctx c.toNat = none → Replies (.ctxDestroy p c) p 0x101 { status := stBadParam, err := 32 } s s ∧
      Replies (.ctxQuery p c) p 0x102 { status := stBadParam, err := 32 } s s) ∧
    (∀ k : Ctx, s.ctx c.toNat = some k →
      (k.part.val ≠ part → Replies (.ctxDestroy p c) p 0x101 { status := stNotPermitted, err := 32 } s s ∧
        Replies (.contextAbandon p c) p 0x103 { status := stNotPermitted, err := 32 } s s) ∧
      (k.part.val = part →
        (k.state = 2 → Commits (.ctxDestroy p c) p 0x101 0 0 [objCtx c.toNat] s s) ∧
        (k.state ≠ 2 → k.inst = none →
          (1 < k.refc ∨ k.segs ≠ [] → Commits (.ctxDestroy p c) p 0x101 0 0 [objCtx c.toNat] s
            ((s.setCtx c.toNat { k with state := 2, created := false }).setCtx c.toNat
              { k with state := 2, created := false, refc := k.refc - 1 })) ∧
          (k.refc = 1 → k.segs = [] → Completes (.ctxDestroy p c) s fun t => ∃ u, u.ctx c.toNat = none ∧
            kget k.desc u.allocs = none ∧ kget k.segTable u.allocs = none ∧ u.mem = s.mem ∧ u.queues = s.queues ∧
            t = reply p 0x101 {} (stampAll s.cfgGen [objCtx c.toNat] u)) ∧
          (k.refc = 1 → k.segs = [] → (∀ e ∈ s.cores, e.2.prevCtx ≠ some c.toNat) → Completes (.ctxDestroy p c) s fun t =>
            t.cores = s.cores)) ∧
        (k.abandon = 0 → k.inst = none → k.abandonFor = none →
          exec (.contextAbandon p c) s = .next (abandonRun c.toNat (abandonStart c.toNat p s)) ∧
          (s.cores = [] → s.launches = [] → (abandonStart c.toNat p s).ctx c.toNat =
            some { k with state := 2, refc := k.refc + 1, abandon := 2, abandonFor := some p,
                          cause := if k.state = 0 ∧ k.cause = 0 then fcAbandoned else k.cause,
                          lostFaults := if k.state = 0 ∧ k.cause ≠ 0 then satAdd 32 k.lostFaults 1 else k.lostFaults })) ∧
        (∀ q, k.abandonFor = some q → samePkt q p = false → k.abandon ≠ 0 → k.abandon ≠ 9 →
          Replies (.contextAbandon p c) p 0x103 { status := stBusy } s s) ∧
        (k.abandon = 9 → k.abandonFor = none → Replies (.contextAbandon p c) p 0x103 {} s s) ∧
        Replies (.ctxQuery p c) p 0x102 { len := 80, data := ctxQueryWord c.toNat k s } s s)) ∧
    (∀ k : Ctx, s.ctx c.toNat = some k → k.part.val = part → k.state = 1 → k.cause ≠ 0 → k.created = true → k.refc = 1 → k.segs = [] →
      k.inst = none → k.abandon = 0 → k.abandonFor = none → s.cores = [] → s.launches = [] → s.queues = [] → s.fences = [] →
      s.posted = [] → s.halted = false → Completes (.contextAbandon p c) s fun t => t.ctx c.toNat = none ∧ t.mem = s.mem ∧
        t.cfgGen = s.cfgGen + 1 ∧ t.accepted = s.accepted.filter fun a => !samePkt a.pkt p)

/-- Allocations lie in structure granules, SEG_SET fills a free slot, SEG_CLEAR empties it. An allocation lies in
structure granules of its partition, meets no other allocation, and only its entry is new. For packets served at once,
of an ACTIVE context: SEG_SET of a well-formed descriptor of tier frames to a free slot that meets no other segment
allocates the frame list of 8 bytes a page and makes the segment valid with GEN 0, count 0 and no frame; host segments
need no allocation. A BASE that is no multiple of 2 MiB, a LENGTH of 0, an end above 2^56 and a VALID bit of 0 are
ST_BAD_PARAM; a valid slot and an overlap too. SEG_CLEAR of a slot that is not valid is ST_BAD_PARAM, with a valid
frame entry ST_BUSY, with a count above 0 ST_BUSY; else the segment and its frame list are gone; of a host, window or
aperture segment at once where no cluster has requests under it in flight, else the segment is gone for new accesses
and the reply waits. Completion (exec answers a next state) is the conclusion for segSet and segClear. -/
def Obligations.StructureSpaceAndSegments : Prop :=
  (∀ (s t : State) (q n a : Nat), n ≠ 0 → alloc q n 64 s = some (a, t) → t = { s with allocs := kset a n s.allocs } ∧
    (∀ e ∈ s.allocs, overlaps a n e.1 e.2 = false) ∧
    ∀ b, a ≤ b → b < a + n → let g := s.gran (b / 0x200000)
      g.owned = true ∧ g.struct = true ∧ g.owner.val = q) ∧
  (∀ (s : State) (p : Pkt) (c : BitVec 20) (i : BitVec 6) (d : BitVec 256) (k : Ctx), ServedFor p s →
    s.ctx c.toNat = some k → k.part.val = p.partition.toNat → k.state = 0 → k.cause = 0 →
    let g := segOfWord d.toNat
    let objs := [objCtx c.toNat, objSeg c.toNat i.toNat]
    (p.paramLen = 40 →
      (d.getLsbD 0 = false → Replies (.segSet p c i d) p 0x110 { status := stBadParam, err := 40 } s s) ∧
      (segForm d.toNat = none → d.getLsbD 0 = true ∧ g.base % 0x200000 = 0 ∧ g.len ≠ 0 ∧ g.base + g.len * 0x200000 ≤ 2 ^ 56) ∧
      (segForm d.toNat = none → (kget i.toNat k.segs).isSome = true →
        Replies (.segSet p c i d) p 0x110 { status := stBadParam, err := 36 } s s) ∧
      (segForm d.toNat = none → kget i.toNat k.segs = none →
        (∀ e ∈ k.segs, overlaps g.base (g.len * 0x200000) e.2.base (e.2.len * 0x200000) = false) →
        (∀ (a : Nat) (u : State), g.target = 0 →
          alloc p.partition.toNat (alignUp (8 * (if g.frame1g then g.len / 512 else g.len)) 64) 64 s = some (a, u) →
          Commits (.segSet p c i d) p 0x110 0 0 objs s (u.setCtx c.toNat { k with segs := kset i.toNat { g with list := a } k.segs })) ∧
        (g.target = 1 → Commits (.segSet p c i d) p 0x110 0 0 objs s (s.setCtx c.toNat { k with segs := kset i.toNat g k.segs })))) ∧
    (p.paramLen = 8 →
      (kget i.toNat k.segs = none → Replies (.segClear p c i) p 0x111 { status := stBadParam, err := 36 } s s) ∧
      (∀ h : Segment, kget i.toNat k.segs = some h →
        (h.target = 0 → h.frames ≠ [] → Replies (.segClear p c i) p 0x111 { status := stBusy } s s) ∧
        (0 < h.refc → Replies (.segClear p c i) p 0x111 { status := stBusy } s s) ∧
        (h.target = 0 → h.frames = [] → h.refc = 0 → Commits (.segClear p c i) p 0x111 0 0 objs s
          { s.setCtx c.toNat { k with segs := kdel i.toNat k.segs } with allocs := kdel h.list s.allocs }) ∧
        (h.target ≠ 0 → h.refc = 0 →
          (busyClusters c.toNat i.toNat h.gen s = [] → Completes (.segClear p c i) s fun t => ∃ u,
            t = reply p 0x111 {} (stampAll s.cfgGen objs u) ∧ u.ctx c.toNat = some { k with segs := kdel i.toNat k.segs } ∧
            u.mem = s.mem ∧ u.allocs = s.allocs) ∧
          (busyClusters c.toNat i.toNat h.gen s ≠ [] → Completes (.segClear p c i) s fun t =>
            t.out = s.out ∧ t.mbx = s.mbx ∧ t.shoots.length = s.shoots.length + 1 ∧ t.changes.length = 1 ∧
            t.ctx c.toNat = some { k with segs := kdel i.toNat k.segs })))))

/-- MAP, UNMAP, SHOOTDOWN_ACKNOWLEDGE, GRANULE_BIND and GRANULE_UNBIND. For packets served at once: MAP of one aligned
frame whose granule the partition owns and may map makes the page's entry valid and adds 1 to the granule's MAPCOUNT;
a page already valid is ST_BAD_PARAM at the frame's offset, a granule not owned ST_NOT_PERMITTED, a page whose UNMAP
runs ST_BUSY, nothing mapped; a count of 0 maps nothing. UNMAP with no request of the segment's generation in flight
and no move of a named page removes the named entries, raises GEN by 1 and takes 1 from each MAPCOUNT; else the reply
waits, MAPCOUNT unchanged. SHOOTDOWN_ACKNOWLEDGE of a cluster with nothing in flight under the old generation takes it
from those waited for; while L5 halts it nothing. GRANULE_BIND of one free granule within the quota scrubs it when it
needs it and makes it the partition's under its key slot; GRANULE_UNBIND of one no line of which a partner die may
hold clears OWNED, drops cached copies and data and asks for a scrub, and is ST_BUSY while MAPCOUNT is above 0.
Completion (exec answers a next state) is the conclusion for map, unmap, shootdownAcknowledge, granuleBind and
granuleUnbind. -/
def Obligations.MappingAndGranules : Prop :=
  ∀ (s : State) (p : Pkt) (c : BitVec 20) (i : BitVec 6) (k : Ctx) (g : Segment), ServedFor p s →
    let part := p.partition.toNat
    (s.ctx c.toNat = some k → k.part.val = part → k.state = 0 → k.cause = 0 → kget i.toNat k.segs = some g → g.target = 0 →
      let objs := [objCtx c.toNat, objSeg c.toNat i.toNat]
      (∀ first : BitVec 32, p.paramLen = 16 → Commits (.map p c i first []) p 0x120 0 0 objs s s) ∧
      (∀ (first : BitVec 32) (f : BitVec 64), p.paramLen = 24 → g.frame1g = false → first.toNat < g.len →
        f.toNat % 0x200000 = 0 → f.toNat < 2 ^ 48 → s.shoots = [] →
        let n := f.toNat / 0x200000
        (kget first.toNat g.frames = none → granRefusal part g.fine n s = none →
          Commits (.map p c i first [f]) p 0x120 0 0 (objs ++ [objGran n]) s
            ((s.setCtx c.toNat { k with segs := kset i.toNat { g with frames := kset first.toNat f.toNat g.frames } k.segs }).setGran n
              { s.gran n with mapcount := (s.gran n).mapcount + 1 })) ∧
        ((kget first.toNat g.frames).isSome = true →
          Replies (.map p c i first [f]) p 0x120 { status := stBadParam, err := 48 } s s) ∧
        (kget first.toNat g.frames = none → s.populated f.toNat = true → isFine n s = g.fine → (s.gran n).owned = false →
          Replies (.map p c i first [f]) p 0x120 { status := stNotPermitted, err := 48 } s s)) ∧
      (∀ (first : BitVec 32) (f : BitVec 64) (u : Shoot), p.paramLen = 24 → f.toNat < 2 ^ 48 → s.shoots = [u] → u.ctx = c.toNat →
        u.seg = i.toNat → u.saved = none → u.started = true → (kget first.toNat u.pages).isSome = true →
        Replies (.map p c i first [f]) p 0x120 { status := stBusy, err := 48 } s s) ∧
      (∀ first count : BitVec 32, p.paramLen = 16 →
        (count = 0 → Commits (.unmap p c i first count) p 0x121 0 0 objs s s) ∧
        (count ≠ 0 → first.toNat + count.toNat ≤ segPages g →
          (busyClusters c.toNat i.toNat g.gen s = [] → pageMoves c.toNat i.toNat first.toNat count.toNat s = false → Completes (.unmap p c i first count) s fun t => ∃ u,
            t = reply p 0x121 {} (stampAll s.cfgGen objs u) ∧ u.mem = s.mem ∧ u.lines = s.lines ∧
            (∃ h : Segment, ((u.ctx c.toNat).bind fun x => kget i.toNat x.segs) = some h ∧ h.gen = g.gen + 1 ∧
              ∀ pg, kget pg h.frames = if first.toNat ≤ pg ∧ pg < first.toNat + count.toNat then none else kget pg g.frames) ∧
            (∀ pg f, g.frames = [(pg, f)] → first.toNat ≤ pg → pg < first.toNat + count.toNat → g.frame1g = false →
              u.gran (f / 0x200000) = { s.gran (f / 0x200000) with mapcount := (s.gran (f / 0x200000)).mapcount - 1 }) ∧
            (∀ x, x ∉ (g.frames.map fun e => e.2).flatMap (fun f => frameGrans f g.frame1g) → u.gran x = s.gran x)) ∧
          (busyClusters c.toNat i.toNat g.gen s ≠ [] ∨ pageMoves c.toNat i.toNat first.toNat count.toNat s = true →
            Completes (.unmap p c i first count) s fun t => t.out = s.out ∧ t.mbx = s.mbx ∧ t.pot = s.pot ∧
              t.shoots.length = s.shoots.length + 1 ∧
              t.changes = [{ pkt := p, opcode := 0x121, objs, rest := [{ op := .unmap p c i first count }] }])))) ∧
    (∀ (d : Fin 200) (u : Shoot), s.shoots = [u] → u.ctx = c.toNat → u.seg = i.toNat → d.val ∈ u.waiting → s.moves = [] →
      (d.val ∉ busyClusters c.toNat i.toNat u.gen s → s.halted = false → exec (.shootdownAcknowledge d c i) s =
        .next (shootAck d.val { s with shoots := [{ u with waiting := u.waiting.filter (· ≠ d.val) }] })) ∧
      (d.val ∈ busyClusters c.toNat i.toNat u.gen s ∨ s.halted = true → exec (.shootdownAcknowledge d c i) s = .next s)) ∧
    (∀ (a : BitVec 48) (struct : Bool) (slot : Nat), p.paramLen = 16 → a.toNat % 0x200000 = 0 →
      let n := a.toNat / 0x200000
      (activeSlot part s = some slot → s.populated a.toNat = true → (s.gran n).hub = false → (s.gran n).owned = false →
        s.isOffline n = false → ownedIn part (tierOf a.toNat) s < (kget (tierOf a.toNat) (s.part part).quota).getD 0 →
        Completes (.granuleBind p a struct 1) s fun t => ∃ u, t = reply p 0x130 {} (stampAll s.cfgGen [objGran n] u) ∧
          u.gran n = { s.gran n with owner := ⟨part % 8, Nat.mod_lt _ (by decide)⟩, owned := true, needsScrub := false, struct,
                                     keySlot := ⟨slot % 8, Nat.mod_lt _ (by decide)⟩, mapcount := 0,
                                     sealNo := if (s.gran n).needsScrub then slotKeyNo slot s else (s.gran n).sealNo } ∧
          (∀ x, x ≠ n → u.gran x = s.gran x) ∧
          (∀ b, b / 0x200000 = n → mget u.mem b = if (s.gran n).needsScrub then 0 else mget s.mem b) ∧
          ∀ b, b / 0x200000 ≠ n → mget u.mem b = mget s.mem b) ∧
      (s.populated a.toNat = true → (s.gran n).hub = false → (s.gran n).owned = true → (s.gran n).owner.val = part →
        (0 < (s.gran n).mapcount → Replies (.granuleUnbind p a 1) p 0x131 { status := stBusy } s s) ∧
        ((s.gran n).mapcount = 0 → (s.gran n).inMotion = false → (s.gran n).struct = false → s.lines.any (dieHolds n 1) = false →
          Completes (.granuleUnbind p a 1) s fun t => ∃ u, t = reply p 0x131 {} (stampAll s.cfgGen [objGran n] u) ∧
            u.gran n = { s.gran n with owned := false, needsScrub := true, struct := false } ∧
            (∀ x, x ≠ n → u.gran x = s.gran x) ∧ (∀ b, b / 0x200000 = n → mget u.mem b = 0) ∧
            ∀ x l, x / 32768 = n → kget x (u.cluster l).lines = none)))

/-- BAR4 reads, writes and AtomicOps reach device memory through the home, or are refused and counted. With the hub
ready, not frozen and below L5, BAR4 enabled, the addressed line accepted by its home, idle, without entry and sound,
nothing in flight in the hub, and no request of the host pending: a read of 1 to 64 bytes of one line completes with
those bytes; a write of one line writes exactly the masked bytes; an AtomicOp (FetchAdd, Swap, CAS) completes with the
old value and puts the new one in place. Where the aperture is off, the address in a hole, the home refuses, or the
port is frozen, not ready or at L5, a read completes with all ones, a write is discarded and an AtomicOp returns all
ones; each counts and logs the first reason, 1, 2, 3 or 4. Behind a write that still waits for its line, a read
completes nothing yet. A zero-length read completes with a free value. Completion (exec answers a next state) is the
conclusion for bar4Read, bar4Write and inboundAtomicop. -/
def Obligations.BarFourAperture : Prop :=
  ∀ (s : State) (off : BitVec 36), s.media = [] →
    let pa := bits (s.reg 0x3008 0) 39 30 * 2 ^ 30 + off.toNat
    let n := pa / 64
    let quiet : Prop := hostOpen s = true ∧ s.power.shed < 5 ∧ bit (s.reg 0x3008 0) 0 = true ∧
      homeRefusal (bar4Msg .rdOnce off.toNat s) s = none ∧ HomesOpen s ∧ LineIdle n s ∧ (s.line n).dir = none ∧ LineSound n [] s ∧
      s.net = [] ∧ s.changes = [] ∧ (freeTxn 0xFF n s).isSome = true ∧ s.port.writes = [] ∧
      ∀ w ∈ [whoHost, whoBar4], kget (ansKey w pa) s.ans = none ∧ kget (ansKey w pa) s.asked = none
    let refused (r : Nat) : Prop := s.port.writes = [] →
      (∀ w ∈ [whoHost, whoBar4], kget (ansKey w pa) s.ans = none ∧ kget (ansKey w pa) s.asked = none) →
      (∀ len : BitVec 13, len ≠ 0 → off.toNat % 64 + len.toNat ≤ 64 → exec (.bar4Read off len []) s =
        .next (emit (.completion (2 ^ (8 * len.toNat) - 1) false) (bar4Err off.toNat r s))) ∧
      (∀ d, off.toNat % 64 = 0 → exec (.bar4Write off (2 ^ 64 - 1) d []) s = .next (bar4Err off.toNat r s)) ∧
      (∀ op a b, off.toNat % 4 = 0 → exec (.inboundAtomicop off false op a b []) s =
        .next (emit (.completion (2 ^ 32 - 1) false) (bar4Err off.toNat r s)))
    (quiet → ∀ len : BitVec 13, len ≠ 0 → off.toNat % 64 + len.toNat ≤ 64 → Completes (.bar4Read off len []) s fun t =>
      t.out = s.out ++ [.completion (mread s.mem pa len.toNat) false] ∧ t.mem = s.mem ∧ t.port = s.port ∧ t.net = []) ∧
    (quiet → ∀ (mask : BitVec 512) (d : BitVec 4096), off.toNat % 64 = 0 → mask ≠ 0 → mask.toNat < 2 ^ 64 →
      Completes (.bar4Write off mask d []) s fun t => t.out = s.out ∧ t.port = s.port ∧ t.net = [] ∧
        (∀ i, i < 64 → (mget t.mem (64 * n + i)).toNat =
          if mask.getLsbD i then d.toNat / 256 ^ i % 256 else (mget s.mem (64 * n + i)).toNat) ∧
        ∀ a, a < 64 * n ∨ 64 * n + 64 ≤ a → mget t.mem a = mget s.mem a) ∧
    (quiet → ∀ (wide : Bool) (op : HostAtomicOp) (a b : BitVec 64), off.toNat % (if wide then 8 else 4) = 0 →
      let k := if wide then 8 else 4
      let old := mread s.mem pa k
      Completes (.inboundAtomicop off wide op a b []) s fun t => t.out = s.out ++ [.completion old false] ∧
        mread t.mem pa k = (match op with
          | .fetchAdd => (old + a.toNat) % 256 ^ k
          | .swap => a.toNat % 256 ^ k
          | .cas => if old = b.toNat % 256 ^ k then a.toNat % 256 ^ k else old) ∧
        ∀ i, i < pa ∨ pa + k ≤ i → mget t.mem i = mget s.mem i) ∧
    (hostOpen s = false ∨ 5 ≤ s.power.shed → refused 4) ∧
    (hostOpen s = true → s.power.shed < 5 → bit (s.reg 0x3008 0) 0 = false → refused 1) ∧
    (hostOpen s = true → s.power.shed < 5 → bit (s.reg 0x3008 0) 0 = true → s.populated pa = false → s.populated (64 * n) = false →
      refused 2) ∧
    (bar4Shut s = false → s.port.writes ≠ [] → settleWrites s = s →
      ∀ len : BitVec 13, len ≠ 0 → off.toNat % 64 + len.toNat ≤ 64 → exec (.bar4Read off len []) s = .next s) ∧
    exec (.bar4Read off 0 []) s = .next { emit (.completion (Config.free32 s.free).toNat false) s with free := s.free + 1 }

/-- Doorbells, host completions, and address translation services. PCI_DB_TAIL to an enabled queue that no die owns
and no change holds, with the hub ready and not frozen, stores the tail when it lies within the ring; one behind is
counted stale; of a held queue it waits; to any other queue it is discarded and counted. HOST_READ_COMPLETION of an
outstanding request leaves its data for the requester; one with another status faults a running engine with
HOST_COMPLETION; COMPLETION_TIMEOUT freezes the port and faults it with HOST_FROZEN; a completion of nothing
outstanding does nothing. An ATS invalidation drops the matching entries and no other; with no request of its PASID on
its pages outstanding and the port open it is completed at once, else it waits. A Translation Completion enters its
pages' permissions and translated addresses, which accesses then use; one with another status is met by the requester
as HOST_COMPLETION. Completion (exec answers a next state) is the conclusion for pciDbTail, hostReadCompletion,
completionTimeout, atsInvalidationRequest and translationCompletion. -/
def Obligations.DoorbellsAndCompletions : Prop :=
  (∀ (s : State) (q : BitVec 14) (t : BitVec 32),
    (∀ k : Queue, s.queue q.toNat = some k → k.state = 1 → k.ownerClass ≠ 2 → hostOpen s = true → isHeld (objQueue q.toNat) s = false →
      ((t - k.tail).toNat < 2 ^ 31 → (t - k.head).toNat ≤ 2 ^ k.log2 →
        exec (.pciDbTail q t) s = .next (s.setQueue q.toNat { k with tail := t })) ∧
      (2 ^ 31 ≤ (t - k.tail).toNat → exec (.pciDbTail q t) s = .next (s.setQueue q.toNat { k with staleDb := satAdd 16 k.staleDb 1 }))) ∧
    (hostOpen s = true → (s.queue q.toNat).isSome = true → isHeld (objQueue q.toNat) s = true → exec (.pciDbTail q t) s = .next s) ∧
    (hostOpen s = false ∨ s.queue q.toNat = none ∨
        (isHeld (objQueue q.toNat) s = false ∧ ∃ k, s.queue q.toNat = some k ∧ (k.state ≠ 1 ∨ k.ownerClass = 2)) →
      exec (.pciDbTail q t) s = .next { s with port := { s.port with dbLast := q.toNat, dbDrop := satAdd 16 s.port.dbDrop 1 } })) ∧
  (∀ (s : State) (who : BitVec 24) (iova : BitVec 47) (d : BitVec 512),
    let key := ansKey who.toNat (0x800000000000 + iova.toNat)
    (kget key s.asked = none → exec (.hostReadCompletion who iova true d) s = .next s ∧ exec (.hostReadCompletion who iova false d) s = .next s ∧
      exec (.completionTimeout who iova) s = .next s) ∧
    ((kget key s.asked).isSome = true → s.port.inval = [] → exec (.hostReadCompletion who iova true d) s =
      .next { s with ans := kset key { status := 0, data := d, poison := false } s.ans, asked := kdel key s.asked }) ∧
    ((kget key s.asked).isSome = true → 16000 < who.toNat → s.port.frozen = false →
      Completes (.completionTimeout who iova) s fun t => t.port.frozen = true ∧ t.port.cause = 1 ∧ t.port.atc = [] ∧
        t.port.aer.getLsbD 14 = true ∧ kget key t.ans = some { status := fcHostFrozen, data := 0, poison := false } ∧
        kget key t.asked = none ∧ t.mem = s.mem)) ∧
  (∀ (s : State) (tag : BitVec 16) (pasid : BitVec 22) (page : BitVec 52) (pages : BitVec 32), s.port.inval = [] →
    let v : Inval := { tag := tag.toNat, pasid := pasid.toNat, page := page.toNat, pages := pages.toNat }
    Completes (.atsInvalidationRequest tag pasid page pages) s fun t => t.mem = s.mem ∧
      (hostOpen s = true → hostOutstanding v s = false → t.out = s.out ++ [.atsInvalDone tag.toNat] ∧
        t.port.atcInvals = satAdd 16 s.port.atcInvals 1 ∧ t.port.inval = []) ∧
      (hostOpen s = false ∨ hostOutstanding v s = true → t.out = s.out ∧ t.port.inval = [v]) ∧
      ∀ k, kget k t.port.atc = if pasid.toNat * 2 ^ 52 + page.toNat ≤ k ∧ k < pasid.toNat * 2 ^ 52 + page.toNat + pages.toNat
        then none else kget k s.port.atc) ∧
  (∀ (s : State) (pasid : BitVec 22) (page : BitVec 52) (pages : BitVec 16) (r w : Bool) (tpage : BitVec 52), s.port.parked = [] →
    let k := pasid.toNat * 2 ^ 52 + page.toNat
    (kget k s.port.atsAsked = none → ∀ b, exec (.translationCompletion pasid page pages r w b tpage) s = .next s) ∧
    (∀ who, kget k s.port.atsAsked = some who → Completes (.translationCompletion pasid page pages r w true tpage) s fun t =>
      (∀ j, kget j t.port.atc =
        if k ≤ j ∧ j < k + pages.toNat then some ((tpage.toNat + (j - k)) * 4 + (b2n r + 2 * b2n w)) else kget j s.port.atc) ∧
      kget k t.port.atsAsked = none ∧ t = { s with port := t.port }) ∧
    (∀ who, kget k s.port.atsAsked = some who → who ≠ 0 → exec (.translationCompletion pasid page pages r w false tpage) s =
      .next { s with port := { s.port with atsAsked := kdel k s.port.atsAsked, atsBad := kset who k s.port.atsBad } })) ∧
  (∀ (s : State) (who c iova e : Nat) (write : Bool), let k := ctxPasid c s * 2 ^ 52 + iova / 4096
    (kget who s.port.atsBad = some k → (atcLook who c iova write s).1 = some (.error fcHostCompletion)) ∧
    (kget who s.port.atsBad = none → kget k s.port.atc = some e →
      (bit e (b2n write) = true → atcLook who c iova write s = (some (.ok (e / 4 * 4096 + iova % 4096)), s)) ∧
      (bit e (b2n write) = false → (atcLook who c iova write s).1 = some (.error fcHostTranslation))))

/-- The six freeze triggers, what a freeze keeps, and the release. Each trigger on a port that is not frozen freezes
it with its cause (1 for an uncorrectable error, 2 for a poisoned TLP, 3 for DL_Active lost, 4 for a port reset, 5 for
a hot removal, 6 for D3hot), empties the translation cache, holds what waited in the port in its order, and raises the
alert; on a frozen port it sets MULTIPLE and keeps the cause, and stops a release between its steps 4 and 5 with
REL_ERR 5. The removal of a link that was up is a loss of DL_Active first, then a further trigger. While frozen no
report write is sent: it is held when there is room. A release with the wrong KEY, or of a port that is not frozen,
sets REL_ERR 6; with DL_Active down 1, with an AER bit set 2, without bus mastering or memory space 3, in D3hot 4;
each leaves the port as it was. With every condition met step 4 stands; step 5 follows at the tick once the hub is
ready, and with nothing held or pending it ends the freeze and leaves all else. DL_ACTIVE records the trained link (a
rate and a width of R278; at rate 6 flit mode) and releases nothing; of no such rate or width, or in reset, it does
nothing. Completion (exec answers a next state) is the conclusion for uncorrectableError, poisonedTlp, surpriseDown,
portReset, hotRemoval, d3hot, freezeRelease and dlActive. -/
def Obligations.FreezeAndRelease : Prop :=
  (∀ s : State, s.port.frozen = false → heldBytes (s.port.parked ++ s.port.held) ≤ 524288 →
    let froze (i : Instr) (cause : Nat) : Prop := Completes i s fun t => t.port.frozen = true ∧ t.port.cause = cause ∧
      t.port.multiple = s.port.multiple ∧ t.port.atc = [] ∧ t.port.parked = [] ∧
      t.port.held = s.port.parked ++ s.port.held ∧ t.power.smb.testBit 0 = true ∧ t.mem = s.mem ∧ t.out = s.out ∧
      t.queues = s.queues ∧ t.ctxs = s.ctxs ∧ t.cores = s.cores
    (∀ b : BitVec 5, b ≠ 12 → froze (.uncorrectableError b) 1) ∧ froze (.uncorrectableError 12) 2 ∧ froze (.poisonedTlp none) 2 ∧
    (s.port.dlActive = true → froze .surpriseDown 3) ∧ froze .portReset 4 ∧ (s.port.dlActive = false → froze .hotRemoval 5) ∧ froze .d3hot 6 ∧
    (s.port.dlActive = true → Completes .hotRemoval s fun t => t.port.frozen = true ∧ t.port.cause = 3 ∧ t.port.multiple = true ∧
      t.port.dlActive = false ∧ t.mem = s.mem)) ∧
  (∀ s : State, s.port.frozen = true →
    let keeps (i : Instr) : Prop := Completes i s fun t => t.port.frozen = true ∧ t.port.cause = s.port.cause ∧ t.port.multiple = true ∧
      t.port.held = s.port.held ∧ t.out = s.out ∧ t.port.releasing = false ∧ (s.port.releasing = true → t.port.relErr = 5)
    (∀ b, keeps (.uncorrectableError b)) ∧ keeps (.poisonedTlp none) ∧ (s.port.dlActive = true → keeps .surpriseDown) ∧
    keeps .portReset ∧ keeps .hotRemoval ∧ keeps .d3hot ∧
    ∀ h : Held, heldBytes s.port.held + h.bytes ≤ 524288 → report h s = { s with port := { s.port with held := s.port.held ++ [h] } }) ∧
  (∀ s : State, s.port.dlActive = false → exec .surpriseDown s = .next s) ∧
  (∀ (s : State) (key : BitVec 16),
    let rel (e : Nat) : Prop :=
      exec (.freezeRelease key true) s = .next { s with port := { s.port with relErr := e } }
    exec (.freezeRelease key false) s = .next s ∧ (key ≠ 0x3A7E ∨ s.port.frozen = false → rel 6) ∧
    (key = 0x3A7E → s.port.frozen = true →
      (s.port.dlActive = false → rel 1) ∧
      (s.port.dlActive = true → s.port.aer ≠ 0 → rel 2) ∧
      (s.port.dlActive = true → s.port.aer = 0 → ¬(s.pciCommand.testBit 1 = true ∧ s.pciCommand.testBit 2 = true) → rel 3) ∧
      (s.port.dlActive = true → s.port.aer = 0 → s.pciCommand.testBit 1 = true → s.pciCommand.testBit 2 = true →
        (s.port.d3hot = true → rel 4) ∧
        (s.port.d3hot = false → exec (.freezeRelease key true) s =
            .next { s with port := { s.port with relErr := 0, releasing := true } })))) ∧
  (∀ s : State, (s.port.releasing = false ∨ s.co.ready = false → releaseRun s = s) ∧
    (s.port.releasing = true → s.co.ready = true → s.port.held = [] → s.port.inval = [] → s.port.parked = [] → s.evt = [] →
      s.frings = [] → s.port.asserted = false →
      releaseRun s = { s with port := { s.port with frozen := false, multiple := false, releasing := false } })) ∧
  (∀ (s : State) (rate : BitVec 3) (width : BitVec 5) (flit : Bool),
    let trains : Prop := s.rst.porN = true ∧ s.rst.perstN = true ∧ 1 ≤ rate.toNat ∧ rate.toNat ≤ 6 ∧ width.toNat ∈ [1, 2, 4, 8, 16]
    (¬trains → exec (.dlActive rate width flit) s = .next s) ∧
    (trains → Completes (.dlActive rate width flit) s fun t => t.port.dlActive = true ∧ t.port.linkRate = rate.toNat ∧
      t.port.linkWidth = width.toNat ∧ t.port.flit = (flit || rate == 6) ∧ t.port.frozen = s.port.frozen ∧ t.port.cfg = s.port.cfg ∧
      t = { s with port := t.port, clocks := t.clocks }))

/-- INTx follows the interrupt condition, Interrupt Disable and PCI_INTX_STAT. With the hub ready and not frozen, no
release under way and no report write waiting in the port, evaluation leaves the line asserted exactly when an enabled
ring holds an unacknowledged record and Interrupt Disable is 0; it sends Assert_INTA or Deassert_INTA only when the
level changes, and never twice. INTERRUPT_DISABLE sets or clears bit 10 of Command, keeps its other bits, and
evaluates. A read of PCI_INTX_STAT evaluates first and completes after the message it caused with the condition, the
line's level and the count; while frozen or not ready it completes with all ones. Behind a report write that waits in
the port no message is sent. Completion (exec answers a next state) is the conclusion for pciIntxStat and
interruptDisable. -/
def Obligations.InterruptsFollowTheRings : Prop :=
  (∀ s : State, s.port.parked ≠ [] ∨ s.port.releasing = true → intxEval s = s) ∧
  (∀ s : State, hostOpen s = true → s.port.parked = [] → s.port.releasing = false →
    let want : Bool := (s.evt.any fun r => r.2.enable && r.2.prod != r.2.ack) && !s.pciCommand.testBit 10
    (intxEval s).port.asserted = want ∧ intxEval (intxEval s) = intxEval s ∧
    (want = s.port.asserted → intxEval s = s) ∧ (want ≠ s.port.asserted → (intxEval s).out = s.out ++ [.intx want]) ∧
    exec .pciIntxStat s = .next (emit (.completion
      (b2n (s.evt.any fun r => r.2.enable && r.2.prod != r.2.ack) + 2 * b2n want +
        ((intxEval s).port.asserts % 2 ^ 16) * 2 ^ 16) false) (intxEval s))) ∧
  (∀ s : State, hostOpen s = false → exec .pciIntxStat s = .next (emit (.completion 0xFFFFFFFF false) s)) ∧
  (∀ (s : State) (b : Bool), Completes (.interruptDisable b) s fun t => t.pciCommand.testBit 10 = b ∧
    (∀ i, i ≠ 10 → t.pciCommand.testBit i = s.pciCommand.testBit i) ∧ t.mem = s.mem ∧ t.evt = s.evt ∧
    (hostOpen s = true → s.port.parked = [] → s.port.releasing = false → b = true → t.port.asserted = false))

/-- QUEUE_CREATE, ENABLE, DISABLE, DISABLED and DESTROY. For packets served at once: QUEUE_CREATE of a well-formed
host queue of an ACTIVE context whose RING lies in a readable segment gives the lowest free id a DISABLED queue of the
named fields with its indices 0, takes a reference of its context, and replies the id; a form fault is ST_BAD_PARAM at
its offset. QUEUE_ENABLE makes a DISABLED or ERROR queue of a context that is not LOST ENABLED, of a LOST one it is
ST_CONTEXT_LOST. QUEUE_DISABLE of a queue with nothing dispatched makes it DISABLED; with work dispatched it is
stopping, its change waits, and QUEUE_ENABLE and a second QUEUE_DISABLE are ST_BUSY. QUEUE_DISABLED with work left
does nothing; with none left it makes the queue DISABLED, ends the change with one advance of the generation, and
replies. QUEUE_DESTROY of a queue with other references sets BIND_OFF and releases one; a second one does nothing.
Completion (exec answers a next state) is the conclusion for queueCreate, queueEnable, queueDisable, queueDisabled and
queueDestroy. -/
def Obligations.QueueCommands : Prop :=
  (∀ (s : State) (p : Pkt), ServedFor p s →
    let part := p.partition.toNat
    (∀ (priv : Bool) (log2 cls : BitVec 8) (c : BitVec 20) (ring headAddr : BitVec 64), p.paramLen = 24 →
      let make := Instr.queueCreate p 0 0 priv log2 cls c ring headAddr
      (log2.toNat < 6 ∨ 16 < log2.toNat → Replies make p 0x200 { status := stBadParam, err := 33 } s s) ∧
      (6 ≤ log2.toNat → log2.toNat ≤ 16 → cls.toNat ≤ 1 → Replies make p 0x200 { status := stBadParam, err := 34 } s s) ∧
      (6 ≤ log2.toNat → log2.toNat ≤ 16 → cls = 2 ∨ cls = 3 → ring.toNat % (64 * 2 ^ log2.toNat) = 0 → headAddr = 0 →
        ∀ (k : Ctx) (i q d : Nat) (g : Segment) (s1 : State), s.ctx c.toNat = some k → k.part.val = part → k.state = 0 → k.inst = none →
        k.segs = [(i, g)] → g.r = true → g.base ≤ ring.toNat → ring.toNat + 64 * 2 ^ log2.toNat ≤ g.base + g.len * 0x200000 →
        (∀ j, j < q → (s.queue j).isSome = true ∨ 2 * 2 ^ 32 + j ∈ s.reservedIds) → s.queue q = none → q < 16384 →
        2 * 2 ^ 32 + q ∉ s.reservedIds → alloc part 64 64 s = some (d, s1) →
        Completes make s fun t => ∃ u : State, t = reply p 0x200 { len := 4, data := q } (stampAll s.cfgGen [objCtx c.toNat, objQueue q] u) ∧
          u.queue q = some { part := ⟨part % 8, Nat.mod_lt _ (by decide)⟩, privileged := priv, log2 := log2.toNat, cls := cls.toNat,
                             ctx := c.toNat, ring := ring.toNat, desc := d } ∧
          (u.ctx c.toNat).map (fun x => x.refc) = some (k.refc + 1) ∧ (∀ j, j ≠ q → u.queue j = s.queue j) ∧ u.mem = s.mem)) ∧
    (∀ (q : BitVec 14) (k : Queue) (c : Ctx), p.paramLen = 8 → s.queue q.toNat = some k → k.part.val = part → s.ctx k.ctx = some c →
      let objs := [objQueue q.toNat]
      (k.state ≠ 3 → k.stopping = none →
        (c.cause = 0 → Commits (.queueEnable p q) p 0x201 0 0 objs s (s.setQueue q.toNat { k with state := 1 })) ∧
        (c.cause ≠ 0 → Replies (.queueEnable p q) p 0x201 { status := stContextLost } s s) ∧
        (k.flight = [] → Commits (.queueDisable p q) p 0x202 0 0 objs s (s.setQueue q.toNat { k with state := 0 })) ∧
        (k.flight ≠ [] → exec (.queueDisable p q) s = .next { s.setQueue q.toNat { k with stopping := some p } with
          changes := [{ pkt := p, opcode := 0x202, objs, rest := [{ op := .queueDisable p q }] }] })) ∧
      (k.stopping.isSome = true → k.state ≠ 3 → Replies (.queueEnable p q) p 0x201 { status := stBusy } s s ∧
        Replies (.queueDisable p q) p 0x202 { status := stBusy } s s) ∧
      (k.state = 3 → Commits (.queueDestroy p q) p 0x203 0 0 objs s s) ∧
      (k.state ≠ 3 → 1 < k.refc → Commits (.queueDestroy p q) p 0x203 0 0 objs s
        ((s.setQueue q.toNat { k with state := 3, created := false }).setQueue q.toNat
          { k with state := 3, created := false, refc := k.refc - 1 })))) ∧
  (∀ (s : State) (q : BitVec 14) (k : Queue) (o : Pkt), s.queue q.toNat = some k →
    (k.stopping = none → exec (.queueDisabled q) s = .next s) ∧
    (k.stopping = some o →
      s.changes = [{ pkt := o, opcode := 0x202, objs := [objQueue q.toNat], rest := [{ op := .queueDisable o q }] }] →
      (packetOpen o s = true ∨ s.halted = true → exec (.queueDisabled q) s = .next s) ∧
      (packetOpen o s = false → s.halted = false → s.shoots = [] → k.part.val = o.partition.toNat % 8 → k.state ≠ 3 →
        Completes (.queueDisabled q) s fun t => t.queue q.toNat = some { k with state := 0, stopping := none } ∧ t.changes = [] ∧
          t.cfgGen = s.cfgGen + 1 ∧ t.mem = s.mem ∧ t.accepted = s.accepted.filter fun a => !samePkt a.pkt o)))

/-- Work is fetched, dispatched in order, performed and completed. QUEUE_FETCH copies the entry at HEAD behind those
fetched and advances HEAD. COPY, FILL, MIGRATE and CENSUS_READ already dispatched, whose rows or records are all
performed (or that name none), mark themselves done with ST_OK once their window writes are acknowledged; a head whose
fields break its rules is dispatched done with ST_BAD_PARAM and has no other effect. BARRIER is done once no earlier
one is incomplete, and SIGNAL then applies its entries in order and drops its references; before, neither does
anything. A WAIT met when dispatched is done at once with its result. LAUNCH whose image is loaded starts on free
cores; LAUNCH_RESERVE reserves waiting cores for one launch a partition. MIGRATE moves the bytes of a page. Nothing of
a queue or a fence that a change holds is dispatched or signalled. Completion (exec answers a next state) is the
conclusion for queueFetch, workCopy, fill, censusRead, migrate, barrier, signal, wait, launch and launchReserve. -/
def Obligations.WorkDescriptors : Prop :=
  ∀ (s u v2 : State) (q : BitVec 14) (i : BitVec 32) (m : MediaList) (k : Queue), s.queue q.toNat = some k →
    let who (code : Nat) : Who := { code, cluster := none, ctx := k.ctx, part := k.part }
    let at_ := who (whoDesc q.toNat i.toNat)
    let on := agentReads { s with media := m }
    let sys : Prop := sysRelease (whoDesc q.toNat i.toNat) u = (true, v2)
    (∀ v : Nat, mayFetch k on = true → k.head + 1 = k.tail → u.queue q.toNat = some k →
      readRange (who (whoFetch q.toNat)) .read (k.ring + 64 * (k.head.toNat % 2 ^ k.log2)) 64 on = (.ok v, u) →
      exec (.queueFetch q m) s = .next { u.setQueue q.toNat { k with head := k.head + 1, fetched :=
        k.fetched ++ [{ index := k.head, word := BitVec.ofNat 512 v }] } with media := [] }) ∧
    (∀ d : Flight, k.fetched = [] → openFlight k i = some d → d.index = i → d.ending = none →
      (dType d.word = 2 → d.pos ≠ allOut → copyFrom at_ (copyRows d.word) d.pos on = (.done, u) →
        (sys → exec (.workCopy q i m) s = .next { flightDone q.toNat i stOk v2 with media := [] }) ∧
        (sysRelease (whoDesc q.toNat i.toNat) u = (false, v2) →
          exec (.workCopy q i m) s = .next { setFlight q.toNat i (fun d => { d with pos := allOut }) v2 with media := [] })) ∧
      (dType d.word = 3 → d.pos ≠ allOut → copyFrom at_ (fillRows d.word) d.pos on = (.done, u) → sys →
        exec (.fill q i m) s = .next { flightDone q.toNat i stOk v2 with media := [] }) ∧
      (dType d.word = 8 → cSrcRecords d.word = 0 ∨ cDstRecords d.word = 0 →
        exec (.censusRead q i m) s = .next { flightDone q.toNat i stOk on with media := [] }) ∧
      (dType d.word = 8 → cSrcRecords d.word ≠ 0 → cDstRecords d.word ≠ 0 → d.pos = 0 →
        censusRun at_ d.word (cSrcRecords d.word + 1) 0 0 0 on = (.done, u) → sys →
        exec (.censusRead q i m) s = .next { flightDone q.toNat i stOk v2 with media := [] }) ∧
      (dType d.word = 7 → mCount d.word = 0 → exec (.migrate q i m) s = .next { flightDone q.toNat i stOk on with media := [] }) ∧
      (∀ v, dType d.word = 7 → mCount d.word = 1 → s.moves = [] → u.moves = [] →
        readRange at_ .read (mList d.word) 8 on = (.ok v, u) → (listEntry v 0).2 = true →
        (∃ c : Ctx, u.ctx (listEntry v 0).1.1 = some c ∧ c.part = k.part) →
        moveRefusal k.part.val (mSrc d.word) (mDst d.word) (mOne d.word) [(listEntry v 0).1] u = none →
        exec (.migrate q i m) s = .next { moveStart { part := k.part.val, src := mSrc d.word, dst := mDst d.word,
                                                      g1 := mOne d.word, maps := [(listEntry v 0).1],
                                                      from_ := some (q.toNat, i) } u with media := [] }) ∧
      (dType d.word = 6 → noEarlier k i = true → exec (.barrier q i) s = .next (flightDone q.toNat i stOk s)) ∧
      (dType d.word = 6 → noEarlier k i = false → exec (.barrier q i) s = .next s) ∧
      (dType d.word = 4 → noEarlier k i = false → exec (.signal q i) s = .next s) ∧
      (dType d.word = 4 → fencesHeld q.toNat i s = true → exec (.signal q i) s = .next s) ∧
      (dType d.word = 4 → noEarlier k i = true → fencesHeld q.toNat i s = false → dCount d.word = 1 →
        let e := dEntry d.word 0
        exec (.signal q i) s = .next (flightDone q.toNat i stOk (fenceUnref (bits e 21 0) 1
          (if bit e 22 then fenceReset (bits e 21 0) s else fenceSignal (bits e 21 0) (BitVec.ofNat 32 (bits e 63 32)) s)))) ∧
      (∀ (img : Image) (code init : Nat), dType d.word = 1 → kget (q.toNat * 2 ^ 32 + i.toNat) s.launches = none →
        (s.ctx k.ctx).map ctxGone = some false → launchFieldsOk d.word = true → lCount d.word ≠ 0 → coresOwned k.part.val d.word on = true → lDet d.word = false →
        loadImage (who (whoLoader q.toNat i.toNat)) (lImage d.word) false (imageSegs q.toNat k d) on = (.ok img code init, u) →
        coresFree k.part.val (q.toNat * 2 ^ 32 + i.toNat) d.word u = true → Completes (.launch q i m) s fun t =>
          t = { startLaunch q.toNat k d img code init u with media := [] } ∧
          ∀ j, j < lCount d.word → let x := t.core (lFirst d.word + j)
            x.run = true ∧ x.pc = img.entry ∧ x.codeSize = img.codeSize ∧ x.ctx = k.ctx ∧ x.part = k.part ∧ x.blk = none ∧
            x.link = q.toNat * 2 ^ 32 + i.toNat ∧ x.get 1 = BitVec.ofNat 64 (lArgs d.word) ∧ x.get 2 = BitVec.ofNat 64 j ∧
            x.get 3 = BitVec.ofNat 64 (lCount d.word) ∧ x.get 4 = BitVec.ofNat 64 (lFirst d.word + j) ∧ x.get 5 = 0 ∧
            x.vregs = [] ∧ x.sems = [] ∧ x.l1 = [] ∧ x.active = {} ∧ x.armed = false)) ∧
    (∀ (d : Desc) (l : List Desc), k.fetched = d :: l → d.index = i → isHeld (objQueue q.toNat) s = false →
      let bad : Host.Outcome State Fault Refusal := .next { dispatchHead q.toNat [] (some stBadParam) on with media := [] }
      (dType d.word = 2 → mayDispatch k on = true → copyOk d.word = false → exec (.workCopy q i m) s = bad) ∧
      (dType d.word = 3 → mayDispatch k on = true → fillOk d.word = false → exec (.fill q i m) s = bad) ∧
      (dType d.word = 8 → mayDispatch k on = true → censusOk d.word = false → exec (.censusRead q i m) s = bad) ∧
      (dType d.word = 7 → mayDispatch k on = true → migrateOk d.word = false → exec (.migrate q i m) s = bad) ∧
      (∀ (x : Fence) (st : Nat), dType d.word = 5 → mayDispatch k s = true → openFlight k i = none → fencesHeld q.toNat i s = false → fenceFieldsOk false d.word = true →
        dCount d.word = 1 → s.fence (bits (dEntry d.word 0) 21 0) = some x → x.part = k.part → x.bindOff = false →
        waitResult x (BitVec.ofNat 32 (bits (dEntry d.word 0) 63 32)) = some st →
        exec (.wait q i) s = .next (setFlight q.toNat i (fun f => { f with met := [(0, st)], done := some st })
          (dispatchHead q.toNat [] none s))) ∧
      ((waitsForCores k.part.val k s).isSome = true → coresFree k.part.val (q.toNat * 2 ^ 32 + i.toNat) d.word s = false →
        kget k.part.val s.resv = none → longestWaiting k.part.val q.toNat s = true → exec (.launchReserve q i) s =
          .next { s with resv := kset k.part.val (q.toNat * 2 ^ 32 + i.toNat) s.resv })) ∧
    (∀ (v : Move) (o : Nat), MemoryCanonical s → o < frameSize v.g1 → v.src + frameSize v.g1 ≤ v.dst ∨ v.dst + frameSize v.g1 ≤ v.src →
      mget (moveBytes v s) (v.dst + o) = mget s.mem (v.src + o))

/-- A descriptor completes, DONE follows the oldest ones, and fences decide waits. DESCRIPTOR_COMPLETE of a dispatched
descriptor that is done completes it with its status; of one that is not, or of an index not in hand, it does nothing;
a head not dispatched completes with ST_CONTEXT_LOST in a LOST context and with ST_NOT_PERMITTED in a BIND_OFF one.
Completion out of order counts it, leaves DONE, and with a status other than ST_OK records it as the last error;
STOP_ON_ERROR puts the queue in ERROR. Completion of the oldest advances DONE over it and every one finished behind
it, and writes the completion word. A wait for the epoch in force is met when signalled, for one up to 2^31 behind at
once, for one further behind, short of 3 × 2^30, with ST_STALE, and is pending otherwise; on an ABANDONED fence every
wait is met with ST_CONTEXT_LOST. A LAUNCH that completes is counted in its context. Completion (exec answers a next
state) is the conclusion for descriptorComplete. -/
def Obligations.DescriptorsComplete : Prop :=
  (∀ (s : State) (q : BitVec 14) (i : BitVec 32) (k : Queue), s.queue q.toNat = some k →
    (∀ (d : Flight) (st : Nat), k.flight = [d] → d.index = i → d.done = some st →
      exec (.descriptorComplete q i) s = .next (completeFlight q.toNat d st s)) ∧
    (∀ d : Flight, k.flight = [d] → d.index = i → d.done = none → dType d.word ≠ 6 → exec (.descriptorComplete q i) s = .next s) ∧
    (∀ (d : Desc) (l : List Desc) (c : Ctx), k.flight = [] → k.fetched = d :: l → d.index = i → s.ctx k.ctx = some c →
      (ctxGone c = true → exec (.descriptorComplete q i) s = .next (completeHead q.toNat stContextLost s)) ∧
      (ctxGone c = false → c.state = 2 → dispatchOpen k s = true →
        exec (.descriptorComplete q i) s = .next (completeHead q.toNat stNotPermitted s)) ∧
      (c.cause = 0 → c.abandon = 0 → c.state = 0 → 1 ≤ dType d.word → dType d.word ≤ 8 → exec (.descriptorComplete q i) s = .next s)) ∧
    (k.flight = [] → k.fetched = [] → exec (.descriptorComplete q i) s = .next s)) ∧
  (∀ (s : State) (q : Nat) (i : BitVec 32) (w : BitVec 512) (k : Queue), s.queue q = some k → kget k.done.toNat k.finished = none →
    let counted : Queue := { k with finished := kset i.toNat true k.finished, completed := (k.completed + 1) % 2 ^ 64 }
    (i ≠ k.done → w.getLsbD 8 = false →
      (dType w ≠ 1 → completeIn q i w 0 s = s.setQueue q counted) ∧
      (∀ c : Ctx, dType w = 1 → s.ctx k.ctx = some c →
        completeIn q i w 0 s = (s.setQueue q counted).setCtx k.ctx { c with launches := c.launches + 1 })) ∧
    (i ≠ k.done → ∀ st, st ≠ 0 → dType w ≠ 1 → completeIn q i w st s = partEvent 2 k.part.val (complPayload q st i.toNat (dTag w))
      (s.setQueue q { counted with errIndex := i, errStatus := st,
                                   state := if w.getLsbD 9 = true ∧ k.state = 1 then 2 else k.state })) ∧
    (i = k.done → w.getLsbD 8 = false → dType w ≠ 1 → ∃ d : BitVec 32, completeIn q i w 0 s =
      queueWord q (s.setQueue q { counted with finished := (doneRun 65536 counted).finished, done := d }) ∧
      (kget d.toNat (doneRun 65536 counted).finished = none ∨ 65536 ≤ k.finished.length))) ∧
  (∀ (x : Fence) (w : BitVec 32),
    let b := (x.epoch - w).toNat
    (x.abandoned = true → waitResult x w = some stContextLost) ∧
    (x.abandoned = false →
      (b = 0 → waitResult x w = if x.signalled then some stOk else none) ∧ (1 ≤ b → b ≤ 2 ^ 31 → waitResult x w = some stOk) ∧
      (2 ^ 31 < b → b < 3 * 2 ^ 30 → waitResult x w = some stStale) ∧ (3 * 2 ^ 30 ≤ b → waitResult x w = none)))

/-- FENCE_CREATE, DESTROY, SIGNAL and RESET, OBJ_RETAIN and OBJ_RELEASE. For packets served at once: FENCE_CREATE
gives a free id of a block of the partition an unsignalled fence with EPOCH 0 and count 1, takes a reference of its
context and replies the id; a mirror that is misaligned or in no writable segment is ST_BAD_PARAM at 40, a context not
ACTIVE ST_CONTEXT_LOST. FENCE_SIGNAL up to 2^30 ahead sets EPOCH and SIGNALLED, FENCE_RESET adds 1 and clears it; on
an abandoned fence, or further ahead, the operation is dropped and counted; a BIND_OFF fence takes no signal.
FENCE_DESTROY sets BIND_OFF, releases one reference and first force-signals a fence with waits; a second one does
nothing; at count 0 the fence is gone. OBJ_RETAIN and OBJ_RELEASE move the count and the host's share together; more
than the share is ST_BAD_PARAM, an unknown kind too, a full count ST_NO_RESOURCE. Completion (exec answers a next
state) is the conclusion for fenceCreate, fenceDestroy, fenceSignal, fenceReset, objRetain and objRelease. -/
def Obligations.FencesAndReferences : Prop :=
  ∀ (s : State) (p : Pkt), ServedFor p s →
    let part := p.partition.toNat
    (∀ (c : BitVec 20) (mirror : BitVec 64), p.paramLen = 16 →
      (mirror.toNat % 8 ≠ 0 → Replies (.fenceCreate p c mirror) p 0x210 { status := stBadParam, err := 40 } s s) ∧
      (∀ k : Ctx, s.ctx c.toNat = some k → k.part.val = part → mirror.toNat % 8 = 0 →
        (mirror ≠ 0 → (∀ e ∈ k.segs, e.2.w = true → ¬(e.2.base ≤ mirror.toNat ∧ mirror.toNat + 8 ≤ e.2.base + e.2.len * 0x200000)) →
          Replies (.fenceCreate p c mirror) p 0x210 { status := stBadParam, err := 40 } s s) ∧
        (k.state ≠ 0 → Replies (.fenceCreate p c 0) p 0x210 { status := stContextLost } s s) ∧
        (∀ f, k.state = 0 → newFence part s = some f →
          (s.fence f = none ∨ blockOf (f / 2048) s = none) ∧ 3 * 2 ^ 32 + f ∉ s.reservedIds ∧
          ((blockOf (f / 2048) s).isSome = true → Commits (.fenceCreate p c 0) p 0x210 4 f [objCtx c.toNat, objFence f] s
            ((s.setFence f { part := ⟨part % 8, Nat.mod_lt _ (by decide)⟩, owner := c.toNat }).setCtx c.toNat
              { k with refc := k.refc + 1 }))))) ∧
    (∀ (f : BitVec 22) (e : BitVec 32), p.paramLen = 8 →
      (s.fence f.toNat = none → Replies (.fenceSignal p f e) p 0x212 { status := stBadParam, err := 32 } s s) ∧
      ∀ x : Fence, s.fence f.toNat = some x →
        (x.part.val ≠ part → Replies (.fenceReset p f) p 0x213 { status := stNotPermitted, err := 32 } s s) ∧
        (x.part.val = part →
          (x.bindOff = true → Replies (.fenceSignal p f e) p 0x212 { status := stNotPermitted, err := 32 } s s ∧
            Commits (.fenceDestroy p f) p 0x211 0 0 [objFence f.toNat] s s) ∧
          (x.bindOff = false → Replies (.fenceSignal p f e) p 0x212 {} s (fenceSignal f.toNat e (s.touch (objFence f.toNat)))) ∧
          Replies (.fenceReset p f) p 0x213 {} s (fenceReset f.toNat (s.touch (objFence f.toNat))) ∧
          (x.bindOff = false → x.waiters = 0 → 1 < x.refc → Commits (.fenceDestroy p f) p 0x211 0 0 [objFence f.toNat] s
            ((s.setFence f.toNat { x with bindOff := true, created := false }).setFence f.toNat
              { x with bindOff := true, created := false, refc := x.refc - 1 })) ∧
          (x.bindOff = false → 0 < x.waiters → 1 < x.refc → x.abandoned = false → x.mirror = 0 → s.queues = [] →
            Completes (.fenceDestroy p f) s fun t => t.fence f.toNat = some
              { x with epoch := x.epoch + 0x40000000, signalled := true, abandoned := true, bindOff := true, created := false,
                       refc := x.refc - 1 }) ∧
          (x.bindOff = false → x.waiters = 0 → x.refc = 1 →
            Completes (.fenceDestroy p f) s fun t => t.fence f.toNat = none ∧ t.mem = s.mem ∧ t.queues = s.queues))) ∧
    (∀ (f : Nat) (e : BitVec 32) (x : Fence), s.fence f = some x → x.mirror = 0 → s.queues = [] →
      let dropped := s.setFence f { x with dropped := satAdd 32 x.dropped 1 }
      (x.abandoned = false → (e - x.epoch).toNat ≤ 2 ^ 30 → fenceSignal f e s = s.setFence f { x with epoch := e, signalled := true }) ∧
      (x.abandoned = true ∨ 2 ^ 30 < (e - x.epoch).toNat → fenceSignal f e s = dropped) ∧
      (x.abandoned = false → fenceReset f s = s.setFence f { x with epoch := x.epoch + 1, signalled := false }) ∧
      (x.abandoned = true → fenceReset f s = dropped)) ∧
    (∀ (kind : BitVec 8) (id n : BitVec 32), p.paramLen = 16 →
      (n = 0 → Replies (.objRetain p kind id n) p 0x220 {} s s ∧ Replies (.objRelease p kind id n) p 0x221 {} s s) ∧
      (n ≠ 0 → 2 < kind.toNat → Replies (.objRetain p kind id n) p 0x220 { status := stBadParam, err := 32 } s s ∧
        Replies (.objRelease p kind id n) p 0x221 { status := stBadParam, err := 32 } s s) ∧
      (∀ k : Ctx, n ≠ 0 → s.ctx id.toNat = some k → k.part.val = part → k.state = 0 → k.cause = 0 →
        (k.refc + n.toNat < 2 ^ 32 → Replies (.objRetain p 0 id n) p 0x220 {} s
          ((s.setCtx id.toNat { k with refc := k.refc + n.toNat, held := k.held + n.toNat }).touch (objCtx id.toNat))) ∧
        (2 ^ 32 ≤ k.refc + n.toNat → Replies (.objRetain p 0 id n) p 0x220 { status := stNoResource } s s) ∧
        (k.held < n.toNat → Replies (.objRelease p 0 id n) p 0x221 { status := stBadParam, err := 40 } s s) ∧
        (n.toNat ≤ k.held → n.toNat < k.refc → Replies (.objRelease p 0 id n) p 0x221 {} s
          (((s.setCtx id.toNat { k with held := k.held - n.toNat }).touch (objCtx id.toNat)).setCtx id.toNat
            { k with held := k.held - n.toNat, refc := k.refc - n.toNat }))) ∧
      (∀ k : Queue, n ≠ 0 → s.queue id.toNat = some k → k.part.val = part → k.state ≠ 3 → k.refc + n.toNat < 2 ^ 32 →
        Replies (.objRetain p 1 id n) p 0x220 {} s
          ((s.setQueue id.toNat { k with refc := k.refc + n.toNat, held := k.held + n.toNat }).touch (objQueue id.toNat))) ∧
      (∀ x : Fence, n ≠ 0 → s.fence id.toNat = some x → x.part.val = part →
        (x.bindOff = false → x.refc + n.toNat < 2 ^ 32 → Replies (.objRetain p 2 id n) p 0x220 {} s
          ((s.setFence id.toNat { x with refc := x.refc + n.toNat, held := x.held + n.toNat }).touch (objFence id.toNat))) ∧
        (x.bindOff = true → x.refc ≤ n.toNat → n.toNat ≤ x.held → Completes (.objRelease p 2 id n) s fun t =>
          t.fence id.toNat = none ∧ t.mem = s.mem)))

/-- Event rings, fault rings, the command ring and the mailbox. With the hub ready and not frozen, no report write
waiting in the port: HUB_EVT_CTL enables a disabled ring of 2^6 to 2^16 records with its indices 0 and disables an
enabled one, losing what it holds; HUB_EVT_ACK up to the ring's size behind PROD takes effect, writes a held record
into the space it gives and evaluates the interrupt; further behind it does nothing. PT_FAULT_CTL and PT_FAULT_ACK do
so for fault rings, with 4,096 records and the siding. HUB_CMD_TAIL takes an index that is ahead and fits, counts one
behind as stale and flags one that overruns; HUB_CMD_CTL enables an empty ring and closes it once fetched packets have
replied. PACKET_FETCH takes the slot at HEAD; NOP is answered, an unknown opcode, when nothing is before it, is
ST_BAD_OPCODE. The mailbox serves one owner: CLAIM when free, RELEASE by the owner; GO by the owner submits the packet
whose header stands in the buffer; the time-out frees it unless it is BUSY. Otherwise these writes do nothing.
Completion (exec answers a next state) is the conclusion for hubEvtCtl, hubEvtAck, ptFaultCtl, ptFaultAck, hubCmdTail,
hubCmdCtl, packetFetch, claim, release, go and mailboxReleaseTimeout. -/
def Obligations.RingsAndMailbox : Prop :=
  (∀ (s : State) (r : Fin 16) (part : Fin 8) (en : Bool) (l : BitVec 5) (l4 : BitVec 4) (v : BitVec 32), hostOpen s = false →
    exec (.hubEvtCtl r en l) s = .next s ∧ exec (.hubEvtAck r v) s = .next s ∧ exec (.ptFaultCtl part en) s = .next s ∧
    exec (.ptFaultAck part v) s = .next s ∧ exec (.hubCmdTail v) s = .next s ∧ exec (.hubCmdCtl en l4) s = .next s) ∧
  (∀ (s : State) (r : Fin 16) (l : BitVec 5) (v : BitVec 32), hostOpen s = true →
    let g := s.ring r.val
    (g.enable = true → exec (.hubEvtCtl r true l) s = .next s ∧
      exec (.hubEvtCtl r false l) s = .next (intxEval (s.setRing r.val
        { g with enable := false, held := [], gone := 0, overflow := g.overflow || !g.held.isEmpty,
                 lost := satAdd 16 g.lost g.held.length }))) ∧
    (g.enable = false → 6 ≤ l.toNat → l.toNat ≤ 16 → exec (.hubEvtCtl r true l) s =
      .next (intxEval (s.setRing r.val { g with enable := true, log2 := l.toNat, prod := 0, ack := 0 }))) ∧
    (g.enable = false → l.toNat < 6 ∨ 16 < l.toNat → exec (.hubEvtCtl r true l) s = .next s) ∧
    (g.enable = false → exec (.hubEvtCtl r false l) s = .next (s.setRing r.val { g with log2 := l.toNat })) ∧
    (2 ^ g.log2 < (g.prod - v).toNat → exec (.hubEvtAck r v) s = .next s) ∧
    ((g.prod - v).toNat ≤ 2 ^ g.log2 → g.held = [] → g.gone = 0 →
      exec (.hubEvtAck r v) s = .next (intxEval (s.setRing r.val { g with ack := v }))) ∧
    (∀ x, (g.prod - v).toNat < 2 ^ g.log2 → g.enable = true → g.held = [x] → g.gone = 0 → s.port.parked = [] → Completes (.hubEvtAck r v) s fun t =>
      t.ring r.val = { g with ack := v, held := [], prod := g.prod + 1 } ∧ t.mem = s.mem ∧
      .hostWrite (g.base + 32 * (g.prod.toNat % 2 ^ g.log2)) 32 (evWord x g.prod.toNat g.log2) ∈ t.out)) ∧
  (∀ (s : State) (part : Fin 8) (v : BitVec 32), hostOpen s = true →
    let g := s.fring part.val
    (g.enable = false → g.siding = [] → exec (.ptFaultCtl part true) s =
      .next (s.setFring part.val { g with enable := true, prod := 0, ack := 0 })) ∧
    (g.enable = true → exec (.ptFaultCtl part true) s = .next (s.setFring part.val g)) ∧
    exec (.ptFaultCtl part false) s = .next (s.setFring part.val { g with enable := false }) ∧
    (4096 < (g.prod - v).toNat → exec (.ptFaultAck part v) s = .next s) ∧
    ((g.prod - v).toNat ≤ 4096 → g.siding = [] → exec (.ptFaultAck part v) s = .next (s.setFring part.val { g with ack := v })) ∧
    (∀ x, (g.prod - v).toNat < 4096 → g.enable = true → g.siding = [x] → s.port.parked = [] → Completes (.ptFaultAck part v) s fun t =>
      t.fring part.val = { g with ack := v, siding := [], prod := g.prod + 1 } ∧
      t.out = s.out ++ [.hostWrite (g.base + 64 * (g.prod.toNat % 4096)) 64 (faultWord x g.prod.toNat true)] ∧ t.mem = s.mem)) ∧
  (∀ (s : State) (v : BitVec 32) (l : BitVec 4), hostOpen s = true →
    let c := s.cmd
    (c.enable = false → exec (.hubCmdTail v) s = .next s) ∧
    (c.enable = true →
      ((v - c.tail).toNat < 2 ^ 31 → (v - c.done).toNat ≤ 2 ^ c.log2 → exec (.hubCmdTail v) s = .next { s with cmd := { c with tail := v } }) ∧
      ((v - c.tail).toNat < 2 ^ 31 → 2 ^ c.log2 < (v - c.done).toNat →
        exec (.hubCmdTail v) s = .next { s with cmd := { c with overrun := true } }) ∧
      (2 ^ 31 ≤ (v - c.tail).toNat →
        exec (.hubCmdTail v) s = .next { s with cmd := { c with staleTail := satAdd 16 c.staleTail 1 } }) ∧
      (ringOpen s = 0 → exec (.hubCmdCtl false l) s = .next { s with cmd := { c with enable := false } }) ∧
      (0 < ringOpen s → exec (.hubCmdCtl false l) s = .next { s with cmd := { c with closing := true } })) ∧
    (c.enable = false → 1 ≤ l.toNat → l.toNat ≤ 10 → exec (.hubCmdCtl true l) s = .next { s with cmd :=
      { c with enable := true, closing := false, log2 := l.toNat, head := 0, tail := 0, done := 0, replied := [] } }) ∧
    (c.enable = false → l.toNat < 1 ∨ 10 < l.toNat → exec (.hubCmdCtl true l) s = .next s)) ∧
  (∀ (s : State) (p : Pkt) (o : BitVec 16) (objs : List (BitVec 64)),
    let c := s.cmd
    let q : Pkt := { p with path := .ring, seq := c.head }
    let u : State := { s with cmd := { c with head := c.head + 1 }, accepted := s.accepted ++
      [{ pkt := q, opcode := o.toNat, objs := objs.map (·.toNat) }] }
    (c.enable = false ∨ c.closing = true ∨ hostOpen s = false ∨ s.rst.inProgress = true ∨ 5 ≤ s.power.shed ∨ c.head = c.tail ∨
      64 ≤ ringOpen s → exec (.packetFetch p ⟨o, objs⟩) s = .next s) ∧
    (c.enable = true → c.closing = false → hostOpen s = true → s.rst.inProgress = false → s.power.shed < 5 → c.head ≠ c.tail →
      ringOpen s < 64 → (knownOpcode o.toNat = true → o ≠ 1 → exec (.packetFetch p ⟨o, objs⟩) s = .next u) ∧
        (knownOpcode o.toNat = false → packetWaits q [] u = true → exec (.packetFetch p ⟨o, objs⟩) s = .next u) ∧
        (knownOpcode o.toNat = false → s.accepted = [] → s.changes = [] →
          Replies (.packetFetch p ⟨o, objs⟩) q o.toNat { status := stBadOpcode, err := 0 } s u) ∧
        (o = 1 → ServedHub q s → p.paramLen = 0 → Replies (.packetFetch p ⟨o, objs⟩) q 1 {} s u))) ∧
  (∀ (s : State) (path : Path),
    (mbxServed path s = false → exec (.claim path) s = .next s ∧ exec (.release path) s = .next s) ∧
    (mbxServed path s = true →
      (s.mbx.owner = 0 → exec (.claim path) s = .next { s with mbx := { s.mbx with owner := ownerCode path } } ∧
        exec (.release path) s = .next s) ∧
      (s.mbx.owner ≠ 0 → exec (.claim path) s = .next s) ∧
      (s.mbx.owner = ownerCode path → exec (.release path) s = .next { s with mbx := { s.mbx with owner := 0 } }) ∧
      (s.mbx.owner ≠ ownerCode path → exec (.release path) s = .next s)) ∧
    (s.mbx.busy = true → exec .mailboxReleaseTimeout s = .next s) ∧
    (s.mbx.busy = false → exec .mailboxReleaseTimeout s = .next { s with mbx := { s.mbx with owner := 0 } })) ∧
  (∀ (s : State) (path : Path) (objs : List (BitVec 64)),
    let w := mread s.mbx.buf 0 32
    let o := w % 2 ^ 16
    let p := mbxPkt path s
    let u : State := { s with mbx := { s.mbx with busy := true },
                              accepted := s.accepted ++ [{ pkt := p, opcode := o, objs := objs.map (·.toNat) }] }
    (p.path = path ∧ p.partition.toNat = bits w 19 16 ∧ p.notify = bit w 24 ∧ p.serial = bit w 25 ∧ p.txn.toNat = bits w 63 32 ∧
      p.tag.toNat = bits w 95 64 ∧ p.paramLen.toNat = bits w 111 96 ∧
      (p.rsv = none ↔ bits w 23 20 = 0 ∧ bits w 31 26 = 0 ∧ bits w 255 112 = 0)) ∧
    (mbxServed path s = true → s.mbx.owner = ownerCode path → s.mbx.busy = false →
      (knownOpcode o = true → o ≠ 1 → exec (.go path objs) s = .next u) ∧
      (knownOpcode o = false → s.accepted = [] → s.changes = [] → s.co.ready = true → s.power.shed < 5 →
        Replies (.go path objs) p o { status := stBadOpcode, err := 0 } s u)) ∧
    (mbxServed path s = false ∨ s.mbx.owner ≠ ownerCode path ∨ s.mbx.busy = true → exec (.go path objs) s = .next s))

/-- TXN_BEGIN, REG_STAGE, TXN_COMMIT, TXN_ROLLBACK, TXN_QUERY, the idle limit and the journal. For packets served at
once: TXN_BEGIN opens a transaction of the packet's path and scope under the next id; an idle limit of 0 or above
600,000 ms is ST_BAD_PARAM, a seventeenth transaction ST_NO_RESOURCE. TXN_COMMIT, TXN_ROLLBACK and TXN_QUERY of no
open transaction are ST_TXN_ABORTED at 4, of another path ST_NOT_PERMITTED at 4, of another scope at 2. Rollback ends
it with nothing performed; query gives the numbers of operations and bytes. A commit of nothing ends it; when an
operation fails, nothing is performed and the reply names the operation and its status; a commit of a staged register
whose generation is not past the transaction's writes it and raises the generation by 1, else it is ST_TXN_CONFLICT.
REG_STAGE stages well-formed entries, refuses other registers, and needs a transaction. With drain work left the
commit has started and waits, another waits behind it, and its rollback is ST_TXN_ABORTED; during a warm reset a
commit of a transaction that was begun is ST_TXN_ABORTED. The idle limit rolls back a transaction that is not
committing, and counts. TXN_JOURNAL gives the journal. Completion (exec answers a next state) is the conclusion for
txnBegin, txnCommit, txnRollback, txnQuery, regStage, txnIdleTimeout and txnJournal. -/
def Obligations.TransactionsAreAtomic : Prop :=
  (∀ (s : State) (p : Pkt) (idle : BitVec 32), ServedFor p s ∨ ServedHub p s → p.paramLen = 4 →
    (idle.toNat < 1 ∨ 600000 < idle.toNat → Replies (.txnBegin p idle) p 0x10 { status := stBadParam, err := 32 } s s) ∧
    (1 ≤ idle.toNat → idle.toNat ≤ 600000 →
      (16 ≤ s.txns.length → Replies (.txnBegin p idle) p 0x10 { status := stNoResource } s s) ∧
      (s.txns.length < 16 →
        let t : Txn := { scope := p.partition.toNat, path := p.path, idleMs := idle.toNat, beginGen := s.cfgGen, ops := [] }
        exec (.txnBegin p idle) s = .next (replyTo' p 0x10 { len := 4, data := s.nextTxn } s.nextTxn 0xFFFF
          { s with txns := kset s.nextTxn t s.txns,
                   nextTxn := if s.nextTxn + 1 < 2 ^ 32 then s.nextTxn + 1 else 1 })))) ∧
  (∀ (s : State) (p : Pkt), p.paramLen = 0 → ServedFor { p with txn := 0 } s ∨ ServedHub { p with txn := 0 } s →
    let id := p.txn.toNat
    let all (st off : Nat) : Prop :=
      Replies (.txnCommit p) p 0x11 { status := st, err := off } s s ∧ Replies (.txnRollback p) p 0x12 { status := st, err := off } s s ∧
      Replies (.txnQuery p) p 0x13 { status := st, err := off } s s
    (kget id s.txns = none → all stTxnAborted 4) ∧
    (∀ t : Txn, kget id s.txns = some t →
      (t.path ≠ p.path → all stNotPermitted 4) ∧
      (t.path = p.path → t.scope ≠ p.partition.toNat → all stNotPermitted 2) ∧
      (t.path = p.path → t.scope = p.partition.toNat →
        let ended : State := { s with txns := kdel id s.txns }
        Replies (.txnRollback p) p 0x12 {} s ended ∧
        Replies (.txnQuery p) p 0x13 { len := 8, data := b2n t.committing + 2 ^ 16 * (t.ops.length % 2 ^ 16) +
          2 ^ 32 * (t.ops.foldl (fun n o => n + o.bytes) 0 % 2 ^ 32) } s s ∧
        (t.ops = [] → Replies (.txnCommit p) p 0x11 { len := 8, data := 0xFFFF * 2 ^ 32 } s ended) ∧
        (∀ i st, t.ops ≠ [] → runOps t s.gens 0 t.ops s = .error (i, st) →
          Replies (.txnCommit p) p 0x11 { status := st, len := 8, data := 2 ^ 32 * (i % 2 ^ 16) + 2 ^ 48 * (st % 2 ^ 16) } s
            { ended with txnConflicts := if st = stTxnConflict then satAdd 16 s.txnConflicts 1 else s.txnConflicts }) ∧
        (∀ (v : BitVec 32) (o : Staged), t.ops = [o] → o.op = .regStage p [(0x1100, false, v.setWidth 64)] → o.reserved = none →
          p.partition = 15 → v ≠ 0 → s.slPorts = [] → s.winIn = [] → s.sites = [] → s.parts = [] → s.halted = false → pcgEqual s = true → waysOk s = true → ctlqOk s = true →
          ((kget (objReg 0x1100) s.gens).getD 0 ≤ t.beginGen → Completes (.txnCommit p) s fun u =>
            u.reg 0x1100 0 = v.toNat ∧ u.cfgGen = s.cfgGen + 1 ∧ u.lastCommit = id ∧ kget id u.txns = none ∧ u.mem = s.mem ∧
            (p.notify = false → p.path ≠ .ring → mread u.mbx.buf 0 40 / 2 ^ 256 = 1 + 0xFFFF * 2 ^ 32)) ∧
          (t.beginGen < (kget (objReg 0x1100) s.gens).getD 0 → Replies (.txnCommit p) p 0x11
            { status := stTxnConflict, len := 8, data := 2 ^ 48 * stTxnConflict } s
            { ended with txnConflicts := satAdd 16 s.txnConflicts 1 })) ∧
        (∀ (o : Staged) (k : Pkt) (q : BitVec 14) (x : Queue), t.ops = [o] → o.op = .queueDisable k q → s.queue q.toNat = some x →
          x.flight ≠ [] → x.state ≠ 3 → x.stopping = none → x.part.val = k.partition.toNat → (s.part x.part.val).resetting = none →
          (kget (objQueue q.toNat) s.gens).getD 0 ≤ t.beginGen → layoutClash s = false → Completes (.txnCommit p) s fun u =>
            kget id u.txns = some { t with committing := true } ∧ (u.changes.map fun c => (c.pkt, c.txn)) = [(p, id)] ∧
            u.queue q.toNat = some { x with stopping := some p } ∧ u.accepted = s.accepted ∧ u.cfgGen = s.cfgGen ∧
            u.out = s.out)))) ∧
  (∀ (s : State) (p : Pkt) (c : Change) (t : Txn), s.changes = [c] → c.txn ≠ 0 → samePkt c.pkt p = false → p.paramLen = 0 →
    ServedFor { p with txn := 0 } { s with changes := [] } ∨ ServedHub { p with txn := 0 } { s with changes := [] } →
    kget p.txn.toNat s.txns = some t → t.path = p.path → t.scope = p.partition.toNat →
    exec (.txnCommit p) s = .next { s with txns := kset p.txn.toNat { t with committing := true } s.txns } ∧
    (c.txn = p.txn.toNat → Replies (.txnRollback p) p 0x12 { status := stTxnAborted, err := 4 } s s) ∧
    (c.txn ≠ p.txn.toNat → Replies (.txnRollback p) p 0x12 {} s { s with txns := kdel p.txn.toNat s.txns })) ∧
  (∀ (s : State) (p : Pkt), s.rst.inProgress = true → p.txn ≠ 0 → p.txn.toNat < s.nextTxn → s.changes = [] →
    (s.accepted.takeWhile fun a => !samePkt a.pkt p) = [] →
    Replies (.txnCommit p) p 0x11 { status := stTxnAborted, err := 4 } s s) ∧
  (∀ (s : State) (p : Pkt) (e : BitVec 32 × Bool × BitVec 64) (t : Txn), p.paramLen = 24 → p.txn ≠ 0 →
    ServedFor { p with txn := 0 } s ∨ ServedHub { p with txn := 0 } s → kget p.txn.toNat s.txns = some t → t.path = p.path →
    t.scope = 15 ∨ t.scope = p.partition.toNat → t.committing = false →
    (rwtOf e.1.toNat s = none → Replies (.regStage p [e]) p 3 { status := stBadParam, err := 40 } s s) ∧
    (∀ r : Rwt, rwtOf e.1.toNat s = some r → r.wide = e.2.1 → t.scope = 15 →
      e.2.2.toNat &&& r.rsv ≠ 0 → Replies (.regStage p [e]) p 3 { status := stBadParam, err := 48 } s s) ∧
    (entryCheck t.scope 0 e s = none → t.ops.length < 4096 → t.ops.foldl (fun n o => n + o.bytes) 0 + 24 ≤ 1048576 →
      exec (.regStage p [e]) s = .next (replyTo' p 3 {} p.txn.toNat t.ops.length
        { s with txns := kset p.txn.toNat { t with ops := t.ops ++ [{ op := .regStage p [e], bytes := 24 }] } s.txns }))) ∧
  (∀ (s : State) (p : Pkt) (e : BitVec 32 × Bool × BitVec 64), p.paramLen = 24 → ServedFor p s ∨ ServedHub p s →
    Replies (.regStage p [e]) p 3 { status := stBadParam, err := 4 } s s) ∧
  (∀ (s : State) (id : BitVec 32),
    (kget id.toNat s.txns = none → exec (.txnIdleTimeout id) s = .next s) ∧
    (∀ t, kget id.toNat s.txns = some t →
      (t.committing = true → exec (.txnIdleTimeout id) s = .next s) ∧
      (t.committing = false → exec (.txnIdleTimeout id) s =
        .next { s with txns := kdel id.toNat s.txns, txnAborts := satAdd 16 s.txnAborts 1 }))) ∧
  (∀ (s : State) (p : Pkt), ServedHub p s → p.paramLen = 0 → Replies (.txnJournal p) p 0x14
    { len := 16, data := s.journal.1 % 2 ^ 32 + 2 ^ 32 * (s.journal.2.1 % 2 ^ 32) + 2 ^ 64 * (s.journal.2.2 % 2 ^ 64) } s s)

/-- AUTOTIER_POOL grants and withdraws whole lists of frames, OFFLINE_CLEAR removes one entry. For packets served at
once: a grant of a populated, aligned frame of the named tier whose granule the partition owns, unmapped, scrubbed,
and neither structure nor hub, puts it in the partition's pool; a withdrawal of a free frame of the pool takes it out;
each replies the free frames of the pool. A granule not owned so is ST_NOT_PERMITTED at its frame, a misaligned frame
or one of another tier ST_BAD_PARAM, a frame that holds a moved page ST_BUSY, a frame of another partition
ST_NOT_PERMITTED, one of no pool of the partition ST_BAD_PARAM, a tier above 2 ST_BAD_PARAM at 33, with nothing
changed. OFFLINE_CLEAR removes the entry whose granule has the named address and keeps the order of the rest; no such
entry is ST_BAD_PARAM at 32, another address at 40, an owned granule ST_BUSY. Completion (exec answers a next state)
is the conclusion for autotierPoolGrant, autotierPoolWithdraw and offlineClear. -/
def Obligations.PoolsAndOfflineList : Prop :=
  (∀ (s : State) (p : Pkt) (tier : BitVec 8) (f : BitVec 64), ServedFor p s → p.paramLen = 24 →
    let part := p.partition.toNat
    let n := f.toNat / 0x200000
    let g := s.gran n
    let free (u : State) : Nat := kcount (fun i o => o == part && tierOf (i * 0x200000) == tier.toNat) u.pool
    (2 < tier.toNat → Replies (.autotierPoolGrant p tier [f]) p 0x301 { status := stBadParam, err := 33 } s s ∧
      Replies (.autotierPoolWithdraw p tier [f]) p 0x301 { status := stBadParam, err := 33 } s s) ∧
    (tier.toNat ≤ 2 →
      (f.toNat % 0x200000 ≠ 0 ∨ tierOf f.toNat ≠ tier.toNat →
        Replies (.autotierPoolGrant p tier [f]) p 0x301 { status := stBadParam, err := 48 } s s ∧
        Replies (.autotierPoolWithdraw p tier [f]) p 0x301 { status := stBadParam, err := 48 } s s) ∧
      (f.toNat % 0x200000 = 0 → tierOf f.toNat = tier.toNat →
        (s.populated f.toNat = true →
          (g.owned = true → g.owner.val = part → g.mapcount = 0 → g.needsScrub = false → g.struct = false → g.hub = false →
            let u : State := { s with pool := kset n part s.pool }
            Commits (.autotierPoolGrant p tier [f]) p 0x301 4 (free u) [objGran n] s u) ∧
          (g.owned = false ∨ g.owner.val ≠ part ∨ g.mapcount ≠ 0 ∨ g.needsScrub = true ∨ g.struct = true ∨ g.hub = true →
            Replies (.autotierPoolGrant p tier [f]) p 0x301 { status := stNotPermitted, err := 48 } s s)) ∧
        (kget n s.moved = some part → Replies (.autotierPoolWithdraw p tier [f]) p 0x301 { status := stBusy, err := 48 } s s) ∧
        (kget n s.moved ≠ some part →
          (kget n s.pool = some part →
            let u : State := { s with pool := kdel n s.pool }
            Commits (.autotierPoolWithdraw p tier [f]) p 0x301 4 (free u) [objGran n] s u) ∧
          (kget n s.pool ≠ some part →
            Replies (.autotierPoolWithdraw p tier [f]) p 0x301
              { status := if g.owned = true ∧ g.owner.val ≠ part then stNotPermitted else stBadParam, err := 48 } s s))))) ∧
  (∀ (s : State) (p : Pkt) (i : BitVec 16) (addr : BitVec 64), ServedHub p s → p.paramLen = 16 →
    let c := Instr.offlineClear p i addr
    (s.offline.length ≤ i.toNat → Replies c p 0x300 { status := stBadParam, err := 32 } s s) ∧
    (∀ e, s.offline[i.toNat]? = some e →
      (e.granule * 0x200000 ≠ addr.toNat → Replies c p 0x300 { status := stBadParam, err := 40 } s s) ∧
      (e.granule * 0x200000 = addr.toNat → (s.gran e.granule).owned = true → Replies c p 0x300 { status := stBusy, err := 40 } s s) ∧
      (e.granule * 0x200000 = addr.toNat → (s.gran e.granule).owned = false → Replies c p 0x300 {} s
        ({ s with offline := s.offline.take i.toNat ++ s.offline.drop (i.toNat + 1),
                  offMore := kdel e.granule s.offMore }.touch (objGran e.granule)))))

/-- PARTITION_RESET, PARTITION_LAYOUT and the life of a virtual instance. For packets served at once: PARTITION_RESET
with nothing in flight leaves every context of the partition LOST, no core of it running and its queues empty, and
counts; with an accepted write of the partition unanswered it waits. PARTITION_LAYOUT sets clusters and quotas; below
what is owned it is ST_BUSY, over another layout's cluster ST_TXN_CONFLICT, a quota of 2^21 or more ST_BAD_PARAM.
INSTANCE_CREATE takes a context with guest queues only and replies the lowest free id; DESTROY frees a FROZEN or
RESTORED one, ST_BUSY else. FREEZE makes an ACTIVE instance FREEZING and waits, ends at once with TIMEOUT_MS 0 in
ST_TIMEOUT, and on a frozen one succeeds; INSTANCE_FROZEN, once nothing is dispatched, answers the waiters, the time-
out one of them. THAW makes it ACTIVE. SAVE writes header, body and tag when they fit and the migration key is there;
RESTORE of an authentic blob makes a RESTORED instance of new objects and writes their REMAP pairs; reserved bits set
in it are ST_BAD_PARAM. Completion (exec answers a next state) is the conclusion for partitionReset, partitionLayout,
instanceCreate, instanceDestroy, instanceFreeze, instanceThaw, instanceFrozen, instanceFreezeTimeout, instanceSave and
instanceRestore. -/
def Obligations.PartitionsAndInstances : Prop :=
  (∀ (s : State) (p : Pkt), ServedFor p s → p.paramLen = 0 →
    let n := p.partition.toNat
    (s.moves = [] → s.slPorts = [] → s.posted = [] → Completes (.partitionReset p) s fun t =>
      (∀ c k, t.ctx c = some k → k.part.val = n → k.cause ≠ 0) ∧ (∀ c, (t.core c).run = true → (t.core c).part.val ≠ n) ∧
      (∀ q k, t.queue q = some k → k.part.val = n → k.head = k.tail ∧ k.done = k.tail ∧ k.flight = [] ∧ k.fetched = [] ∧
        (k.state = 0 ∨ k.state = 3)) ∧
      (t.part n).resetting = none ∧ (t.part n).resets = satAdd 16 (s.part n).resets 1 ∧ (t.part n).clusters = (s.part n).clusters) ∧
    (s.moves = [] → (∃ e ∈ s.posted, e.2.part.val = n ∧ e.2.target ≠ 1) → Completes (.partitionReset p) s fun t => (t.part n).resetting = some (some p) ∧
      (∀ c k, t.ctx c = some k → k.part.val = n → k.cause ≠ 0) ∧ t.queues = s.queues)) ∧
  (∀ (s : State) (p : Pkt) (cl : BitVec 200) (qa qb qc : BitVec 32), ServedFor p s → p.paramLen = 64 →
    let n := p.partition.toNat
    let layout := Instr.partitionLayout p cl qa qb qc
    let u := s.setPart n { s.part n with laidOut := true, clusters := cl.toNat, quota := [(0, qa.toNat), (1, qb.toNat), (2, qc.toNat)] }
    (2 ^ 21 ≤ qa.toNat → Replies layout p 0x401 { status := stBadParam, err := 64 } s s) ∧
    (qa.toNat < 2 ^ 21 → qb.toNat < 2 ^ 21 → qc.toNat < 2 ^ 21 →
      (qa.toNat < ownedIn n 0 s ∨ qb.toNat < ownedIn n 1 s ∨ qc.toNat < ownedIn n 2 s → Replies layout p 0x401 { status := stBusy } s s) ∧
      (ownedIn n 0 s ≤ qa.toNat → ownedIn n 1 s ≤ qb.toNat → ownedIn n 2 s ≤ qc.toNat →
        (∀ g ∈ partClusters n s, cl.getLsbD g = false → clusterWorks n g s = false) →
        (layoutClash u = false → Commits layout p 0x401 0 0 [objPart n] s u) ∧
        (layoutClash u = true → Replies layout p 0x401 { status := stTxnConflict } s s)))) ∧
  (∀ (s : State) (a b g : Nat), a ≠ b → g < 200 → (s.part a).laidOut = true → (s.part b).laidOut = true →
    (s.part a).clusters.testBit g = true → (s.part b).clusters.testBit g = true → layoutClash s = true) ∧
  (∀ (s : State) (p : Pkt) (tag : BitVec 64) (c : BitVec 20) (k : Ctx) (i : Nat), ServedFor p s → p.paramLen = 20 →
    s.ctx c.toNat = some k → k.part.val = p.partition.toNat → freeInst s = some i →
    (k.inst = none → k.cause = 0 → k.state ≠ 2 → (∀ e ∈ s.queues, e.2.ctx = c.toNat → e.2.ownerClass = 1) →
      Commits (.instanceCreate p tag [c]) p 0x410 2 i [objCtx c.toNat, objInst i] s { s.setCtx c.toNat { k with inst := some i } with
        insts := kset i { part := ⟨p.partition.toNat % 8, Nat.mod_lt _ (by decide)⟩, ctxs := [c.toNat], tag := tag.toNat } s.insts }) ∧
    (k.inst ≠ none ∨ k.cause ≠ 0 ∨ k.state = 2 ∨ (∃ e ∈ s.queues, e.2.ctx = c.toNat ∧ e.2.ownerClass ≠ 1) →
      Replies (.instanceCreate p tag [c]) p 0x410 { status := stNotPermitted, err := 48 } s s)) ∧
  (∀ (s : State) (p : Pkt) (j : BitVec 16) (ms : BitVec 32) (x : Inst), ServedFor p s → p.paramLen = 8 → kget j.toNat s.insts = some x →
    (∀ k ∈ x.freezing, samePkt p k = false) →
    let with_ (y : Inst) : State := { s with insts := kset j.toNat y s.insts }
    (x.part.val ≠ p.partition.toNat → Replies (.instanceDestroy p j) p 0x411 { status := stNotPermitted, err := 32 } s s) ∧
    (x.part.val = p.partition.toNat →
      (x.state < 2 → Replies (.instanceDestroy p j) p 0x411 { status := stBusy } s s ∧
        Replies (.instanceThaw p j ms) p 0x412 { status := stBusy } s s) ∧
      (2 ≤ x.state → x.ctxs = [] → Commits (.instanceDestroy p j) p 0x411 0 0 [objInst j.toNat] s { s with insts := kdel j.toNat s.insts }) ∧
      (2 ≤ x.state → Replies (.instanceThaw p j ms) p 0x412 {} s ((with_ { x with state := 0 }).touch (objInst j.toNat)) ∧
        Replies (.instanceFreeze p j ms) p 0x412 {} s s) ∧
      (x.state = 1 → ms ≠ 0 → exec (.instanceFreeze p j ms) s = .next (with_ { x with state := 1, freezing := x.freezing ++ [p] })) ∧
      (x.state = 1 → Replies (.instanceFreeze p j 0) p 0x412 { status := stTimeout } s (with_ { x with state := 1 })) ∧
      (x.state = 0 → ms ≠ 0 → Completes (.instanceFreeze p j ms) s fun t =>
        kget j.toNat t.insts = some { x with state := 1, freezing := x.freezing ++ [p] } ∧ t.queues = s.queues ∧ t.out = s.out))) ∧
  (∀ (s : State) (j : BitVec 10) (w : BitVec 8) (x : Inst) (p : Pkt), kget j.toNat s.insts = some x →
    let with_ (y : Inst) : State := { s with insts := kset j.toNat y s.insts }
    (x.state ≠ 1 → exec (.instanceFrozen j) s = .next s) ∧
    (x.state = 1 → x.freezing = [p] → instQueues x s = [] → exec (.instanceFrozen j) s =
      .next (reply p 0x412 {} ((with_ { x with state := 2, freezing := [] }).touch (objInst j.toNat)))) ∧
    (∀ q k, x.state = 1 → q ∈ instQueues x s → s.queue q = some k → k.flight ≠ [] → exec (.instanceFrozen j) s = .next s) ∧
    (x.freezing = [p] → exec (.instanceFreezeTimeout j 0) s =
      .next (reply p 0x412 { status := stTimeout } (with_ { x with freezing := [] }))) ∧
    (x.freezing.length ≤ w.toNat → exec (.instanceFreezeTimeout j w) s = .next s)) ∧
  (∀ (s : State) (p : Pkt) (j : BitVec 16) (buf : BitVec 64) (n : BitVec 32) (x : Inst), ServedFor p s → p.paramLen = 24 →
    kget j.toNat s.insts = some x → x.part.val = p.partition.toNat → 2 ≤ x.state → buf.toNat % 64 = 0 →
    let l := blobRecs x s
    let len := (blobBody l).2
    (n.toNat < 80 + len → Replies (.instanceSave p j buf n) p 0x413 { status := stNoResource, len := 4, data := 80 + len } s s) ∧
    (80 + len ≤ n.toNat → s.port.frozen = false →
      (s.sec.migKey = false → Replies (.instanceSave p j buf n) p 0x413 { status := stNotPermitted } s s) ∧
      (s.sec.migKey = true → let h := blobHeader l len (entropy s.free 12) s
        Replies (.instanceSave p j buf n) p 0x413 { len := 4, data := 80 + len } s (emit (.hostWrite buf.toNat (80 + len)
          (h + 2 ^ 512 * (Config.gcmSeal h (blobBody l).1 len % 2 ^ (8 * (len + 16))))) { s with free := s.free + 12 })))) ∧
  (∀ (s : State) (p : Pkt) (a f m : BitVec 64) (n k : BitVec 32) (h : BlobIn), ServedFor p s → p.paramLen = 40 →
    let restore := Instr.instanceRestore p a n f k m h
    (s.port.frozen = true → Replies restore p 0x414 { status := stFrozen } s s) ∧
    (s.port.frozen = false →
      (h.tagOk = false ∨ s.sec.migKey = false → Replies restore p 0x414 { status := stAuthFailed } s s) ∧
      (h.tagOk = true → s.sec.migKey = true →
        (h.rsv ≠ 0 → Replies restore p 0x414 { status := stBadParam } s s) ∧
        (∀ (i : Nat) (r : BlobRec), h.rsv = 0 → h.profile.toNat = s.fuse.profile → freeInst s = some i → h.recs = [r] → recBad r = true →
          Replies restore p 0x414 { status := stBadParam } s s) ∧
        (h.rsv = 0 → h.profile.toNat ≠ s.fuse.profile → Replies restore p 0x414 { status := stNotPermitted } s s) ∧
        (∀ (i : Nat) (r : BlobRec) (u : State) (c : Nat), h.rsv = 0 → h.profile.toNat = s.fuse.profile → freeInst s = some i → h.recs = [r] → r.kind = 1 →
          recBad r = false →
          actCtxCreate p (BitVec.ofNat 20 (bits r.data.toNat 115 96)) (bit r.data.toNat 116) (bit r.data.toNat 117) none s =
            ({ len := 4, data := c }, u) → (u.ctx c).isSome = true → Completes restore s fun t =>
          (kget i t.insts).map (fun x => (x.state, x.ctxs)) = some (3, [c]) ∧ (t.ctx c).map (fun x => x.inst) = some (some i) ∧
          .hostWrite m.toNat 8 (r.id.toNat + 2 ^ 32 * (c % 2 ^ 32)) ∈ t.out))))

/-- Admission of partner sites, their resets, power, tests and shed acknowledgements. In admission SITE_LINK_UP at an
allowed rate and width releases the reset wire and asks for the declaration; ADMISSION_STEP_TIMEOUT and
SITE_ADMISSION_TIMEOUT fail the site with codes 1, 2, 3 and 8, DECLARE with its check's code, or 6 when no offered
protocol is taken; else the site is ADMITTED with the credits of both sides; outside their step they do nothing.
SITE_RESET, link loss, a lost lane repair, the aperture and snoop time-outs (counted; the latter in QD_COH_ERR too)
and a power reset reset a site in service, which is admitted again, or barred after a power reset; an OFF or EMPTY
site has nothing to reset. SITE_POWER_SAMPLE sends POWER_LIMIT at the tenth sample above the budget. SHED_ACK of the
level ends the wait, QUIESCE_TIMEOUT ends it with an event. SITE_TEST puts an OFF site in TEST and back. Completion
(exec answers a next state) is the conclusion for siteLinkUp, admissionStepTimeout, siteAdmissionTimeout, declare,
siteReset, siteLinkLoss, laneRepair, sitePowerReset, apertureTimeout, snoopTimeout, sitePowerSample, shedAck,
quiesceTimeout and siteTest. -/
def Obligations.SitesAreAdmittedAndReset : Prop :=
  ∀ (s : State) (j : Fin 4),
    let n := j.val
    let x := s.site n
    let fails (i : Instr) (code : Nat) : Prop := Completes i s fun t => (t.site n).state = 6 ∧ (t.site n).failCode = code ∧
      (t.site n).step = 0 ∧ (t.site n).powered = false ∧ (t.site n).modules = 0
    let idle (i : Instr) : Prop := exec i s = .next s
    let record (r : SiteRec) : Prop := kget n s.siteRecs = some r ∧ r.enable = true ∧ recordOk r s = true
    let again (i : Instr) (why : List Nat) : Prop := Completes i s fun t => (t.site n).state = 2 ∧ (t.site n).step = 2 ∧
      (t.site n).resetting = none ∧ (t.site n).decl = 0 ∧ (t.site n).reqs = [] ∧ (t.site n).resets = why ∧ t.mem = s.mem
    -- admission
    (∀ (rate m : BitVec 3) (rep : BitVec 32) (r : SiteRec), kget n s.siteRecs = some r →
      (x.step = 2 → rate ≠ 0 → rate.toNat ≤ rateCode r.maxRate.toNat → m = 1 ∨ m = 2 ∨ m = 4 → exec (.siteLinkUp j rate m rep) s =
        .next (emit (.sideband n 1 0) (emit (.pin pinSiteReset n 0)
          (s.setSite n { x with step := 5, rate := rate.toNat, modules := m.toNat, repaired := rep.toNat, retrains := 0 })))) ∧
      (x.step ≠ 2 ∨ rate = 0 ∨ rateCode r.maxRate.toNat < rate.toNat → idle (.siteLinkUp j rate m rep))) ∧
    (x.step = 2 → fails (.admissionStepTimeout j true) 2 ∧ fails (.admissionStepTimeout j false) 1) ∧
    (x.step = 5 → fails (.admissionStepTimeout j true) 3) ∧
    (x.step ≠ 2 → x.step ≠ 5 → ∀ b, idle (.admissionStepTimeout j b)) ∧
    (x.step ≠ 0 → fails (.siteAdmissionTimeout j) 8) ∧ (x.step = 0 → idle (.siteAdmissionTimeout j)) ∧
    (x.step ≠ 5 → ∀ d a, idle (.declare j d a)) ∧
    (∀ (r : SiteRec) (d : BitVec 256), x.step = 5 → kget n s.siteRecs = some r →
      (∀ (code : Nat) (a : Option (BitVec 1)), declFails r d = some code → fails (.declare j d a) code) ∧
      (declFails r d = none → fails (.declare j d none) 6 ∧
        ∀ c : BitVec 1, (bit (r.protocols.toNat &&& bits (declAt d 5 1) 1 0) c.toNat = false → fails (.declare j d (some c)) 6) ∧
          (bit (r.protocols.toNat &&& bits (declAt d 5 1) 1 0) c.toNat = true → s.co.running = false → Completes (.declare j d (some c)) s fun t =>
            (t.site n).state = 4 ∧ (t.site n).step = 0 ∧ (t.site n).cxl = decide (c = 1) ∧ (t.site n).decl = declAt d 0 8 ∧
            (t.site n).caches = bit (declAt d 5 1) 2 ∧ (t.site n).admissions = satAdd 8 x.admissions 1 ∧
            (t.site n).rx = [(0, 1024), (1, 0), (2, 512), (3, 2048)] ∧
            (t.site n).tx = [(0, declAt d 8 2), (1, declAt d 10 2), (2, declAt d 12 2), (3, declAt d 14 2)]))) ∧
    -- resets
    (∀ (p : Pkt) (k : BitVec 8), ServedHub p s → p.paramLen = 8 → (∀ w ∈ (s.site k.toNat).waiters, samePkt p w = false) →
      (3 < k.toNat → Replies (.siteReset p k) p 0x500 { status := stBadParam, err := 32 } s s) ∧
      (k.toNat = n → x.state = 0 → Replies (.siteReset p k) p 0x500 { status := stNotPermitted } s s) ∧
      (k.toNat = n → x.state ≠ 0 → x.resetting.isSome = true ∨ x.step ≠ 0 ∨ x.waits = true →
        Replies (.siteReset p k) p 0x500 { status := stBusy } s s) ∧
      (∀ r, k.toNat = n → record r → x.state = 4 → x.resetting = none → x.step = 0 → x.waits = false → x.withdraws = [] → s.lines = [] →
        x.apq = [] → again (.siteReset p k) [s.opSeconds])) ∧
    (∀ r, record r → x.state = 4 → x.resetting = none → x.step = 0 → x.withdraws = [] → s.lines = [] → x.apq = [] → x.resets = [] →
      s.power.shed < 4 → again (.siteLinkLoss j) [s.opSeconds] ∧ again (.laneRepair j 1 0 false) [s.opSeconds]) ∧
    (x.state < 2 → idle (.siteLinkLoss j)) ∧
    (x.limited = true → 0 < x.overRun → x.state = 4 → x.resetting = none → x.withdraws = [] → s.lines = [] → x.apq = [] →
      Completes (.sitePowerReset j) s fun t => (t.site n).state = 6 ∧ (t.site n).powered = false ∧ (t.site n).resetting = none) ∧
    (x.limited = false ∨ x.overRun = 0 → idle (.sitePowerReset j)) ∧
    (∀ txn : BitVec 12, (kget txn.toNat x.apq = none → idle (.apertureTimeout j txn)) ∧
      (∀ r, kget txn.toNat x.apq = some r → r.orig = none → r.who ≠ 0x5FFFF → x.apq = [(txn.toNat, r)] → s.lines = [] → s.co.running = false →
        Completes (.apertureTimeout j txn) s fun t =>
        (t.site n).apq = [] ∧ (t.site n).errTimeout = satAdd 16 x.errTimeout 1 ∧
        kget (ansKey r.who r.pa) t.ans = some { status := stTimeout, data := 0, poison := false })) ∧
    (∀ l : BitVec 42, ((s.line l.toNat).tx = none → idle (.snoopTimeout j l)) ∧
      (∀ h, (s.line l.toNat).tx = some h → h.waiting.contains (siteAgent n) = true → Completes (.snoopTimeout j l) s fun t =>
        (t.site n).errTimeout = satAdd 16 x.errTimeout 1 ∧
        bit (t.reg (qdBase (homeOf (64 * l.toNat)) + 0x210) 0) (8 + n) = true)) ∧
    -- link, power, shed, test
    (∀ (m : BitVec 3) (rep : BitVec 32), x.state = 4 ∨ x.state = 5 → x.resetting = none → m = 1 ∨ m = 2 → m.toNat < x.modules →
      exec (.laneRepair j m rep true) s = .next (siteEvent n 6 0
        (s.setSite n { x with modules := m.toNat, repaired := rep.toNat, retrains := satAdd 16 x.retrains 1 }))) ∧
    (∀ w : BitVec 10,
      (x.state ≠ 4 → x.state ≠ 5 → idle (.sitePowerSample j w)) ∧
      (x.state = 4 → siteBudget x < w.toNat → x.limited = false →
        (x.overRun < 9 → exec (.sitePowerSample j w) s =
          .next (s.setSite n { x with measured := w.toNat, overRun := x.overRun + 1, underRun := 0 })) ∧
        (9 ≤ x.overRun → Completes (.sitePowerSample j w) s fun t => (t.site n).limited = true ∧ (t.site n).overNow = true ∧
          .sideband n 0x20 (siteBudget x + 2 ^ 16) ∈ t.out)) ∧
      (x.state = 4 → w.toNat ≤ siteBudget x → x.limited = true → 9 ≤ x.underRun → exec (.sitePowerSample j w) s =
        .next (emit (.sideband n 0x20 (siteBudget x)) (s.setSite n
          { x with measured := w.toNat, overRun := 0, underRun := x.underRun + 1, limited := false })))) ∧
    (∀ l a : BitVec 8, (a = 1 → x.quiesce = some l.toNat → exec (.shedAck j l a) s = .next (s.setSite n { x with quiesce := none })) ∧
      (a ≠ 1 ∨ x.quiesce ≠ some l.toNat → idle (.shedAck j l a))) ∧
    (x.quiesce = none → idle (.quiesceTimeout j)) ∧
    (x.quiesce.isSome = true → exec (.quiesceTimeout j) s = .next (siteEvent n 4 0 (s.setSite n { x with quiesce := none }))) ∧
    (∀ (l : BitVec 4) (b : Bool),
      (hostOpen s = false ∨ (x.state ≠ 1 ∧ x.state ≠ 6 ∧ x.state ≠ 7) → idle (.siteTest j l b)) ∧
      (hostOpen s = true → x.resetting = none → x.step = 0 →
        (x.state = 1 → l ≠ 0 → exec (.siteTest j l b) s = .next (s.setSite n
          { x with state := 7, loopback := l.toNat, prbs := b, prbsErrors := if b && !x.prbs then 0 else x.prbsErrors })) ∧
        (x.state = 7 → Completes (.siteTest j 0 b) s fun t => (t.site n).state = 1 ∧ (t.site n).loopback = 0)))

/-- Frames of a partner die, CXL requests, and SITE_GRANT. Of an admitted Amirvaken die: NOP_FRAME returns its
credits; a malformed frame, or one without credits, counts a protocol error; before admission a frame is counted
early; in reset only snoop answers are taken. DOORBELL to the die's own enabled queue moves its TAIL, else it counts.
A request of a die is refused with CMP: without a grant of its partition, or while it is withdrawn, ST_NOT_PERMITTED,
of a LOST context ST_CONTEXT_LOST, while QUIESCED ST_SHED; one to a tier goes to its home. Each CXL opcode goes to the
home as the operation of R409, for the one granted partition and the site's context; with no single partition it is
refused; from a site that is no CXL die it does nothing. CXL_IO_MEMORY_REQUEST goes line by line as RD_ONCE, WR_FULL
or WR_PARTIAL. SITE_GRANT adds the partition, gives the aperture if nobody else has it, and WITHDRAW takes both back
once the die owes nothing, its reply waiting till then, ST_BUSY while a queue or segment needs them. Completion (exec
answers a next state) is the conclusion for nopFrame, doorbell, msg, rdcurr, rdshared, rdany, rdown, rdownnodata,
dirtyevict, cleanevict, cleanevictnodata, itomwr, wrcur, wowrinvf, wowrinv, cxlIoMemoryRequest, siteGrantRequest,
siteGrantAperture and siteGrantWithdraw. -/
def Obligations.DieMessagesAndGrants : Prop :=
  (∀ (s : State) (j : Fin 4) (a b c d : BitVec 8) (q : BitVec 14) (tail : BitVec 32) (part : Fin 8),
    let n := j.val
    let x := s.site n
    (x.resetting.isSome = true → ∀ w, exec (.nopFrame j a b c d w) s = .next s ∧ exec (.doorbell j q tail part a b c d w) s = .next s) ∧
    (x.resetting = none → x.cxl = false →
      (x.state = 2 ∨ x.state = 3 → ∀ w, exec (.nopFrame j a b c d w) s = .next s ∧ exec (.doorbell j q tail part a b c d w) s =
        .next (s.setSite n { x with errEarly := satAdd 16 x.errEarly 1 })) ∧
      (x.state = 4 →
        (Completes (.nopFrame j a b c d true) s fun t => (t.site n).errProtocol = satAdd 16 x.errProtocol 1) ∧
        (x.txq = [] → Completes (.nopFrame j a b c d false) s fun t => t.out = s.out ∧ t.mem = s.mem ∧ ∀ i, kget i (t.site n).tx =
          (if i = 0 then some ((kget 0 x.tx).getD 0 + a.toNat) else if i = 1 then some ((kget 1 x.tx).getD 0 + b.toNat)
          else if i = 2 then some ((kget 2 x.tx).getD 0 + c.toNat) else if i = 3 then some ((kget 3 x.tx).getD 0 + d.toNat)
          else kget i x.tx)) ∧
        ((kget 0 x.rx).getD 0 < 2 → Completes (.doorbell j q tail part a b c d false) s fun t =>
          (t.site n).errProtocol = satAdd 16 x.errProtocol 1) ∧
        (2 ≤ (kget 0 x.rx).getD 0 → x.txq = [] →
          (s.queue q.toNat = none → Completes (.doorbell j q tail part a b c d false) s fun t =>
            (t.site n).errDb = satAdd 16 x.errDb 1 ∧ t.queues = s.queues) ∧
          (∀ (k : Queue) (e : Ctx), s.queue q.toNat = some k → s.ctx k.ctx = some e →
            (k.ownerClass ≠ 2 ∨ k.site ≠ n ∨ e.part ≠ part ∨ k.state ≠ 1 → Completes (.doorbell j q tail part a b c d false) s fun t =>
              (t.site n).errDb = satAdd 16 x.errDb 1 ∧ t.queues = s.queues) ∧
            (k.ownerClass = 2 → k.site = n → e.part = part → k.state = 1 → (tail - k.tail).toNat < 2 ^ 31 →
              (tail - k.head).toNat ≤ 2 ^ k.log2 → Completes (.doorbell j q tail part a b c d false) s fun t =>
                t.queue q.toNat = some { k with tail } ∧ (t.site n).errDb = x.errDb)))))) ∧
  (∀ (s : State) (j : Fin 4) (f : DieFrame) (media : MediaList),
    let x := s.site j.val
    (x.resetting.isSome = true → f.msg.op ≠ .snpRsp → f.msg.op ≠ .snpData → exec (.msg j f media) s = .next s) ∧
    (x.resetting = none → x.cxl = false → x.state = 4 → frameFormOk f = false → Completes (.msg j f media) s fun t =>
      (t.site j.val).errProtocol = satAdd 16 x.errProtocol 1) ∧
    (∀ u : State, x.resetting = none → frameFormOk f = true →
      frameIn j.val (chanOf f.msg.op) (1 + unitsOf f.msg.op)
        (creditsOf f.crReq.toNat f.crSnp.toNat f.crRsp.toNat f.crDat.toNat) false false s = .ok u →
      exec (.msg j f media) s = .next { msgIn j.val f.msg { u with media } with media := [] })) ∧
  (∀ (s : State) (j : Fin 4) (m : Msg), let x := s.site j.val
    let refused (st : Nat) : Prop := stopReq j.val m s = sendMsg (replyTo m .cmp .I st 0 false) s
    (bit x.reqMask m.part.val = false → refused stNotPermitted) ∧
    (∀ p ∈ x.withdraws, p.partition.toNat % 8 = m.part.val → refused stNotPermitted) ∧
    (bit x.reqMask m.part.val = true → x.withdraws = [] →
      (s.ctx m.ctx.toNat = none → refused stNotPermitted) ∧
      (∀ k : Ctx, s.ctx m.ctx.toNat = some k →
        (k.part ≠ m.part → refused stNotPermitted) ∧ (k.part = m.part → k.cause ≠ 0 → refused stContextLost) ∧
        (k.part = m.part → k.cause = 0 →
          (x.state = 5 → m.op ≠ .wbDirty → m.op ≠ .evictClean → refused stShed) ∧
          (x.state = 4 → m.addr.toNat < 0x40000000000 →
            stopReq j.val m s = homeAccept { m with dst := homeAgent (m.addr.toNat / 64), hubAgent := false } s))))) ∧
  (∀ (s : State) (j : Fin 4) (tag : BitVec 12) (addr : BitVec 48) (data : BitVec 512) (mask : BitVec 64) (ml : MediaList),
    let n := j.val
    let x := s.site n
    let at_ : BitVec 48 := BitVec.ofNat 48 (addr.toNat / 64 * 64)
    ∀ (i : Instr) (op : MOp) (noE : Bool) (d : BitVec 512) (k : BitVec 64) (media : MediaList),
      (i, op, noE, d, k, media) ∈
        [(.rdcurr j tag addr ml, .rdOnce, false, 0, 0, ml), (.rdshared j tag addr ml, .rdShared, true, 0, 0, ml),
         (.rdany j tag addr ml, .rdShared, false, 0, 0, ml), (.rdown j tag addr ml, .rdUnique, false, 0, 0, ml),
         (.rdownnodata j tag addr ml, .upgrade, false, 0, 0, ml), (.dirtyevict j tag addr data ml, .wbDirty, false, data, 0, ml),
         (.cleanevict j tag addr data, .evictClean, false, data, 0, []), (.cleanevictnodata j tag addr, .evictClean, false, 0, 0, []),
         (.itomwr j tag addr data ml, .wrFull, false, data, 0, ml), (.wrcur j tag addr data ml, .wrFull, false, data, 0, ml),
         (.wowrinvf j tag addr data ml, .wrFull, false, data, 0, ml), (.wowrinv j tag addr data mask ml, .wrPartial, false, data, mask, ml)] →
      let m (p : Fin 8) : Msg := { op, noE, txn := tag, src := BitVec.ofNat 8 (siteAgent n), dst := 0xFE, addr := at_, data := d,
                                   mask := k, ctx := BitVec.ofNat 20 x.cxlCtx, part := p }
      let u : State := s.setSite n { x with reqs := kset tag.toNat (at_.toNat / 64 * 64 + reqCode op) x.reqs }
      (x.cxl = false ∨ (x.state ≠ 4 ∧ x.state ≠ 5) ∨ x.resetting.isSome = true → exec i s = .next s) ∧
      (x.cxl = true → x.state = 4 → x.resetting = none → reqBreaks n (m 0) s = false → onlyPart x.reqMask = none →
        exec i s = .next (sendMsg (replyTo (m 0) .cmp .I stNotPermitted 0 false) u)) ∧
      (∀ (p : Fin 8) (c : Ctx), x.cxl = true → x.state = 4 → x.resetting = none → x.reqMask = 2 ^ p.val → x.withdraws = [] →
        reqBreaks n (m p) s = false → at_.toNat < 0x40000000000 → s.ctx (x.cxlCtx % 2 ^ 20) = some c → c.part = p → c.cause = 0 →
        exec i s = .next { homeAccept { m p with dst := homeAgent (at_.toNat / 64) } { u with media } with media := [] })) ∧
  (∀ (s : State) (j : Fin 4) (line : BitVec 42) (k : BitVec 64) (d : BitVec 512) (ml : MediaList) (p : Fin 8),
    let x := s.site j.val
    let m (op : MOp) (mask : BitVec 64) : Msg :=
      { op, src := BitVec.ofNat 8 (siteAgent j.val), dst := 0xFE, addr := BitVec.ofNat 48 (64 * line.toNat), data := d, mask,
        ctx := BitVec.ofNat 20 x.cxlCtx, part := p, who := whoCxlIo j.val }
    (x.cxl = false ∨ (x.state ≠ 4 ∧ x.state ≠ 5) ∨ x.resetting.isSome = true → ∀ b l, exec (.cxlIoMemoryRequest j b line l ml) s = .next s) ∧
    (x.cxl = true → x.state = 4 → x.resetting = none → x.reqMask = 2 ^ p.val → tierOf (64 * line.toNat) ≠ 3 →
      exec (.cxlIoMemoryRequest j false line [(k, d)] ml) s = .next { stopReq j.val (m .rdOnce k) { s with media := ml } with media := [] } ∧
      exec (.cxlIoMemoryRequest j true line [(k, d)] ml) s =
        .next { stopReq j.val (m (if k.toNat = 2 ^ 64 - 1 then .wrFull else .wrPartial) k) { s with media := ml } with media := [] })) ∧
  (∀ (s : State) (p : Pkt) (k : BitVec 8) (c : BitVec 20), ServedFor p s → p.paramLen = 16 →
    let n := k.toNat
    let x := s.site n
    let me := p.partition.toNat
    let objs := [objSite n]
    (3 < n → Replies (.siteGrantRequest p k c) p 0x501 { status := stBadParam, err := 32 } s s ∧
      Replies (.siteGrantWithdraw p k c) p 0x501 { status := stBadParam, err := 32 } s s) ∧
    (n ≤ 3 → x.cxl = false →
      Commits (.siteGrantRequest p k c) p 0x501 0 0 objs s (s.setSite n { x with reqMask := x.reqMask ||| 2 ^ me, cxlCtx := c.toNat }) ∧
      (x.apValid = false ∨ x.apOwner = me → Commits (.siteGrantAperture p k c) p 0x501 0 0 objs s
        (s.setSite n { x with reqMask := x.reqMask ||| 2 ^ me, cxlCtx := c.toNat, apValid := true, apOwner := me })) ∧
      (x.apValid = true → x.apOwner ≠ me → Replies (.siteGrantAperture p k c) p 0x501 { status := stNotPermitted } s s)) ∧
    (n ≤ 3 →
      ((∃ e ∈ s.queues, e.2.part.val = me ∧ e.2.ownerClass = 2 ∧ e.2.site = n) →
        Replies (.siteGrantWithdraw p k c) p 0x501 { status := stBusy } s s) ∧
      (s.queues = [] → s.ctxs = [] → s.lines = [] → x.toRecall = [] → x.resetting = none → x.apValid = true → x.apOwner = me →
        Commits (.siteGrantWithdraw p k c) p 0x501 0 0 (grantObjs n c.toNat s) s
          (s.setSite n { x with reqMask := x.reqMask &&& (255 - 2 ^ me), apValid := false, apOwner := 0 })) ∧
      (∀ (l : Nat) (y : Line) (t0 : HomeTx), s.queues = [] → s.ctxs = [] → s.lines = [(l, y)] → y.tx = some t0 →
        t0.waiting.contains (siteAgent n) = true → Completes (.siteGrantWithdraw p k c) s fun t =>
          (t.changes.map fun h => (h.pkt, h.opcode)) = [(p, 0x501)] ∧ t.accepted = s.accepted ∧ t.mem = s.mem ∧
          (t.site n).reqMask = x.reqMask ∧ (t.site n).withdraws = x.withdraws ++ [p])))

/-- Sloyth training, handshake, control blocks, packet order, rekey and port reset. A port trains through lock,
equalisation, qualification (at most 10^6 errors) and handshake; a failed step starts again, the third in a row is
FAILED; each message counts only in its step, a serial or signature that does not verify is an authentication failure.
READY puts the port IN_SERVICE at SEQ 0 with the whole offer of credits. In service ACK frees replay packets up to
SEQ, NAK sends those from SEQ again and the eighth replay resets the port, CREDIT adds units, ACK_INTERVAL
acknowledges, LPI_ENTRY idles at L3 or deeper and WAKE resumes; HOLD, link loss and SL_PORT_RESET reset the port,
which loses keys, queues and peer and trains again. PACKET is accepted when it is the next and its tag verifies;
another is answered by one NAK; a second tag failure within a second resets the port. A rekey starts by SL_REKEY or
REKEY_START. BER_MEASUREMENT counts, with an event above 10^7. Elsewhere these do nothing. Completion (exec answers a
next state) is the conclusion for phyLock, transmitEqualisationComplete, qualificationComplete, hello, kem, encap,
finish, ready, hold, sloythLinkLoss, slPortReset, slRekey, rekeyStart, lpi, ackBlock, nak, credit, packet,
berMeasurement, wake, lpiEntry and ackInterval. -/
def Obligations.SloythPortsTrainAndKeepOrder : Prop :=
  ∀ (s : State) (j : Fin 4),
    let p := j.val
    let x := s.slPort p
    let put_ (y : SlPort) : State := s.setSlPort p y
    let idle (i : Instr) : Prop := exec i s = .next s
    let service : Prop := x.state = 4 ∨ x.state = 5
    let fails (i : Instr) : Prop :=
      (x.fails < 2 → Completes i s fun t => (t.slPort p).state = 1 ∧ (t.slPort p).fails = x.fails + 1 ∧ (t.slPort p).peer = 0 ∧
        (t.slPort p).step = if 5 ≤ s.power.shed then 0 else 1) ∧
      (2 ≤ x.fails → Completes i s fun t => (t.slPort p).state = 6 ∧ (t.slPort p).step = 0)
    let resets (i : Instr) : Prop := Completes i s fun t => (t.slPort p).state = (if slEnabled p s then 1 else 0) ∧
      (t.slPort p).resets = satAdd 8 x.resets 1 ∧ (t.slPort p).resetting = none ∧ (t.slPort p).txKey = 0 ∧ (t.slPort p).rxKey = 0 ∧
      (t.slPort p).replay = [] ∧ (t.slPort p).txq = [] ∧ (t.slPort p).rxq = [] ∧ (t.slPort p).reqs = [] ∧ (t.slPort p).peer = 0
    let room : Prop := ∀ q, q < 4 → (s.slPort q).txSeq + 2 < 2 ^ 48 ∧ (s.slPort q).rxSeq + 2 < 2 ^ 48
    let quiet : Prop := x.rxq = [] ∧ x.reqs = [] ∧ x.resetting = none
    -- training
    (x.state = 1 → x.step = 1 → exec (.phyLock j true) s = .next (put_ { x with state := 2, step := 2 }) ∧ fails (.phyLock j false)) ∧
    (x.state ≠ 1 ∨ x.step ≠ 1 → ∀ b, idle (.phyLock j b)) ∧
    (x.state = 2 → x.step = 2 → exec (.transmitEqualisationComplete j) s = .next (put_ { x with step := 3 })) ∧
    (x.state ≠ 2 ∨ x.step ≠ 2 → idle (.transmitEqualisationComplete j)) ∧
    (∀ e : BitVec 64, (x.state ≠ 2 ∨ x.step ≠ 3 → idle (.qualificationComplete j e)) ∧
      (x.state = 2 → x.step = 3 → (1000000 < e.toNat → fails (.qualificationComplete j e)) ∧
        (e.toNat ≤ 1000000 → exec (.qualificationComplete j e) s =
          .next (emit (.slHandshake p 1) (put_ { x with state := 3, step := 4, hs := 0 }))))) ∧
    (∀ (w : BitVec 64) (ok : Bool), (x.state ≠ 3 ∨ x.step ≠ 4 ∨ x.hs ≠ 0 → idle (.hello j w ok)) ∧
      (x.state = 3 → x.step = 4 → x.hs = 0 →
        let allowed := ((kget p s.slConf).getD {}).peers
        let y : SlPort := { x with cand := w.toNat, hs := 1, initiator := decide (s.fuse.serial < w.toNat) }
        (allowed = [] ∨ w.toNat ∈ allowed →
          (s.fuse.serial < w.toNat → exec (.hello j w true) s = .next (emit (.slHandshake p 2) (put_ y))) ∧
          (w.toNat ≤ s.fuse.serial → exec (.hello j w true) s = .next (put_ y))) ∧
        fails (.hello j w false) ∧ (allowed ≠ [] → w.toNat ∉ allowed → fails (.hello j w ok)) ∧
        Completes (.hello j w false) s fun t => (t.slPort p).authFail = satAdd 14 x.authFail 1 ∧ t.secAuth = satAdd 16 s.secAuth 1)) ∧
    (let at_ (h : Nat) (first : Bool) : Prop := x.state = 3 ∧ x.step = 4 ∧ x.hs = h ∧ x.initiator = first
      let agreed (i : Instr) : Prop := Completes i s fun t => (t.slPort p).peer = x.cand ∧ (t.slPort p).txKey = (slKeys s.free x.initiator).1 ∧
        (t.slPort p).rxKey = (slKeys s.free x.initiator).2 ∧ t.free = s.free + 1 ∧
        (x.peerReady = false → (t.slPort p).state = 3 ∧ (t.slPort p).step = 5) ∧ (x.peerReady = true → s.winIn = [] → (t.slPort p).state = 4)
      (at_ 1 false → exec (.kem j) s = .next (emit (.slHandshake p 3) (put_ { x with hs := 2 }))) ∧ (¬at_ 1 false → idle (.kem j)) ∧
      (at_ 1 true → agreed (.encap j true) ∧ fails (.encap j false)) ∧ (¬at_ 1 true → ∀ b, idle (.encap j b)) ∧
      (at_ 2 false → agreed (.finish j true) ∧ fails (.finish j false)) ∧ (¬at_ 2 false → ∀ b, idle (.finish j b))) ∧
    (x.state ≠ 3 → idle (.ready j)) ∧ (x.state = 3 → x.step ≠ 5 → exec (.ready j) s = .next (put_ { x with peerReady := true })) ∧
    (x.state = 3 → x.step = 5 → s.winIn = [] → Completes (.ready j) s fun t => (t.slPort p).state = 4 ∧ (t.slPort p).txSeq = 0 ∧
      (t.slPort p).rxSeq = 0 ∧ (t.slPort p).reqCredits = 16384 ∧ (t.slPort p).rspCredits = 8192 ∧ (t.slPort p).txKey = x.txKey) ∧
    -- resets
    (service → quiet → resets (.hold j) ∧ resets (.sloythLinkLoss j) ∧
      ∀ (k : Pkt) (w : BitVec 8), ServedHub k s → k.paramLen = 8 → w.toNat = p → resets (.slPortReset k w)) ∧
    (∀ (k : Pkt) (w : BitVec 8), ServedHub k s → k.paramLen = 8 →
      (3 < w.toNat → Replies (.slPortReset k w) k 0x600 { status := stBadParam, err := 32 } s s ∧
        Replies (.slRekey k w) k 0x603 { status := stBadParam, err := 32 } s s) ∧
      (w.toNat = p → x.resetting.isSome = true → (x.resetting.bind (·.pkt)).map (samePkt k) ≠ some true → Replies (.slPortReset k w) k 0x600 { status := stBusy } s s) ∧
      (w.toNat = p → x.resetting.isSome = true ∨ x.rekeying ≠ 0 → Replies (.slRekey k w) k 0x603 { status := stBusy } s s) ∧
      (w.toNat = p → x.resetting = none → x.rekeying = 0 →
        (¬service → Replies (.slRekey k w) k 0x603 { status := stLinkDown } s s) ∧
        (service → Completes (.slRekey k w) s fun t => (t.slPort p).rekeying = 1))) ∧
    (¬service → idle (.hold j) ∧ (x.step = 0 → idle (.sloythLinkLoss j)) ∧ (x.step ≠ 0 → fails (.sloythLinkLoss j))) ∧
    (∀ r : SlReq, service → x.resetting = none → s.parts = [] → s.launches = [] → x.reqs = [(0, r)] → r.op = 2 → 16000 < r.who →
      (kget (ansKey r.who r.pa) s.asked).isSome = true → Completes (.hold j) s fun t =>
        kget (ansKey r.who r.pa) t.ans = some { status := stLinkDown, data := 0, poison := false }) ∧
    (∀ day : Bool, (¬service ∨ x.resetting.isSome = true ∨ x.rekeying ≠ 0 → idle (.rekeyStart j day)) ∧
      (x.txSeq < 2 ^ 47 → idle (.rekeyStart j false)) ∧
      (service → x.resetting = none → x.rekeying = 0 → day = true ∨ 2 ^ 47 ≤ x.txSeq →
        Completes (.rekeyStart j day) s fun t => (t.slPort p).rekeying = 1)) ∧
    -- control blocks and packets
    (∀ (a : BitVec 64) (u v : BitVec 16) (c w : BitVec 40) (k : SlPacket), idle (.lpi j) ∧
      (¬service → idle (.ackBlock j a) ∧ idle (.nak j a) ∧ idle (.credit j u v) ∧ idle (.packet j k) ∧ idle (.berMeasurement j c w)) ∧
      (service → x.txq = [] → x.rekeying ≠ 2 → room →
        exec (.ackBlock j a) s = .next (put_ { x with replay := x.replay.filter fun e => a.toNat < e.seq }) ∧
        exec (.credit j u v) s = .next (put_ { x with reqCredits := x.reqCredits + u.toNat, rspCredits := x.rspCredits + v.toNat }) ∧
        (k.epoch = x.rxEpoch → k.seq.toNat = x.rxSeq → k.tagOk = true → k.txn.op = 1 →
          exec (.packet j k) s = .next (put_ { x with rxSeq := x.rxSeq + 1, nakSent := false, unacked := true,
                                                      rxq := x.rxq ++ [{
                                                        txn := k.txn, peer := x.peer
                                                        late := ((kget k.txn.win.toNat s.winIn).bind (·.closing)).isSome }] })) ∧
        (k.epoch ≠ x.rxEpoch ∨ k.seq.toNat ≠ x.rxSeq →
          (x.nakSent = false → exec (.packet j k) s = .next (emit (.slControl p 4 x.rxSeq) (put_ { x with nakSent := true }))) ∧
          (x.nakSent = true → idle (.packet j k))) ∧
        (k.epoch = x.rxEpoch → k.seq.toNat = x.rxSeq → k.tagOk = false →
          (x.lastTag = none → exec (.packet j k) s = .next (emit (.slControl p 4 x.rxSeq)
            (put_ { x with authFail := satAdd 14 x.authFail 1, lastTag := some s.aon, nakSent := true }))) ∧
          (∀ b, x.lastTag = some b → s.aon < b + 100000000 → quiet → resets (.packet j k)))) ∧
      (service → (∀ e ∈ x.replay, e.replays < 7) → exec (.nak j a) s = .next
        { put_ { x with replays := satAdd 16 x.replays 1,
                        replay := x.replay.map fun e => if a.toNat ≤ e.seq then { e with replays := e.replays + 1 } else e } with
          out := s.out ++ (x.replay.filter fun e => a.toNat ≤ e.seq).map fun e => .slPacket p x.txEpoch e }) ∧
      (service → quiet → (∃ e ∈ x.replay, a.toNat ≤ e.seq ∧ 7 ≤ e.replays) → resets (.nak j a)) ∧
      (service →
        let y : SlPort := { x with fecCorrected := satAdd 32 x.fecCorrected c.toNat, fecUncorrectable := satAdd 16 x.fecUncorrectable w.toNat }
        exec (.berMeasurement j c w) s =
          .next (if 10000000 < c.toNat + 16 * w.toNat then slEvent p 6 0 x.peer (put_ y) else put_ y))) ∧
    (x.state = 5 → s.power.shed < 5 → x.txq = [] → x.rekeying ≠ 2 →
      exec (.wake j) s = .next (emit (.slControl p 7 0) (put_ { x with state := 4 }))) ∧
    (x.state ≠ 5 ∨ 5 ≤ s.power.shed → idle (.wake j)) ∧
    (x.state = 4 → 3 ≤ s.power.shed → x.txq = [] → x.unacked = false →
      exec (.lpiEntry j) s = .next (emit (.slControl p 6 0) (put_ { x with state := 5 }))) ∧
    (x.state ≠ 4 ∨ s.power.shed < 3 ∨ x.txq ≠ [] ∨ x.unacked = true → idle (.lpiEntry j)) ∧
    (service → x.unacked = true → exec (.ackInterval j) s =
      .next (emit (.slControl p 3 (x.rxSeq - 1)) (put_ { x with unacked := false }))) ∧
    (x.unacked = false → idle (.ackInterval j))

/-- Sloyth windows, and how remote requests are checked, performed, answered and completed. For packets served at once
SL_WINDOW_SET fills a free window; a used number is ST_NOT_PERMITTED at 33, granules not owned at 48. SL_WINDOW_CLEAR
removes an outbound window no segment leads to, else ST_BUSY, and an inbound one once its accepted requests are
performed; the change waits for them. A remote request of no window, another peer or partition, after a clear, or
without permission is ST_NOT_PERMITTED; one past the window's end or malformed ST_BAD_PARAM. The first of a flow is
performed: a refused WRITE answers ERROR, a READ READ_DATA, an ATOMIC ATOMIC_DATA, a FENCE FENCE_ACK; one performed
leaves the queue and returns its credits. WIN_STATE sets REMOTE_OPEN of the windows that lead there. REKEY_KEM makes
the next keys and answers; REKEY_ENCAP makes them at the initiator. READ_DATA, ATOMIC_DATA, ERROR and a time-out end
the request with data or status; a refused WRITE loses its context; FENCE_ACK confirms the covered writes. Completion
(exec answers a next state) is the conclusion for slWindowSet, slWindowClear, write, read, remoteAtomic, remoteFence,
winState, rekeyKem, rekeyEncap, readData, atomicData, error, fenceAck and remoteTimeout. -/
def Obligations.RemoteRequestsAndWindows : Prop :=
  (∀ (s : State) (k : Pkt) (d : BitVec 256), ServedFor k s → k.paramLen = 32 → winForm d = none →
    let w := wByte d 1 1
    let me := k.partition.toNat
    let base := wByte d 16 8
    let made : WinIn := { part := me, srcPart := wByte d 3 1, r := bit (wByte d 2 1) 0, w := bit (wByte d 2 1) 1,
                          a := bit (wByte d 2 1) 2, base, len := wByte d 24 4, peer := wByte d 8 8 }
    (wByte d 0 1 = 0 →
      (kget w s.winOut = none → Commits (.slWindowSet k d) k 0x601 0 0 [winObj 0 w] s
        { s with winOut := kset w { part := me, remote := wByte d 4 1, peer := wByte d 8 8 } s.winOut }) ∧
      ((kget w s.winOut).isSome = true → Replies (.slWindowSet k d) k 0x601 { status := stNotPermitted, err := 33 } s s)) ∧
    (wByte d 0 1 = 1 →
      ((kget w s.winIn).isSome = true → Replies (.slWindowSet k d) k 0x601 { status := stNotPermitted, err := 33 } s s) ∧
      (kget w s.winIn = none →
        (∀ i, i < wByte d 24 4 → (s.gran (base / 0x200000 + i)).owned = false →
          Replies (.slWindowSet k d) k 0x601 { status := stNotPermitted, err := 48 } s s) ∧
        ((∀ i, i < wByte d 24 4 → let g := s.gran (base / 0x200000 + i)
            s.populated ((base / 0x200000 + i) * 0x200000) = true ∧ g.owned = true ∧ g.owner.val = me) → s.slPorts = [] →
          Commits (.slWindowSet k d) k 0x601 0 0 [winObj 1 w] s { s with winIn := kset w made s.winIn })))) ∧
  (∀ (s : State) (k : Pkt) (w : BitVec 8), ServedFor k s → k.paramLen = 8 → w.toNat < 64 →
    let me := k.partition.toNat
    let clear (d : BitVec 8) : Instr := .slWindowClear k d w
    let clearOp (d : BitVec 8) : StageOp := .slWindowClear k d w
    (kget w.toNat s.winOut = none → Replies (clear 0) k 0x602 { status := stBadParam, err := 33 } s s) ∧
    (∀ v, kget w.toNat s.winOut = some v → v.part = me →
      (winUsed w.toNat s = true → Replies (clear 0) k 0x602 { status := stBusy } s s) ∧
      (winUsed w.toNat s = false → Commits (clear 0) k 0x602 0 0 [winObj 0 w.toNat] s { s with winOut := kdel w.toNat s.winOut })) ∧
    (∀ v, s.winIn = [(w.toNat, v)] → v.closing = none →
      (v.part ≠ me → Replies (clear 1) k 0x602 { status := stNotPermitted, err := 33 } s s) ∧
      (v.part = me → s.slPorts = [] → Commits (clear 1) k 0x602 0 0 [winObj 1 w.toNat] s { s with winIn := [] }) ∧
      (v.part = me → (∃ e ∈ s.slPorts, ∃ i ∈ e.2.rxq, i.late = false ∧ 1 ≤ i.txn.op.toNat ∧ i.txn.op.toNat ≤ 3 ∧
          i.txn.win.toNat = w.toNat) →
        exec (clear 1) s = .next { s with
          winIn := [(w.toNat, { v with closing := some k })]
          changes := [{ pkt := k, opcode := 0x602, objs := [winObj 1 w.toNat], rest := [{ op := clearOp 1 }] }] }))) ∧
  (∀ (s : State) (i : SlIn) (n : Nat) (r w : Bool),
    (kget i.txn.win.toNat s.winIn = none → slCheck i n r w s = stNotPermitted) ∧
    (∀ v, kget i.txn.win.toNat s.winIn = some v →
      (i.late = true ∨ v.peer ≠ i.peer ∨ v.srcPart ≠ i.txn.src.val → slCheck i n r w s = stNotPermitted) ∧
      (i.late = false → v.peer = i.peer → v.srcPart = i.txn.src.val →
        ((r = true ∧ v.r = false) ∨ (w = true ∧ v.w = false) → slCheck i n r w s = stNotPermitted) ∧
        ((r = true → v.r = true) → (w = true → v.w = true) →
          (v.len * 0x200000 < i.txn.off.toNat + n ∨ i.txn.rsv = true ∨ (i.txn.op ≠ 3 ∧ 512 < n) → slCheck i n r w s = stBadParam) ∧
          (i.txn.off.toNat + n ≤ v.len * 0x200000 → i.txn.rsv = false → i.txn.op ≠ 3 → n ≤ 512 → i.txn.atom = 0 →
            slCheck i n r w s = stOk))))) ∧
  (∀ (s u : State) (j : Fin 4) (f : Fin 8) (m : MediaList) (i : SlIn),
    let p := j.val
    let on : State := { s with media := m }
    let op := i.txn.op
    let size := if bit i.txn.atom.toNat 4 then 8 else 4
    let stW := slCheck i i.txn.len.toNat false true s
    let stR := slCheck i i.txn.len.toNat true false s
    let stA := slCheck i size true true s
    let msg : Msg := { homeMsg .atomic (slBasePa i s) false with addr := BitVec.ofNat 48 (slBasePa i s), operand := i.txn.payload.setWidth 64,
                                                                 compare := BitVec.ofNat 64 (i.txn.payload.toNat / 2 ^ 64),
                                                                 aux := BitVec.ofNat 16 (bits i.txn.atom.toNat 4 0 + 128) }
    (slHead p f.val s = none → exec (.write j f m) s = .next s ∧ exec (.read j f m) s = .next s ∧
      exec (.remoteAtomic j f m) s = .next s ∧ exec (.remoteFence j f) s = .next s) ∧
    (slHead p f.val s = some i →
      (op = 1 → exec (.read j f m) s = .next s ∧ exec (.remoteAtomic j f m) s = .next s ∧ exec (.remoteFence j f) s = .next s) ∧
      (op = 4 → exec (.remoteFence j f) s = .next (slDone p i (some { op := 0x84 }) s) ∧ exec (.write j f m) s = .next s) ∧
      ((op = 1 → stW ≠ 0 → exec (.write j f m) s = .next (slDone p i (some { op := 0x81, status := stW }) s)) ∧
        (∀ q, op = 1 → stW = 0 → slWriteLines (slWho p i s) (slBasePa i s) i.txn 10 i.pos on = (q, some 0, u) →
          exec (.write j f m) s = .next { slDone p i none u with media := [] })) ∧
      ((op = 2 → stR ≠ 0 → exec (.read j f m) s = .next (slDone p i (some { op := 0x82, status := stR }) s)) ∧
        (∀ q a, op = 2 → stR = 0 → slReadLines (slWho p i s) (slBasePa i s) i.txn.len.toNat 10 i.pos i.acc on = ((q, a), some 0, u) →
          exec (.read j f m) s = .next { slDone p i (some { op := 0x82, len := i.txn.len.toNat, payload := a }) u with media := [] })) ∧
      ((op = 3 → stA ≠ 0 → exec (.remoteAtomic j f m) s = .next (slDone p i (some { op := 0x83, status := stA }) s)) ∧
        (∀ a, op = 3 → stA = 0 → once (slWho p i s) msg on = (some a, u) → a.status = 0 → a.poison = false →
          exec (.remoteAtomic j f m) s = .next { slDone p i (some { op := 0x83, payload := a.data.toNat }) u with media := [] })))) ∧
  (∀ (s : State) (p : Nat) (i : SlIn) (k : SlSent),
    let x := s.slPort p
    let c := slCost i.txn.op.toNat i.txn.len.toNat
    let u := emit (.slControl p 5 (if 0x80 ≤ i.txn.op.toNat then 2 ^ 16 * c else c)) (s.setSlPort p { x with rxq := [] })
    p < 4 → x.rxq = [i] → i.mute = false → x.txq = [] → s.winIn = [] →
    (∀ q, q < 4 → (s.slPort q).resetting = none ∧ (s.slPort q).txSeq + 2 < 2 ^ 48 ∧ (s.slPort q).rxSeq + 2 < 2 ^ 48) →
    slDone p i none s = u ∧ slDone p i (some k) s = slTransmit p { k with tag := i.txn.tag.toNat } u) ∧
  (∀ (s : State) (j : Fin 4) (i : SlIn),
    let p := j.val
    let x := s.slPort p
    (slFirst p 0x10 s = some i → exec (.winState j) s = .next (slDone p i none { s with winOut := kmap (fun _ v =>
      if v.peer = i.peer ∧ v.remote = i.txn.win.toNat then { v with isOpen := bit i.txn.payload.toNat 0 } else v) s.winOut })) ∧
    (slFirst p 0x10 s = none → exec (.winState j) s = .next s) ∧
    (slFirst p 0x11 s = none → exec (.rekeyKem j) s = .next s) ∧ (slFirst p 0x12 s = none → exec (.rekeyEncap j) s = .next s) ∧
    (slFirst p 0x11 s = some i → x.rekeying = 0 ∨ (x.rekeying = 1 ∧ x.initiator = false) →
      exec (.rekeyKem j) s = .next (slDone p i none (slTransmit p { op := 0x12 } (slNextKeys p false s)))) ∧
    (slFirst p 0x11 s = some i → x.rekeying = 2 ∨ (x.rekeying = 1 ∧ x.initiator = true) → exec (.rekeyKem j) s = .next (slDone p i none s)) ∧
    (slFirst p 0x12 s = some i → x.rekeying = 1 → exec (.rekeyEncap j) s = .next (slDone p i none (slPump p (slNextKeys p true s)))) ∧
    (slFirst p 0x12 s = some i → x.rekeying ≠ 1 → exec (.rekeyEncap j) s = .next (slDone p i none s)) ∧
    (slFirst p 0x81 s = none → exec (.error j) s = .next s) ∧ (slFirst p 0x82 s = none → exec (.readData j) s = .next s) ∧
    (slFirst p 0x83 s = none → exec (.atomicData j) s = .next s) ∧ (slFirst p 0x84 s = none → exec (.fenceAck j) s = .next s) ∧
    (∀ r : SlReq, s.launches = [] → s.parts = [] → kget i.txn.tag.toNat x.reqs = some r →
      let key := ansKey r.who r.pa
      let st := i.txn.status.toNat
      let gets (c : Instr) (d : Nat) : Prop := st = 0 ∨ 16000 < r.who → (kget key s.asked).isSome = true → Completes c s fun t =>
        kget key t.ans = some { status := st, data := BitVec.ofNat 512 d, poison := false } ∧ kget i.txn.tag.toNat (t.slPort p).reqs = none
      (slFirst p 0x82 s = some i → r.op = 2 → gets (.readData j) (i.txn.payload.toNat % 2 ^ (8 * r.len))) ∧
      (slFirst p 0x83 s = some i → r.op = 3 → gets (.atomicData j) (i.txn.payload.toNat % 2 ^ 64)) ∧
      (slFirst p 0x81 s = some i → r.op = 2 → gets (.error j) 0) ∧
      (∀ k : Ctx, let c := ((kget r.who s.posted).map (·.ctx)).getD r.ctx
        slFirst p 0x81 s = some i → r.op = 1 → st ≠ 0 → 16000 < r.who → (∀ q, kget r.who s.posted = some q → q.cluster = none) →
        s.ctx c = some k → k.cause = 0 → k.state = 0 →
        Completes (.error j) s fun t => (t.ctx c).map (fun c => (c.state, c.cause)) = some (1, slCause st)) ∧
      (slFirst p 0x84 s = some i → r.op = 4 → Completes (.fenceAck j) s fun t =>
        ∀ e ∈ (t.slPort p).reqs, ¬(e.2.op = 1 ∧ e.2.covered = true ∧ e.2.part = r.part ∧ e.2.peer = r.peer))) ∧
    (∀ g : BitVec 12, (kget g.toNat x.reqs = none → exec (.remoteTimeout j g) s = .next s) ∧
      (∀ r : SlReq, kget g.toNat x.reqs = some r →
        (r.op = 1 → exec (.remoteTimeout j g) s = .next s) ∧
        (r.op = 2 ∨ r.op = 3 → s.launches = [] → s.parts = [] → 16000 < r.who → (kget (ansKey r.who r.pa) s.asked).isSome = true →
          Completes (.remoteTimeout j g) s fun t => kget g.toNat (t.slPort p).reqs = none ∧
            kget (ansKey r.who r.pa) t.ans = some { status := stTimeout, data := 0, poison := false }))))

/-- Key slots, attestation, debug authorisation, life-cycle transitions, profile and firmware. For packets served at
once: KEY_SLOT_BIND fills an EMPTY slot with fresh bytes for a partition that has none; KEY_SLOT_DRAIN zeroises the
partition's slot and asks for a scrub of its granules, or waits for transfers until KEY_DRAIN_TIMEOUT drops them.
ATTEST builds a report or the identity block and returns up to 4,032 bytes of it. A fragment out of order is
ST_BAD_PARAM and ends its assembly. DEBUG_CHALLENGE gives serial, state, level and 32 fresh bytes where the level is
allowed and no lockout holds; DEBUG_RESPONSE unlocks the level or counts a failure, the eighth with a lockout; level 2
in FIELDED zeroises the slots; CHALLENGE_LAPSE and DEBUG_LOCKOUT_END end what they name. LC_TRANSITION blows its fuses
in order, as far as power lasts; MAKER becomes INTEGRATOR with OWNER_ROOT. PROFILE_SET and FW_UPDATE take a verified
object; one that does not verify is ST_AUTH_FAILED, counted. Completion (exec answers a next state) is the conclusion
for keySlotBind, keySlotDrain, keyDrainTimeout, attestReport, attestRead, attestIdentity, debugChallenge,
debugResponse, challengeLapse, debugLockoutEnd, lcTransition, profileSet and fwUpdate. -/
def Obligations.SecurityCommands : Prop :=
  (∀ (s : State) (p : Pkt) (b : BitVec 8), ServedFor p s → p.paramLen = 8 →
    let me := p.partition.toNat
    let k := (kget b.toNat s.keys).getD {}
    let bound : KeySlot := { state := 1, part := me, bindCount := satAdd 16 k.bindCount 1, key := entropy s.free 96 }
    (7 < b.toNat → Replies (.keySlotBind p b) p 0x700 { status := stBadParam, err := 32 } s s) ∧
    (b.toNat ≤ 7 →
      (k.state ≠ 0 → Replies (.keySlotBind p b) p 0x700 { status := stBusy, err := 32 } s s) ∧
      (k.state = 0 →
        ((∃ e ∈ s.keys, e.2.state ≠ 0 ∧ e.2.part = me) → Replies (.keySlotBind p b) p 0x700 { status := stNotPermitted } s s) ∧
        ((∀ e ∈ s.keys, e.2.state ≠ 0 → e.2.part ≠ me) →
          (s.sec.lc = 3 → Replies (.keySlotBind p b) p 0x700 { status := stLcState } s s) ∧
          (s.sec.lc < 3 → Commits (.keySlotBind p b) p 0x700 0 0 [objKey b.toNat] s
            { s with free := s.free + 96, keys := kset b.toNat bound s.keys }))))) ∧
  (∀ (s : State) (p : Pkt), ServedFor p s → p.paramLen = 0 →
    let me := p.partition.toNat
    ((∀ e ∈ s.keys, e.2.state ≠ 0 → e.2.part ≠ me) → Replies (.keySlotDrain p) p 0x701 { status := stNotPermitted } s s) ∧
    (∀ (k : Nat) (x : KeySlot), s.keys = [(k, x)] → x.part = me → x.state = 1 →
      ((∃ d, kget me s.sec.drains = some d ∧ samePkt d.pkt p = false) → Replies (.keySlotDrain p) p 0x701 { status := stBusy } s s) ∧
      (kget me s.sec.drains = none → s.lines = [] → s.net = [] → s.slPorts = [] → s.moves = [] → Completes (.keySlotDrain p) s fun t =>
        ∃ u : State, t = reply p 0x701 { len := 4, data := 0 } u ∧ u.keys = [(k, { x with state := 0, part := 0, key := 0 })] ∧
          kget me u.sec.drains = none ∧ u.mem = s.mem ∧
          ∀ g y, kget g s.pot = some y → y.owned = true → y.keySlot.val = k → (u.gran g).needsScrub = true) ∧
      (kget me s.sec.drains = none → slotTransfers k s ≠ [] → Completes (.keySlotDrain p) s fun t =>
        kget k t.keys = some { x with state := 2 } ∧ (kget me t.sec.drains).map (fun d => d.step) = some 2))) ∧
  (∀ (s : State) (q : Fin 8),
    (kget q.val s.sec.drains = none → exec (.keyDrainTimeout q) s = .next s) ∧
    (∀ d, kget q.val s.sec.drains = some d → d.step ≠ 2 → exec (.keyDrainTimeout q) s = .next s) ∧
    (∀ d, kget q.val s.sec.drains = some d → d.step = 2 → Completes (.keyDrainTimeout q) s fun t =>
      ∀ e, kget q.val t.sec.drains = some e → e.step = 4)) ∧
  (∀ (s : State) (p : Pkt) (f : Frag) (nonce : BitVec 256) (o : BitVec 32), ServedFor p s ∨ ServedHub p s → p.paramLen = 56 →
    let path := pathCode p.path
    let u := setAsm path none s
    let rep := reportBody p nonce.toNat u
    (f.offset ≠ 0 ∨ f.total ≠ f.len → Replies (.attestReport p f nonce) p 0x702 { status := stBadParam, err := 32 } s s ∧
      Replies (.attestIdentity p f) p 0x702 { status := stBadParam, err := 32 } s s ∧
      Replies (.attestRead p f o) p 0x702 { status := stBadParam, err := 32 } s s) ∧
    (f.offset = 0 → f.total = 40 → f.len = 40 → f.rsv = false →
      (Replies (.attestReport p f nonce) p 0x702 { len := 4, data := 30240 } s
         (setBuilt p 30240 (rep + (Config.identitySign rep % 2 ^ (8 * 29792)) * 2 ^ 3584) u)) ∧
      (Completes (.attestIdentity p f) s fun t => (kget path t.sec.built).map (fun e => e.1) = some 61576 ∧
        ∀ e, kget path t.sec.built = some e → e.2 % 2 ^ 64 = s.fuse.serial % 2 ^ 64) ∧
      (∀ n v, kget path s.sec.built = some (n, v) →
        (n < o.toNat → Replies (.attestRead p f o) p 0x702 { status := stBadParam, err := 52 } s u) ∧
        (o.toNat ≤ n → Replies (.attestRead p f o) p 0x702
          { len := min 4032 (n - o.toNat), data := bytesAt v o.toNat (min 4032 (n - o.toNat)) } s u)))) ∧
  (∀ (s : State) (p : Pkt) (l : BitVec 8), ServedHub p s → p.paramLen = 8 →
    (debugAllowed s.sec.lc l.toNat = false → Replies (.debugChallenge p l) p 0x703 { status := stLcState } s s) ∧
    (debugAllowed s.sec.lc l.toNat = true →
      (8 ≤ s.sec.fails → s.opSeconds < s.sec.lockUntil → Replies (.debugChallenge p l) p 0x703 { status := stBusy } s s) ∧
      (s.sec.fails < 8 ∨ s.sec.lockUntil ≤ s.opSeconds →
        let c := s.fuse.serial % 2 ^ 64 + 2 ^ 64 * (s.sec.lc % 256) + 2 ^ 72 * l.toNat + 2 ^ 128 * entropy s.free 32
        Replies (.debugChallenge p l) p 0x703 { len := 64, data := c } s
          { s with free := s.free + 32, sec := { s.sec with challenge := some (l.toNat, c) } }))) ∧
  (∀ lc l, debugAllowed lc l = decide (1 ≤ l ∧ ((lc = 0 ∨ lc = 3) ∧ l ≤ 3 ∨ (lc = 1 ∨ lc = 2) ∧ l ≤ 2))) ∧
  (∀ s : State, exec .challengeLapse s = .next { s with sec := { s.sec with challenge := none } } ∧
    exec .debugLockoutEnd s = .next { s with opSeconds := max s.opSeconds s.sec.lockUntil }) ∧
  (∀ (s : State) (p : Pkt) (f : Frag) (o : SignedObj) (a : BitVec 512) (sig : Bool) (w : BitVec 8) (conf : ConfBody), ServedHub p s →
    f.rsv = false → 1 ≤ f.len.toNat → f.len.toNat ≤ 4048 → p.paramLen.toNat = 16 + f.len.toNat → f.total.toNat ≤ 0x10000 →
    let path := pathCode p.path
    let u := setAsm path none s
    let fails := satAdd 16 s.sec.fails 1
    let lock := if 8 ≤ fails then s.opSeconds + 600 else s.sec.lockUntil
    let fed (st : Nat) (v : State) : State := secEvent 2 st { v with secAuth := satAdd 16 v.secAuth 1 }
    let failed : State := fed 4 { u with sec := { u.sec with challenge := none, fails, lockUntil := lock } }
    let bank : Bank := { svn := o.svn.toNat, head := o.head.toNat }
    (f.offset = 0 → f.len.toNat < f.total.toNat → Replies (.debugResponse p f a sig) p 0x704 {} s
      (setAsm path (some { opcode := 0x704, total := f.total.toNat, got := f.len.toNat }) s)) ∧
    (f.offset ≠ 0 → kget path s.sec.asm = none →
      Replies (.debugResponse p f a sig) p 0x704 { status := stBadParam, err := 32 } s s) ∧
    (∀ m : Asm, f.offset ≠ 0 → kget path s.sec.asm = some m → m.got ≠ f.offset.toNat →
      Replies (.debugResponse p f a sig) p 0x704 { status := stBadParam, err := 32 } s u) ∧
    (f.offset = 0 → f.len = f.total →
      ((s.sec.challenge = none → Replies (.debugResponse p f a sig) p 0x704 { status := stAuthFailed } s failed) ∧
        (∀ l c, s.sec.challenge = some (l, c) →
         (debugAllowed s.sec.lc l = true → s.sec.lc = 0 ∨ (sig = true ∧ a = debugAuthority s) →
           Replies (.debugResponse p f a sig) p 0x704 {} s (debugUnlock l a { u with sec := { u.sec with challenge := none } })) ∧
         (s.sec.lc ≠ 0 → sig = false ∨ a ≠ debugAuthority s →
           Replies (.debugResponse p f a sig) p 0x704 { status := stAuthFailed } s failed))) ∧
      (objForm o [4] = true → s.sec.lc = 1 →
        (verifies o 1 s = false → Replies (.profileSet p f o w) p 0x706 { status := stAuthFailed } s (fed 6 u)) ∧
        (verifies o 1 s = true → w = 1 ∨ w = 2 →
          (s.fuse.profile = 0 → Replies (.profileSet p f o w) p 0x706 {} s { u with fuse := { s.fuse with profile := w.toNat } }) ∧
          (s.fuse.profile ≠ 0 → Replies (.profileSet p f o w) p 0x706 { status := stNotPermitted } s u))) ∧
      (objForm o [4] = true → s.sec.lc ≠ 1 → Replies (.profileSet p f o w) p 0x706 { status := stLcState } s u) ∧
      (objForm o [1, 2] = true → o.kind = 1 → s.sec.lc ≤ 3 →
        (verifies o 0 s = false → Replies (.fwUpdate p f o conf) p 0x707 { status := stAuthFailed } s (fed 7 u)) ∧
        (verifies o 0 s = true →
          (o.svn.toNat < s.fuse.svn → Replies (.fwUpdate p f o conf) p 0x707 { status := stNotPermitted } s (secEvent 7 0 u)) ∧
          (s.fuse.svn ≤ o.svn.toNat → Replies (.fwUpdate p f o conf) p 0x707 {} s (secEvent 6 0 { u with flash :=
                                                                                   { s.flash with swap := true, banks := kset (1 - s.flash.active) bank s.flash.banks } })))) ∧
      (objForm o [1, 2] = true → o.kind = 2 → s.sec.lc = 1 ∨ s.sec.lc = 2 → verifies o 1 s = true →
        Replies (.fwUpdate p f o conf) p 0x707 {} s
          (secEvent 6 0 { u with flash := { s.flash with conf := some (conf, o.head.toNat) } })) ∧
      (objForm o [3] = true → ∀ (lcA lcB : BitVec 8) (root : BitVec 512),
        let move (cut : Option (BitVec 16)) : Instr := .lcTransition p f o lcA lcB root false cut
        (lcA.toNat ≠ s.sec.lc → Replies (move none) p 0x705 { status := stLcState } s u) ∧
        (lcA.toNat = s.sec.lc → lcSigner s.sec.lc lcB.toNat s.fuse.lc = none → Replies (move none) p 0x705 { status := stLcState } s u) ∧
        (∀ g, lcA.toNat = s.sec.lc → lcSigner s.sec.lc lcB.toNat s.fuse.lc = some g → verifies o g s = false →
          Replies (move none) p 0x705 { status := stAuthFailed } s (fed 5 u)) ∧
        (lcA = 0 → s.sec.lc = 0 → lcB = 1 → verifies o 0 s = true → s.fuse.ownerRoot = 0 →
          (∀ n, exec (move (some n)) s = .next (((lcSteps 0 root s).take n.toNat).foldl fuseStep u)) ∧
          (s.fuse.lc = 0 → Completes (move none) s fun t => t.sec.lc = 1 ∧ t.fuse.ownerRoot = root ∧ lcGroup t.fuse.lc 0 = 16 ∧
            t.fuse.profile = s.fuse.profile ∧ t.mem = s.mem))))) ∧
  (∀ (s : State) (o : SignedObj) (g : Nat), o.sigOk = false ∨ o.bodyOk = false ∨ o.signer.toNat ≠ g ∨
    (o.serial.toNat ≠ s.fuse.serial ∧ o.kind ≠ 1) → verifies o g s = false) ∧
  (∀ (s : State) (a : BitVec 512), s.sec.lc = 2 → s.slPorts = [] → (debugUnlock 2 a s).sec.level = 2 ∧
    ∀ e ∈ (debugUnlock 2 a s).keys, e.2.state = 0 ∧ e.2.key = 0)

/-- Margins and repairs, the service queries, the SMB commands and register writes. MARGIN_SAMPLE keeps the margin;
below 8.0 % it warns once, below 5.0 % the core's retirement is due, or with no spare it is noted. the sixteenth
corrected error of a stall row in 24 hours makes a spare row due. REPAIR of a core retirement that is due on an idle
core gives it the lowest spare slot, with the spare's own counts; a core, segment or row repair that is not due does
nothing; a lane repair over its threshold is recorded at once, and at L4 or deeper only becomes due. REPAIR_PENDING
tells once of a way or link repair. REPAIR_QUIESCE RUN with nothing due replies at once, with a repair that cannot be
made yet it waits, while another runs it is ST_BUSY; QUERY replies the counts. SERVICE_QUERY replies summary, records
from FIRST, reports and presentation and changes nothing. SET_OFFSET, READ32 and WRITE32 act on the SMB offset; a
wrong PEC or unaligned offset has no effect, a read outside the reach gives 0, a write there nothing. REGISTER_WRITE
acts by the field's type: a read-only register keeps its value, a misaligned read gives all ones, and nothing acts in
BAR0 while the port is frozen. Completion (exec answers a next state) is the conclusion for marginSample, repair,
repairPending, repairQuiesceRun, repairQuiesceQuery, serviceQuerySummary, serviceQueryRecords, serviceQueryReports,
serviceQueryPresentation, setOffset, read32, write32 and registerWrite. -/
def Obligations.RepairsServiceAndRegisters : Prop :=
  (∀ (s : State) (j : Fin 4000) (m : BitVec 10),
    let c := j.val
    let u : State := { s with rep := { s.rep with margins := kset c m.toNat s.rep.margins } }
    (80 ≤ m.toNat → exec (.marginSample j m) s = .next u) ∧
    (50 ≤ m.toNat → (kget c s.rep.marginLow).isSome = true → exec (.marginSample j m) s = .next u) ∧
    (50 ≤ m.toNat → m.toNat < 80 → kget c s.rep.marginLow = none → exec (.marginSample j m) s =
      .next (serviceEvent 5 1 (c / 20) (c % 20) { u with rep := { u.rep with marginLow := kset c true s.rep.marginLow } })) ∧
    (m.toNat < 50 → (kget c s.rep.worn).isSome = true → exec (.marginSample j m) s = .next u) ∧
    (m.toNat < 50 → kget c s.rep.worn = none → spareSlots s (c / 20) = [] → Completes (.marginSample j m) s fun t =>
      kget c t.rep.worn = some true ∧ t.rep.due = s.rep.due) ∧
    (m.toNat < 50 → kget c s.rep.worn = none → spareSlots s (c / 20) ≠ [] → Completes (.marginSample j m) s fun t =>
      ∃ d ∈ t.rep.due, d.what = { kind := 1, source := 3, unit := c / 20, slot := slotOf s c, logical := c % 20 })) ∧
  (∀ (s : State) (source : BitVec 3) (unit : BitVec 16) (slot logical : BitVec 8) (index : BitVec 16) (sl : Nat) (l : List Nat),
    let c := 20 * unit.toNat + logical.toNat
    let lane : Rec := { kind := 6, source := 4, unit := unit.toNat, slot := slot.toNat, logical := logical.toNat, index := index.toNat }
    let core : Rec := { kind := 1, source := source.toNat, unit := unit.toNat, slot := slot.toNat, logical := logical.toNat, index := index.toNat }
    (s.power.shed < 4 → s.rep.due = [] → Completes (.repair 6 4 unit slot logical index) s fun t =>
      t.rep.records = s.rep.records ++ [{ lane with seconds := s.opSeconds, logical := 0xFF }] ∧ t.rep.due = [] ∧
      t.rep.fieldRepairs = s.rep.fieldRepairs + 1 ∧ t.rep.fuseFree = s.rep.fuseFree - 1 ∧ t.mem = s.mem) ∧
    (4 ≤ s.power.shed → exec (.repair 6 4 unit slot logical index) s = .next (addDue lane s)) ∧
    (∀ kind : BitVec 4, kind.toNat ≤ 3 → s.rep.due = [] → exec (.repair kind source unit slot logical index) s = .next s) ∧
    (∀ since told, s.power.shed < 4 → logical.toNat < 20 → s.rep.due = [{ what := core, since, told }] → (s.core c).run = false →
      spareSlots s unit.toNat = sl :: l → Completes (.repair 1 source unit slot logical index) s fun t =>
        slotOf t c = sl ∧ t.rep.due = [] ∧ (t.core c).chain = false ∧ (t.core c).swDone = 0 ∧ (t.core c).swAband = 0 ∧ (∀ k, k ≠ c → slotOf t k = slotOf s k))) ∧
  (∀ (s : State) (c row n : Nat),
    let key := c * 32768 + row
    let before := lastDay s ((kget key s.rep.rowErrs).getD [])
    (countSum before + n < 16 → rowErrors c row n s =
      { s with rep := { s.rep with rowErrs := kset key (before ++ [(s.opSeconds, n)]) s.rep.rowErrs } }) ∧
    (16 ≤ countSum before + n → kget key (rowErrors c row n s).rep.rowErrs = none ∧ ∃ d ∈ (rowErrors c row n s).rep.due,
      d.what = { kind := 3, source := 4, unit := c / 20, slot := slotOf s c, index := row })) ∧
  (∀ (s : State) (i : BitVec 8),
    (s.rep.due.length ≤ i.toNat → exec (.repairPending i) s = .next s) ∧
    (∀ d, s.rep.due[i.toNat]? = some d →
      (d.told = true ∨ (d.what.kind ≠ 4 ∧ d.what.kind ≠ 5) → exec (.repairPending i) s = .next s) ∧
      (d.told = false → d.what.kind = 4 ∨ d.what.kind = 5 → Completes (.repairPending i) s fun t =>
        t.opSeconds = max s.opSeconds (d.since + 3600) ∧ t.rep.due.length = s.rep.due.length ∧
        (t.rep.due[i.toNat]?).map (fun e => (e.what, e.told)) = some (d.what, true)))) ∧
  (∀ (s : State) (p : Pkt) (v : BitVec 32), ServedHub p s → p.paramLen = 8 →
    let due := s.rep.due.length
    let low := ((List.range 200).filter fun g => decide (spareSlots s g = [])).length
    let recs := (s.rep.records.drop v.toNat).take 253
    ((∃ r, s.rep.running = some r ∧ samePkt r.1 p = false) → Replies (.repairQuiesceRun p v) p 0x800 { status := stBusy } s s) ∧
    (s.rep.running = none → s.rep.due = [] → Replies (.repairQuiesceRun p v) p 0x800 { len := 4, data := 0 } s s) ∧
    (∀ d, s.rep.running = none → s.rep.due = [d] → scopeIdle s d.what = false → v ≠ 0 → Completes (.repairQuiesceRun p v) s fun t =>
      t.rep.running = some (p, s.aon + 100000 * v.toNat, 0) ∧ t.rep.due = [d] ∧ t.out = s.out) ∧
    Replies (.repairQuiesceQuery p v) p 0x800 { len := 4, data := 2 ^ 16 * (due % 2 ^ 16) } s s ∧
    Replies (.serviceQuerySummary p v) p 0x801 { len := 8, data := s.rep.records.length % 2 ^ 16 + 2 ^ 16 * (s.rep.fuseFree % 256) +
      2 ^ 24 * (low % 256) + 2 ^ 32 * (due % 2 ^ 16) + 2 ^ 48 * min 65535 s.rep.fieldRepairs } s s ∧
    Replies (.serviceQueryRecords p v) p 0x801 { len := 16 + 16 * recs.length, data := recs.length + 2 ^ 128 * packWords 16 (recs.map recWord) } s s ∧
    Replies (.serviceQueryReports p v) p 0x801 { len := 32 * s.flash.reports.flatten.length, data := packWords 32 s.flash.reports.flatten } s s ∧
    Replies (.serviceQueryPresentation p v) p 0x801 { len := 128, data := presentation s } s s) ∧
  (∀ (s : State) (o v : BitVec 32),
    let off := s.power.smbOffset
    let next (u : State) : State := { u with power := { u.power with smbOffset := (u.power.smbOffset + 4) % 2 ^ 32 } }
    (o.toNat % 4 = 0 → exec (.setOffset o true) s = .next { s with power := { s.power with smbOffset := o.toNat } }) ∧
    (o.toNat % 4 ≠ 0 → exec (.setOffset o true) s = .next s) ∧ exec (.setOffset o false) s = .next s ∧
    exec .read32 s = .next (next (emit (.smb 4 (smbValue off s)) s)) ∧ (smbReach off = false → smbValue off s = 0) ∧
    (off = 0x4 → smbValue off s = s.fuse.variant % 16 + 16 * (s.fuse.profile % 16) + 2 ^ 8 * (s.fuse.stepping % 256) + 4000 * 2 ^ 16) ∧
    exec (.write32 v false) s = .next s ∧
    (off < 0x6000 ∨ 0x7000 ≤ off → off ≠ 0x5040 → off ≠ 0x5044 → off ≠ 0xA040 → exec (.write32 v true) s = .next (next s)) ∧
    (off = 0xA040 → exec (.write32 v true) s = .next (next { s with power := { s.power with smb := s.power.smb &&& (7 - v.toNat % 8) } })) ∧
    (0x6000 ≤ off → off < 0x7000 → 2 ≤ s.co.stage → s.mbx.owner = 2 → s.mbx.busy = false → exec (.write32 v true) s =
      .next (next { s with mbx := { s.mbx with buf := mwrite s.mbx.buf (off - 0x6000) 4 v.toNat } }))) ∧
  (∀ (s : State) (o : BitVec 24) (n : BitVec 4) (v : BitVec 64),
    (hostOpen s = false → exec (.registerWrite false o n v) s = .next s) ∧
    (hostOpen s = true → regRead 0x1 1 s = 0xFF ∧ regRead 0x2 2 s = 0xFFFF ∧ regRead 0x1009 1 s = 0xFF) ∧
    (n.toNat < 4 → exec (.registerWrite true 0x410 n v) s = .next s) ∧
    exec (.registerWrite false 0x1010 8 v) s = .next s ∧ exec (.registerWrite false 0x4 4 v) s = .next s ∧
    (hostOpen s = true → exec (.registerWrite false 0x4200 4 v) s = .next (s.setReg 0x4200 (v.toNat % 2 ^ 32)) ∧
      exec (.registerWrite false 0x4200 8 v) s = .next s ∧
      exec (.registerWrite false 0x2004 4 v) s = .next (s.setReg 0x2004 (v.toNat % 4096))) ∧
    exec (.registerWrite true 0x104 4 v) s = .next { s with port := { s.port with aer := s.port.aer &&& ~~~(v.setWidth 32) } } ∧
    exec (.registerWrite true 0x0 4 v) s = .next s)

/-- Power caps, temperatures, the coolant loop, and the shed levels. POWER_QUERY replies its figures.
POWER_CONTROL_TICK over a limit lowers caps, by 2 from 64 where nothing is capped, and never raises one; the tenth
sample in a row below 95 % of every limit raises, and lowers none. REGULATOR_ALERT holds every cluster's cap at 32 or
less until 1 ms after it clears. A die at its threshold loses 2 of its cap, the tenth sample 3 °C below gives 1 back;
at 115 °C, or THERMTRIP, every clock but the always-on one stops. A third failed sensor read, or a flow fault at 20 %
duty or more, enters fail-safe: pump and valve at 100; FAILSAFE_END needs every fault cleared. The setpoint rises at
once and falls by 0.5 % of the maximum; duty moves by 1 within 20 to 100 and is held at L5. The shed level rises as
soon as a rail, store or power-fail trigger holds, to the deepest; reaching L4 rolls back every transaction but one
whose commit has started; it falls one level without a trigger, and stays at L6. Completion (exec answers a next
state) is the conclusion for powerQuery, powerControlTick, regulatorAlert, regulatorAlertClear, dieTemperatureSample,
thermtrip, sensorRead, flowFault, failsafeEnd, loopSetpointUpdate, pumpDutyUpdate, railSample, pwrFailN and
shedLevelFall. -/
def Obligations.PowerHeatAndShed : Prop :=
  (∀ (s : State) (p : Pkt), ServedHub p s → p.paramLen = 0 → Replies (.powerQuery p) p 0x900 { len := 32, data := powerReply s } s s) ∧
  (∀ (s : State) (pkg hub hbm : BitVec 12),
    let u : State := { s with power := { s.power with samples := (pkg.toNat :: s.power.samples).take 1000, hubW := hub.toNat, hbmW := hbm.toNat } }
    let c := Instr.powerControlTick pkg hub hbm
    ((∃ e ∈ powerPairs u, e.2 < e.1) → Completes c s fun t => t.power.samples = u.power.samples ∧ t.power.under = 0 ∧
      (∀ g, capOf t g ≤ capOf s g) ∧ (s.power.cap = [] → s.parts = [] → ∀ g, g < 200 → capOf t g = 62)) ∧
    ((∀ e ∈ powerPairs u, 100 * e.1 < 95 * e.2) → Completes c s fun t =>
      (s.power.under < 9 → t.power.under = s.power.under + 1 ∧ t.power.cap = s.power.cap ∧ t.power.act = s.power.act) ∧
      (9 ≤ s.power.under → t.power.under = 0 ∧ ∀ g, capOf s g ≤ capOf t g)) ∧
    ((∀ e ∈ powerPairs u, e.1 ≤ e.2) → (∃ e ∈ powerPairs u, 95 * e.2 ≤ 100 * e.1) → Completes c s fun t =>
      t.power.under = 0 ∧ t.power.cap = s.power.cap ∧ t.power.act = s.power.act)) ∧
  (∀ s : State, exec .regulatorAlert s = .next { s with power := { s.power with regAlert := true } } ∧
    (s.power.regAlert = false → exec .regulatorAlertClear s = .next s) ∧
    (s.power.regAlert = true → exec .regulatorAlertClear s =
      .next { s with power := { s.power with regAlert := false, regUntil := s.aon + 100000 } }) ∧
    (s.power.regAlert = true ∨ s.aon < s.power.regUntil → ∀ g, clkCap g s ≤ 32) ∧
    (4 ≤ s.power.shed → ∀ g, clkCap g s ≤ 16) ∧ (1 ≤ s.power.shed → ∀ g, clkCap g s ≤ 54)) ∧
  (∀ (s : State) (j : Fin 200) (v : BitVec 16),
    let x := (kget j.val s.power.die).getD {}
    let thr : Int := 10 * (throttleC s : Int)
    let sets (cap cool : Nat) : Prop := Completes (.dieTemperatureSample j v) s fun t => ∃ d, kget j.val t.power.die = some d ∧
      d.temp = v.toInt ∧ d.cap = cap ∧ d.cool = cool ∧ (∀ k, k ≠ j.val → kget k t.power.die = kget k s.power.die) ∧
      (1150 ≤ v.toInt → t.power.tripped = true ∧ ∀ k, k ≠ 0 → (t.clock k).running = false) ∧
      (v.toInt < 1150 → t.power.tripped = s.power.tripped ∧ t.clocks = s.clocks)
    (thr ≤ v.toInt → sets (max 16 (x.cap - 2)) 0) ∧
    (v.toInt < thr - 30 → 9 ≤ x.cool → sets (min 64 (x.cap + 1)) 0) ∧
    (v.toInt < thr - 30 → x.cool < 9 → sets x.cap (x.cool + 1)) ∧
    (thr - 30 ≤ v.toInt → v.toInt < thr → sets x.cap 0)) ∧
  (∀ s : State, Completes .thermtrip s fun t => t.power.tripped = true ∧ (∀ k, k ≠ 0 → (t.clock k).running = false) ∧
    t.clock 0 = s.clock 0 ∧ t.mem = s.mem) ∧
  (∀ (s : State) (i : Fin 4) (v : BitVec 16) (pump : Fin 2),
    let x := s.power
    let bad := (kget i.val x.badReads).getD 0
    let safe (c : Instr) : Prop := Completes c s fun t => t.power.failsafe = true ∧ t.power.duty = 100 ∧ t.power.valve = 100
    let ok : Power := { x with badReads := kdel i.val x.badReads, sensorFault := kdel i.val x.sensorFault }
    (bad < 2 ∨ (kget i.val x.sensorFault).isSome = true → exec (.sensorRead i none) s =
      .next { s with power := { x with badReads := kset i.val (bad + 1) x.badReads } }) ∧
    (2 ≤ bad → kget i.val x.sensorFault = none → safe (.sensorRead i none)) ∧
    (i = 0 → exec (.sensorRead i (some v)) s = .next { s with power := { ok with flow := v.toNat } }) ∧
    (i = 1 → exec (.sensorRead i (some v)) s = .next { s with power := { ok with inlet := v.toInt } }) ∧
    (i = 2 → exec (.sensorRead i (some v)) s = .next { s with power := { ok with outlet := v.toInt } }) ∧
    (i = 3 → Completes (.sensorRead i (some v)) s fun t => t.power.bankMv = v.toNat ∧ t.power.storePct = storePctOf v.toNat s ∧
      s.power.shed ≤ t.power.shed) ∧
    (x.duty < 20 ∨ (kget pump.val x.pumpFault).isSome = true → exec (.flowFault pump) s = .next s) ∧
    (20 ≤ x.duty → kget pump.val x.pumpFault = none → safe (.flowFault pump)) ∧
    (x.sensorFault = [] → x.pumpFault = [] → exec .failsafeEnd s = .next { s with power := { x with failsafe := false } }) ∧
    (x.sensorFault ≠ [] ∨ x.pumpFault ≠ [] → exec .failsafeEnd s = .next s)) ∧
  (∀ s : State, Completes .loopSetpointUpdate s fun t => s.power.setpoint - flowMax s / 200 ≤ t.power.setpoint ∧
    t.power.setpoint ≤ max s.power.setpoint (flowMax s) ∧ flowMax s / 10 ≤ t.power.setpoint ∧
    ((∃ e ∈ s.ctls, e.1 < 16 ∧ 1 ≤ e.2.step) → flowMax s ≤ t.power.setpoint) ∧
    t = { s with power := { s.power with setpoint := t.power.setpoint, stackAt := t.power.stackAt } }) ∧
  (∀ (s : State) (a b : BitVec 16), Completes (.pumpDutyUpdate a b) s fun t =>
    t.power.tach0 = a.toNat ∧ t.power.tach1 = b.toNat ∧
    (5 ≤ s.power.shed → t.power.duty = s.power.duty ∧ t.power.valve = s.power.valve) ∧
    (s.power.shed < 5 →
      (s.power.failsafe = true → t.power.duty = 100 ∧ t.power.valve = 100) ∧
      (s.power.failsafe = false →
        (loopManual s = true → t.power.duty = manualDuty s ∧ t.power.valve = 100) ∧
        (loopManual s = false → t.power.valve = max 20 (100 * s.power.setpoint / flowMax s) ∧
          t.power.duty = min 100 (max 20 (if s.power.flow < s.power.setpoint then s.power.duty + 1
            else if s.power.setpoint < s.power.flow then s.power.duty - 1 else s.power.duty)))))) ∧
  (∀ (s : State) (d : BitVec 8) (low : Bool),
    let rail : Power := { s.power with railDrop := d.toNat, railTrig := railTrigs d.toNat s.power.railTrig }
    let fail : Power := { s.power with pwrFail := low }
    let rises (c : Instr) (x : Power) : Prop := Completes c s fun t =>
      t.power.shed = (if s.power.shed = 6 then 6 else max s.power.shed (triggerLevel x)) ∧
      (s.power.shed < 4 → 4 ≤ triggerLevel x → ∀ e ∈ t.txns, ∃ c ∈ s.changes, c.txn = e.1) ∧ (s.power.shed < t.power.shed → t.power.entries = satAdd 16 s.power.entries 1)
    rises (.railSample d) rail ∧ rises (.pwrFailN low) fail ∧
    (∀ l, 1 ≤ l → l ≤ 5 → railThreshold l ≤ d.toNat → l ≤ triggerLevel rail) ∧ (low = true → 4 ≤ triggerLevel fail) ∧
    (s.power.shed = 0 ∨ s.power.shed = 6 ∨ s.power.shed ≤ triggerLevel s.power → exec .shedLevelFall s = .next s) ∧
    (s.power.shed ≠ 0 → s.power.shed < 6 → triggerLevel s.power < s.power.shed → Completes .shedLevelFall s fun t =>
      t.power.shed = s.power.shed - 1))

/-- Power-on reset, PERST#, the warm reset and its limits. Power-on reset empties memory, contexts, queues, key slots,
cores and granule table, and keeps fuses, flash, offline list, repair records and operating time; PERST# does so too
but keeps the always-on count and the THERMTRIP latch, and only while POR_N is high. Cast-on starts at CO0 once both
pins are high. HUB_RESET_CTL with its key, WARM_N and the watchdog trigger a warm reset: ignored before CO10, in
progress or deferred; deferred at L4 or deeper; else, with nothing in flight, cast-on goes on at CO3, every context is
LOST and memory, key slots, fences and the granule table stay. A deferred reset starts, and one halted after step 5
resumes, at L3 or shallower only. The drain limit ends step 3, or lets a partition reset end; the recall limit ends a
site's reset. A started commit ends before step 3. That both pins are low at reset is a choice of the model (log 20).
Completion (exec answers a next state) is the conclusion for powerOnReset, perst, porNDeassert, perstDeassert,
warmReset, warmN, hmfWatchdogExpiry, deferredWarmResetStart, warmResetResume, drainTimeout and recallTimeout. -/
def Obligations.ResetsClearAndKeep : Prop :=
  let cleared (s t : State) : Prop :=
    t.mem = [] ∧ t.ctxs = [] ∧ t.queues = [] ∧ t.fences = [] ∧ t.keys = [] ∧ t.cores = [] ∧ t.pot = [] ∧ t.parts = [] ∧ t.txns = [] ∧
    t.fuse = s.fuse ∧ t.flash = s.flash ∧ t.offline = s.offline ∧ t.opSeconds = s.opSeconds ∧ t.rep.records = s.rep.records ∧
    t.rep.slots = s.rep.slots ∧ t.co = {} ∧ t.sec.lc = lcDecode s.fuse.lc ∧ t.sec.hubKey = 0 ∧ t.free = s.free ∧ t.pending = s.pending
  let started (n : Nat) (warm : Bool) (t : State) : Prop :=
    t.co.stage = n ∧ t.co.running = true ∧ t.co.ready = false ∧ t.co.failed = false ∧ t.co.halted = false ∧ t.co.warm = warm
  let clean (s : State) : Prop := s.moves = [] ∧ s.slPorts = [] ∧ s.sites = [] ∧ s.clusters = [] ∧ s.lines = [] ∧ s.net = [] ∧
    s.queues = [] ∧ s.accepted = [] ∧ s.shoots = [] ∧ s.winIn = [] ∧ s.changes = [] ∧ s.drops = [] ∧ s.posted = [] ∧ s.port.writes = [] ∧
    s.msc = []
  let kept (s t : State) : Prop := t.mem = s.mem ∧ t.keys = s.keys ∧ t.pot = s.pot ∧ t.fences = s.fences ∧ t.fuse = s.fuse
  (∀ s : State,
    Completes .powerOnReset s (fun t => cleared s t ∧ t.rst.lastKind = 1 ∧ t.rst.porN = false ∧ t.rst.perstN = s.rst.perstN ∧
      t.clocks = [] ∧ t.power.tripped = false) ∧
    (s.rst.perstN = false → exec .perst s = .next s) ∧
    (s.rst.perstN = true → s.rst.porN = false → exec .perst s = .next { s with rst := { s.rst with perstN := false } }) ∧
    (s.rst.perstN = true → s.rst.porN = true → Completes .perst s fun t => cleared s t ∧ t.rst.lastKind = 2 ∧ t.rst.porN = true ∧
      t.rst.perstN = false ∧ t.clock 0 = s.clock 0 ∧ (∀ d, d ≠ 0 → t.clock d = {}) ∧ t.power.tripped = s.power.tripped) ∧
    (s.rst.porN = true → exec .porNDeassert s = .next s) ∧
    (s.rst.porN = false → Completes .porNDeassert s fun t => t.rst.porN = true ∧
      t.clock 0 = { count := 0, started := true, running := true } ∧ t.mem = s.mem ∧
      (s.rst.perstN = true → started 0 false t) ∧ (s.rst.perstN = false → t.co = s.co)) ∧
    (s.rst.perstN = true → exec .perstDeassert s = .next s) ∧
    (s.rst.perstN = false → Completes .perstDeassert s fun t => t.rst.perstN = true ∧ t.clocks = s.clocks ∧ t.mem = s.mem ∧
      (s.rst.porN = true → started 0 false t) ∧ (s.rst.porN = false → t.co = s.co))) ∧
  (∀ (s : State) (v : BitVec 32),
    let keyed := v.toNat % 2 ^ 16 = 0xCA57 ∧ v.getLsbD 16 = true ∧ hostOpen s = true
    (keyed → exec (.warmReset v) s = .next (warmTrigger 1 s)) ∧ (¬ keyed → exec (.warmReset v) s = .next s) ∧
    exec .warmN s = .next (warmTrigger 2 s) ∧ exec .hmfWatchdogExpiry s = .next (warmTrigger 3 s) ∧
    (s.rst.deferred = none ∨ 4 ≤ s.power.shed → exec .deferredWarmResetStart s = .next s) ∧
    (∀ src, s.rst.deferred = some src → s.power.shed < 4 → exec .deferredWarmResetStart s = .next (warmStart src s)) ∧
    (∀ src,
      (s.co.ready = false ∨ s.rst.inProgress = true ∨ s.rst.deferred.isSome = true → warmTrigger src s = s) ∧
      (s.co.ready = true → s.rst.inProgress = false → s.rst.deferred = none →
        (4 ≤ s.power.shed → warmTrigger src s = { s with rst := { s.rst with deferred := some src } }) ∧
        (s.power.shed < 4 → warmTrigger src s = warmStart src s)))) ∧
  (∀ (s : State) (src : Nat), clean s → s.power.shed < 4 →
    let t := warmStart src s
    started 3 true t ∧ kept s t ∧ t.rst.inProgress = true ∧ t.rst.lastKind = 3 ∧ t.rst.warmSource = src ∧ t.rst.step = 7 ∧
    t.rst.warmCount = satAdd 16 s.rst.warmCount 1 ∧ t.cores = [] ∧ t.clusters = [] ∧ t.launches = [] ∧ t.txns = [] ∧
    ∀ c (k : Ctx), s.ctx c = some k → ∃ k', t.ctx c = some k' ∧ k'.cause ≠ 0) ∧
  (∀ (s : State) (src : Nat), (∃ c ∈ s.changes, c.txn ≠ 0) → (∀ c ∈ s.changes, c.txn ≠ 0) → s.insts = [] → s.ctxs = [] → s.rep.running = none →
    s.sec.drains = [] → let t := warmStart src s
    t.rst.step = 2 ∧ t.rst.inProgress = true ∧ t.changes = s.changes ∧ t.co.ready = false ∧ t.cores = s.cores) ∧
  (∀ s : State,
    (s.rst.halted = false ∨ 3 < s.power.shed → exec .warmResetResume s = .next s) ∧
    (s.rst.halted = true → s.power.shed ≤ 3 → s.rst.step = 5 → Completes .warmResetResume s fun t =>
      started 3 true t ∧ t.rst.step = 7 ∧ t.rst.halted = false ∧ t.cores = []) ∧
    (s.rst.step ≠ 3 → exec (.drainTimeout none) s = .next s) ∧
    (s.rst.step = 3 → s.rst.inProgress = true → clean s → s.parts = [] → s.power.shed < 5 → Completes (.drainTimeout none) s fun t =>
      started 3 true t ∧ kept s t ∧ t.rst.step = 7)) ∧
  (∀ (s : State) (p : Fin 8) (x : Part),
    ((s.part p.val).resetting = none → exec (.drainTimeout (some p)) s = .next s) ∧
    (s.parts = [(p.val, x)] → x.resetting.isSome = true → clean s → s.launches = [] → Completes (.drainTimeout (some p)) s fun t =>
      (t.part p.val).resetting = none ∧ (t.part p.val).resets = satAdd 16 x.resets 1 ∧ kept s t)) ∧
  (∀ (s : State) (n : Fin 4),
    ((s.site n.val).resetting = none → (s.site n.val).withdraws = [] → exec (.recallTimeout n) s = .next s) ∧
    ((s.site n.val).resetting.isSome = true → s.lines = [] → (s.site n.val).toRecall = [] → s.net = [] → s.rst.step = 0 → Completes (.recallTimeout n) s fun t =>
      (t.site n.val).resetting = none))

/-- The stages of cast-on, their failures and halts, and TIME_SAMPLE. The end of a stage starts the next; nothing
happens while cast-on is not running, is halted, or a site is still being admitted at CO7. A failure of CO0 to CO4 or
CO6 stops cast-on with its code; CO2 stops SCRAPPED and LOCKED units with 0x0202; CO1 takes the active bank if it
verifies and its SVN is not below the fuses, else the other, else fails with 0x0101; CO4 sets tier A's capacity; CO5
goes on without tiers B and C whose rate is not one of theirs; CO9 makes the top 16 granules of tier A the hub region
at a cold cast-on and fails without them; then CO10 sets READY. At L4 or deeper it halts after its stage and resumes
at L3 or shallower. TIME_SAMPLE refuses more than 64, unknown or repeated domains and else replies every count, where
another domain's may be one less. Completion (exec answers a next state) is the conclusion for castOnStageEnd,
castOnResume and timeSample. -/
def Obligations.CastOnRunsItsStages : Prop :=
  (∀ (s : State) (o : StageObs),
    let c := Instr.castOnStageEnd o
    let low := s.power.shed < 4
    let stops (code : Nat) : Prop := Completes c s fun t => t.co.failed = true ∧ t.co.running = false ∧ t.co.failCode = code ∧
      t.co.stage = s.co.stage ∧ t.co.ready = s.co.ready
    let goes (n : Nat) (t : State) : Prop := t.co.stage = n ∧ t.co.running = true ∧ t.co.halted = false ∧ t.co.failed = s.co.failed
    (s.co.running = false ∨ s.co.halted = true ∨ (s.co.stage = 7 ∧ admitting s = true) → exec c s = .next s) ∧
    (s.co.running = true → s.co.halted = false →
      (∀ n code, (n, code) ∈ [(0, 1), (0, 2), (1, 0x102), (2, 0x201), (2, 0x203), (3, 0x301), (4, 0x401), (6, 0x602), (6, 0x603)] →
        s.co.stage = n → o.failCode = some (BitVec.ofNat 16 code) → stops code) ∧
      (4 ≤ s.power.shed → o.failCode = none → s.co.stage = 0 ∨ s.co.stage = 3 ∨ s.co.stage = 5 → Completes c s fun t =>
        t.co.stage = s.co.stage ∧ t.co.halted = true ∧ t.co.running = true) ∧
      (s.co.stage = 0 → o.failCode = none → low → Completes c s fun t => goes 1 t ∧
        ∀ d, 1 ≤ d ∧ d ≤ 3 ∨ 0x10 ≤ d ∧ d < 0x18 →
          t.clock d = { count := if (s.clock d).started then s.count d else 0, started := true, running := true }) ∧
      (s.co.stage = 1 → o.failCode = none →
        let a := if s.flash.swap then 1 - s.flash.active else s.flash.active
        let good (i : Nat) : Prop := (if i = 0 then o.bankA else o.bankB) = true ∧ s.fuse.svn ≤ ((kget i s.flash.banks).getD {}).svn
        (low → good a → Completes c s fun t => goes 2 t ∧ t.flash.active = a ∧ t.flash.swap = false) ∧
        (low → ¬ good a → good (1 - a) → Completes c s fun t => goes 2 t ∧ t.flash.active = 1 - a ∧ t.flash.swap = false) ∧
        (¬ good a → ¬ good (1 - a) → stops 0x101)) ∧
      (s.co.stage = 2 → o.failCode = none → low → s.co.failed = false → Completes c s fun t =>
        (t.sec.lc = 4 ∨ t.sec.lc = 7 → t.co.failed = true ∧ t.co.failCode = 0x202 ∧ t.co.running = false) ∧
        (t.sec.lc ≠ 4 → t.sec.lc ≠ 7 → goes 3 t)) ∧
      (s.co.stage = 3 → o.failCode = none → low → Completes c s fun t => goes 4 t ∧
        t.rep.records = s.rep.records ++ (o.found.filter fun f => f.kind == 6).map fun f =>
          { kind := 6, source := 1, unit := f.unit.toNat, index := f.index.toNat, seconds := s.opSeconds }) ∧
      (s.co.stage = 4 → o.failCode = none →
        (o.capacity.length < 16 → stops 0x401) ∧
        (∀ cap : BitVec 32, low → cap ≠ 0 → o.capacity = List.replicate 16 cap → Completes c s fun t => goes 5 t ∧
          t.granA = cap.toNat * 16000000 / 0x200000 ∧ ∀ x, x < 16 → (t.ctl x).present = true ∧ (t.clock (0x20 + x)).running = true)) ∧
      (s.co.stage = 5 → low → o.rates = [] → Completes c s fun t => goes 6 t ∧ t.granB = 0 ∧ t.granC = 0 ∧
        ∀ x, 16 ≤ x → x < 40 → (t.ctl x).present = false) ∧
      (s.co.stage = 6 → low → o.failCode = none → o.found = [] → s.rep.due = [] → s.rep.records = [] → Completes c s fun t => goes 7 t) ∧
      (s.co.stage = 7 → low → admitting s = false → Completes c s fun t => goes 8 t) ∧
      (s.co.stage = 8 → low → Completes c s fun t => goes 9 t ∧ ∀ p, p < 4 → (t.clock (0x60 + p)).running = true) ∧
      (s.co.stage = 9 → s.granA < 16 → stops 0x901) ∧
      (s.co.stage = 9 → low → 16 ≤ s.granA → Completes c s fun t => t.co.stage = 10 ∧ t.co.ready = true ∧ t.co.running = false ∧
        t.rst.inProgress = false ∧ (s.co.warm = true → t.pot = s.pot) ∧
        (s.co.warm = false → t.ctxs = [] ∧ t.queues = [] ∧ ∀ i, i < 16 →
          kget (s.granA - 16 + i) t.pot = some { hub := true, needsScrub := true }))) ∧
    (s.co.running = false ∨ s.co.halted = false ∨ 3 < s.power.shed → exec .castOnResume s = .next s) ∧
    (s.co.running = true → s.co.halted = true → s.power.shed ≤ 3 → s.co.stage ≠ 6 → s.co.stage ≠ 9 → exec .castOnResume s =
      .next { s with co := { s.co with stage := s.co.stage + 1, halted := false, start := s.aon } }) ∧
    (s.co.running = true → s.co.halted = true → s.power.shed ≤ 3 → s.co.stage = 9 → Completes .castOnResume s fun t =>
      t.co.stage = 10 ∧ t.co.ready = true ∧ t.co.running = false)) ∧
  (∀ (s : State) (p : Pkt) (l : List (BitVec 8)), ServedHub p s → p.paramLen.toNat = 8 + l.length →
    let c := Instr.timeSample p l
    let no (err : Nat) : Prop := Replies c p 2 { status := stBadParam, err } s s
    (64 < l.length → no 32) ∧
    (∀ i d, l.length ≤ 64 → l[i]? = some d → domainOk d.toNat = false → (∀ j e, j < i → l[j]? = some e → domainOk e.toNat = true) → no (40 + i)) ∧
    (l.length ≤ 64 → (∀ d ∈ l, domainOk d.toNat = true) → ¬ l.Nodup → no 40) ∧
    (l.length ≤ 64 → (∀ d ∈ l, domainOk d.toNat = true) → l.Nodup → Completes c s fun t => ∃ w : Nat,
      t = reply p 2 { len := 32 + 16 * l.length, data := w } { s with free := s.free + 1 + l.length } ∧
      (w % 2 ^ 64 = s.count 0 % 2 ^ 64 ∨ w % 2 ^ 64 = (s.count 0 - 1) % 2 ^ 64) ∧ w / 2 ^ 64 % 2 ^ 64 = s.count 1 % 2 ^ 64 ∧
      w / 2 ^ 128 % 2 ^ 128 = l.length ∧
      ∀ i d, l[i]? = some d →
        let e := w / 2 ^ (256 + 128 * i) % 2 ^ 128
        let k := s.clock d.toNat
        e % 256 = d.toNat ∧ e / 256 % 2 ^ 56 = (if k.started then (if k.running then 0 else 1) else 2) ∧
        (k.started = false → e / 2 ^ 64 = 0) ∧ (k.started = true → k.running = false → e / 2 ^ 64 = k.count % 2 ^ 64) ∧
        (k.started = true → k.running = true → e / 2 ^ 64 = k.count % 2 ^ 64 ∨ (d ≠ 1 ∧ e / 2 ^ 64 = (k.count - 1) % 2 ^ 64))))
end

