-- ==== Sys2Proof/Laws/Memory.lean ====
section
/-!
SUPPORT. Laws of the sparse tables and the byte memories: what a read finds after a write, and that every operation keeps
the canonical form.
-/
namespace Sys2Proof.Machine

/-! ### Sparse tables -/

@[simp] theorem kget_kset_self {α : Type} (k : Nat) (v : α) (m : KV α) : kget k (kset k v m) = some v := by
  induction m with
  | nil => simp [kset, kget]
  | cons e t ih =>
    obtain ⟨j, w⟩ := e
    simp only [kset]
    split
    · simp [kget]
    · split
      · simp [kget]
      · simp only [kget]; simp_all

@[simp] theorem kget_kset_ne {α : Type} {k i : Nat} (v : α) (m : KV α) (h : i ≠ k) :
    kget i (kset k v m) = kget i m := by
  induction m with
  | nil => simp [kset, kget, Ne.symm h]
  | cons e t ih =>
    obtain ⟨j, w⟩ := e
    simp only [kset]
    split
    · subst j; simp [kget, Ne.symm h]
    · split
      · simp only [kget, Ne.symm h, if_false]
      · simp only [kget, ih]

@[simp] theorem kget_kdel_self {α : Type} (k : Nat) (m : KV α) : kget k (kdel k m) = none := by
  induction m with
  | nil => rfl
  | cons e t ih =>
    simp only [kdel]
    split
    · exact ih
    · rename_i h; simp only [kget, h, if_false, ih]

@[simp] theorem kget_kdel_ne {α : Type} {k i : Nat} (m : KV α) (h : i ≠ k) : kget i (kdel k m) = kget i m := by
  induction m with
  | nil => rfl
  | cons e t ih =>
    simp only [kdel]
    split
    · rename_i he
      have hn : e.1 ≠ i := by omega
      simp only [kget, hn, if_false, ih]
    · simp only [kget, ih]

/-- Every key of the table is above k. -/
def above {α : Type} (k : Nat) (m : KV α) : Prop := ∀ e ∈ m, k < e.1

theorem kwf_cons {α : Type} (e : Nat × α) (t : KV α) : kwf (e :: t) = true ↔ above e.1 t ∧ kwf t = true := by
  induction t generalizing e with
  | nil => simp [kwf, above]
  | cons f t ih =>
    have hf := ih f
    simp only [kwf, Bool.and_eq_true, decide_eq_true_eq]
    constructor
    · rintro ⟨h1, h2⟩
      refine ⟨?_, h2⟩
      intro g hg
      rcases List.mem_cons.1 hg with rfl | hg
      · exact h1
      · exact Nat.lt_trans h1 ((hf.1 h2).1 g hg)
    · rintro ⟨h1, h2⟩
      exact ⟨h1 f (List.mem_cons_self ..), h2⟩

theorem mem_kset {α : Type} {k : Nat} {v : α} {m : KV α} {e : Nat × α} (h : e ∈ kset k v m) : e = (k, v) ∨ e ∈ m := by
  induction m with
  | nil => simpa [kset] using h
  | cons f t ih =>
    simp only [kset] at h
    split at h
    · rcases List.mem_cons.1 h with h | h
      · exact .inl h
      · exact .inr (List.mem_cons_of_mem _ h)
    · split at h
      · rcases List.mem_cons.1 h with h | h
        · exact .inl h
        · exact .inr h
      · rcases List.mem_cons.1 h with h | h
        · exact .inr (h ▸ List.mem_cons_self ..)
        · exact (ih h).imp id (List.mem_cons_of_mem _)

theorem mem_kdel {α : Type} {k : Nat} {m : KV α} {e : Nat × α} (h : e ∈ kdel k m) : e ∈ m := by
  induction m with
  | nil => simp [kdel] at h
  | cons f t ih =>
    simp only [kdel] at h
    split at h
    · exact List.mem_cons_of_mem _ (ih h)
    · rcases List.mem_cons.1 h with h | h
      · exact h ▸ List.mem_cons_self ..
      · exact List.mem_cons_of_mem _ (ih h)

theorem kwf_kset {α : Type} (k : Nat) (v : α) {m : KV α} (h : kwf m = true) : kwf (kset k v m) = true := by
  induction m with
  | nil => rfl
  | cons f t ih =>
    have ⟨h1, h2⟩ := (kwf_cons f t).1 h
    simp only [kset]
    split
    · rename_i e; exact (kwf_cons _ _).2 ⟨e ▸ h1, h2⟩
    · split
      · rename_i n e
        refine (kwf_cons _ _).2 ⟨fun g hg => ?_, h⟩
        rcases List.mem_cons.1 hg with rfl | hg
        · exact e
        · exact Nat.lt_trans e (h1 g hg)
      · rename_i n e
        refine (kwf_cons _ _).2 ⟨fun g hg => ?_, ih h2⟩
        rcases mem_kset hg with rfl | hg
        · show f.1 < k; omega
        · exact h1 g hg

theorem kwf_kdel {α : Type} (k : Nat) {m : KV α} (h : kwf m = true) : kwf (kdel k m) = true := by
  induction m with
  | nil => rfl
  | cons f t ih =>
    have ⟨h1, h2⟩ := (kwf_cons f t).1 h
    simp only [kdel]
    split
    · exact ih h2
    · exact (kwf_cons _ _).2 ⟨fun g hg => h1 g (mem_kdel hg), ih h2⟩

theorem kwf_filter {α : Type} (q : Nat × α → Bool) {m : KV α} (h : kwf m = true) : kwf (m.filter q) = true := by
  induction m with
  | nil => rfl
  | cons f t ih =>
    have ⟨h1, h2⟩ := (kwf_cons f t).1 h
    rw [List.filter_cons]
    split
    · exact (kwf_cons _ _).2 ⟨fun g hg => h1 g ((List.mem_filter.1 hg).1), ih h2⟩
    · exact ih h2

/-! ### Byte memories -/

theorem wf_iff (m : Mem) : Memory.wf m = true ↔ kwf m = true ∧ ∀ c ∈ m, c.2 ≠ memDefault := by
  simp [Memory.wf]

theorem wf_nil : Memory.wf [] = true := rfl

theorem wf_mset {m : Mem} (a : Nat) (b : Byte) (h : Memory.wf m = true) : Memory.wf (mset m a b) = true := by
  have ⟨h1, h2⟩ := (wf_iff m).1 h
  unfold mset
  split
  · exact (wf_iff _).2 ⟨kwf_kdel a h1, fun c hc => h2 c (mem_kdel hc)⟩
  · rename_i hb
    refine (wf_iff _).2 ⟨kwf_kset a b h1, fun c hc => ?_⟩
    rcases mem_kset hc with rfl | hc
    · exact hb
    · exact h2 c hc

theorem wf_mwrite {m : Mem} (a n v : Nat) (h : Memory.wf m = true) : Memory.wf (mwrite m a n v) = true := by
  induction n generalizing m a v with
  | zero => exact h
  | succ n ih => exact ih _ _ (wf_mset _ _ h)

theorem wf_mwriteMask {m : Mem} (a n mask v : Nat) (h : Memory.wf m = true) :
    Memory.wf (mwriteMask m a n mask v) = true := by
  induction n generalizing m a mask v with
  | zero => exact h
  | succ n ih =>
    refine ih _ _ _ ?_
    split
    · exact wf_mset _ _ h
    · exact h

theorem wf_filter {m : Mem} (q : Nat × Byte → Bool) (h : Memory.wf m = true) : Memory.wf (m.filter q) = true := by
  have ⟨h1, h2⟩ := (wf_iff m).1 h
  exact (wf_iff _).2 ⟨kwf_filter q h1, fun c hc => h2 c ((List.mem_filter.1 hc).1)⟩

theorem wf_mdrop {m : Mem} (a n : Nat) (h : Memory.wf m = true) : Memory.wf (mdrop m a n) = true := wf_filter _ h

theorem wf_foldl_mset {α : Type} (l : List α) (f : α → Nat) (g : α → Byte) {m : Mem} (h : Memory.wf m = true) :
    Memory.wf (l.foldl (fun t c => mset t (f c) (g c)) m) = true := by
  induction l generalizing m with
  | nil => exact h
  | cons c l ih => exact ih (wf_mset _ _ h)

/-- Read after write: the written byte. -/
@[simp] theorem mget_mset_self (m : Mem) (a : Nat) (b : Byte) : mget (mset m a b) a = b := by
  unfold mset mget
  split
  · rename_i hb; rw [kget_kdel_self, hb]; rfl
  · rw [kget_kset_self]; rfl

/-- A write leaves every other byte alone. -/
theorem mget_mset_ne (m : Mem) {a i : Nat} (b : Byte) (hi : i ≠ a) : mget (mset m a b) i = mget m i := by
  unfold mset mget
  split
  · rw [kget_kdel_ne m hi]
  · rw [kget_kset_ne b m hi]

/-- A write of n bytes leaves every byte outside its range alone. -/
theorem mget_mwrite_out (m : Mem) {a n v i : Nat} (hi : i < a ∨ a + n ≤ i) : mget (mwrite m a n v) i = mget m i := by
  induction n generalizing m a v with
  | zero => rfl
  | succ n ih => rw [mwrite, ih _ (by omega), mget_mset_ne _ _ (by omega)]

/-- What a read of the written range finds: the low bytes of the value. -/
theorem mread_mwrite (m : Mem) (a n v : Nat) : mread (mwrite m a n v) a n = v % 256 ^ n := by
  induction n generalizing m a v with
  | zero => simp [mread, Nat.mod_one]
  | succ n ih =>
    rw [mread, mwrite, ih, mget_mwrite_out _ (by omega), mget_mset_self, BitVec.toNat_ofNat]
    have e : 256 ^ (n + 1) = 256 * 256 ^ n := by rw [Nat.pow_succ, Nat.mul_comm]
    rw [e, Nat.mod_mul]

/-- A masked write leaves every byte outside its range alone. -/
theorem mget_mwriteMask_out (m : Mem) {a n mask v i : Nat} (hi : i < a ∨ a + n ≤ i) :
    mget (mwriteMask m a n mask v) i = mget m i := by
  induction n generalizing m a mask v with
  | zero => rfl
  | succ n ih =>
    rw [mwriteMask, ih _ (by omega)]
    split
    · exact mget_mset_ne _ _ (by omega)
    · rfl

end Sys2Proof.Machine
end

