-- ==== Sys2Proof/Laws/Keeps.lean ====
section
/-!
SUPPORT. What every command keeps, said once as a relation between a state and a later one: fuses go one way, tier memory
stays canonical, the queue of waiting commands is not touched, and operating time does not fall. The files KeepsBase to
KeepsExec show it of every operation of the machine and of every command.
-/
namespace Sys2Proof
open Machine

theorem FuseLater.refl (f : Fuse) : FuseLater f f :=
  ⟨rfl, rfl, rfl, rfl, rfl, rfl, fun _ => rfl, Nat.le_refl _, BitVec.and_self, BitVec.and_self⟩

theorem and_chain {w : Nat} {a b c : BitVec w} (h1 : a &&& b = a) (h2 : b &&& c = b) : a &&& c = a := by
  rw [← h1, BitVec.and_assoc, h2]

theorem and_or_keep {w : Nat} {a b : BitVec w} (c : BitVec w) (h : a &&& b = a) : a &&& (b ||| c) = a := by
  apply BitVec.eq_of_getLsbD_eq
  intro i hi
  have := congrArg (fun v : BitVec w => v.getLsbD i) h
  simp at this ⊢
  intro ha
  exact .inl (this ha)

theorem FuseLater.trans {f g k : Fuse} (a : FuseLater f g) (b : FuseLater g k) : FuseLater f k where
  variant := b.variant.trans a.variant
  stepping := b.stepping.trans a.stepping
  serial := b.serial.trans a.serial
  dus := b.dus.trans a.dus
  makerRoot := b.makerRoot.trans a.makerRoot
  thresh := b.thresh.trans a.thresh
  profile h := by
    have e := a.profile h
    rw [b.profile (by rw [e]; exact h), e]
  svn := Nat.le_trans a.svn b.svn
  lc := and_chain a.lc b.lc
  ownerRoot := and_chain a.ownerRoot b.ownerRoot

end Sys2Proof

namespace Sys2Proof.Machine

/-- t is a later state of the unit than s, within one command. -/
structure Keeps (s t : State) : Prop where
  fuse : FuseLater s.fuse t.fuse
  mem : Memory.wf s.mem = true → Memory.wf t.mem = true
  queue : t.pending = s.pending
  time : s.opSeconds ≤ t.opSeconds

/-- A command is answered by a next state, which keeps. -/
structure KeepsX (s : State) (o : Host.Outcome State Fault Refusal) : Prop where
  out : ∃ t, o = .next t ∧ Keeps s t
/-- Keeps for an operation that may answer no state. -/
structure KeepsO {α : Type} (s : State) (o : Option (α × State)) : Prop where
  out : ∀ v t, o = some (v, t) → Keeps s t
/-- The same without a value. -/
structure KeepsN (s : State) (o : Option State) : Prop where
  out : ∀ t, o = some t → Keeps s t
/-- Keeps for an operation that answers a state or an error. -/
structure KeepsE {ε : Type} (s : State) (o : Except ε State) : Prop where
  out : ∀ t, o = .ok t → Keeps s t
/-- Keeps for an operation that answers a value and a state, or an error. -/
structure KeepsV {ε α : Type} (s : State) (o : Except ε (α × State)) : Prop where
  out : ∀ v t, o = .ok (v, t) → Keeps s t

variable {s0 s t : State}

theorem Keeps.refl (s : State) : Keeps s s := ⟨.refl _, id, rfl, Nat.le_refl _⟩

theorem Keeps.trans (h : Keeps s0 s) (k : Keeps s t) : Keeps s0 t :=
  ⟨h.fuse.trans k.fuse, fun m => k.mem (h.mem m), k.queue.trans h.queue, Nat.le_trans h.time k.time⟩

/-- A state that agrees with a later one on the four fields is as late. -/
theorem Keeps.same (hf : t.fuse = s.fuse) (hm : t.mem = s.mem) (hq : t.pending = s.pending)
    (ho : t.opSeconds = s.opSeconds) (h : Keeps s0 s) : Keeps s0 t :=
  ⟨hf ▸ h.fuse, hm ▸ h.mem, hq ▸ h.queue, ho ▸ h.time⟩

/-- A literal whose four fields are those of a later state. -/
theorem Keeps.lit
    {regs} {flash} {sec} {clocks} {rst} {co} {power} {parts} {sites} {siteRecs} {slPorts} {slConf} {winOut}
    {winIn} {port} {cores} {fuseSeg} {rep} {clusters} {lines} {net} {ans} {asked} {reqTxn} {posted} {msc}
    {sealed} {resetDue} {offMore} {heldSnp} {media} {corr} {heat} {heatVal} {ctls} {miss} {moves} {autos}
    {keys} {secIntegrity} {secAuth} {secLast} {traffic} {snpTxn} {useStamp} {pot} {pool} {moved} {granA}
    {granB} {granC} {offline} {offOverflow} {ctxs} {allocs} {shoots} {changes} {halted} {drops} {queues}
    {fences} {fenceBlocks} {launches} {resv} {served} {insts} {evt} {frings} {cmd} {accepted} {mbx} {txns}
    {nextTxn} {cfgGen} {gens} {lastCommit} {flashJournal} {journal} {txnConflicts} {txnAborts} {out} {free}
    (h : Keeps s0 s) : Keeps s0 {
      regs, fuse := s.fuse, flash, sec, clocks, rst, co, power, parts, sites, siteRecs, slPorts, slConf,
      winOut, winIn, port, cores, fuseSeg, rep, clusters, lines, net, ans, asked, reqTxn, posted, msc,
      sealed, resetDue, offMore, heldSnp, media, corr, heat, heatVal, ctls, miss, moves, autos, keys,
      secIntegrity, secAuth, secLast, traffic, snpTxn, useStamp, mem := s.mem, pot, pool, moved, granA,
      granB, granC, offline, offOverflow, opSeconds := s.opSeconds, ctxs, allocs, shoots, changes, halted,
      drops, queues, fences, fenceBlocks, launches, resv, served, insts, evt, frings, cmd, accepted, mbx,
      txns, nextTxn, cfgGen, gens, lastCommit, flashJournal, journal, txnConflicts, txnAborts, out, free,
      pending := s.pending } :=
  Keeps.same (s := s) rfl rfl rfl rfl h

/-- The same with a range of tier memory dropped. -/
theorem Keeps.litDrop {a n : Nat}
    {regs} {flash} {sec} {clocks} {rst} {co} {power} {parts} {sites} {siteRecs} {slPorts} {slConf} {winOut}
    {winIn} {port} {cores} {fuseSeg} {rep} {clusters} {lines} {net} {ans} {asked} {reqTxn} {posted} {msc}
    {sealed} {resetDue} {offMore} {heldSnp} {media} {corr} {heat} {heatVal} {ctls} {miss} {moves} {autos}
    {keys} {secIntegrity} {secAuth} {secLast} {traffic} {snpTxn} {useStamp} {pot} {pool} {moved} {granA}
    {granB} {granC} {offline} {offOverflow} {ctxs} {allocs} {shoots} {changes} {halted} {drops} {queues}
    {fences} {fenceBlocks} {launches} {resv} {served} {insts} {evt} {frings} {cmd} {accepted} {mbx} {txns}
    {nextTxn} {cfgGen} {gens} {lastCommit} {flashJournal} {journal} {txnConflicts} {txnAborts} {out} {free}
    (h : Keeps s0 s) : Keeps s0 {
      regs, fuse := s.fuse, flash, sec, clocks, rst, co, power, parts, sites, siteRecs, slPorts, slConf,
      winOut, winIn, port, cores, fuseSeg, rep, clusters, lines, net, ans, asked, reqTxn, posted, msc,
      sealed, resetDue, offMore, heldSnp, media, corr, heat, heatVal, ctls, miss, moves, autos, keys,
      secIntegrity, secAuth, secLast, traffic, snpTxn, useStamp, mem := mdrop s.mem a n, pot, pool, moved,
      granA, granB, granC, offline, offOverflow, opSeconds := s.opSeconds, ctxs, allocs, shoots, changes,
      halted, drops, queues, fences, fenceBlocks, launches, resv, served, insts, evt, frings, cmd, accepted,
      mbx, txns, nextTxn, cfgGen, gens, lastCommit, flashJournal, journal, txnConflicts, txnAborts, out,
      free, pending := s.pending } :=
  Keeps.same (s := { s with mem := mdrop s.mem a n }) rfl rfl rfl rfl
    ⟨h.fuse, fun w => wf_mdrop _ _ (h.mem w), h.queue, h.time⟩

theorem Keeps.snd {α : Type} {p : α × State} {v : α} (e : p = (v, t)) (h : Keeps s0 p.2) : Keeps s0 t := by
  subst e; exact h
theorem Keeps.snd2 {α β : Type} {p : α × β × State} {v : α} {w : β} (e : p = (v, w, t)) (h : Keeps s0 p.2.2) :
    Keeps s0 t := by
  subst e; exact h
theorem Keeps.opt {α : Type} {p : Option (α × State)} {v : α} (e : p = some (v, t)) (h : KeepsO s0 p) : Keeps s0 t :=
  h.out v t e
theorem Keeps.optN {p : Option State} (e : p = some t) (h : KeepsN s0 p) : Keeps s0 t := h.out t e
theorem Keeps.exc {ε : Type} {p : Except ε State} (e : p = .ok t) (h : KeepsE s0 p) : Keeps s0 t :=
  h.out t e
theorem Keeps.val {ε α : Type} {p : Except ε (α × State)} {v : α} (e : p = .ok (v, t)) (h : KeepsV s0 p) :
    Keeps s0 t := h.out v t e

theorem Keeps.prj {α : Type} {p q : α × State} (e : p = q) (h : Keeps s0 p.2) : Keeps s0 q.2 := e ▸ h

/-- The proof of a local operation, for the states after it. -/
theorem Keeps.cutF {P : Prop} {α : Type} {f : State → α × State} (h : ∀ s, Keeps s0 s → Keeps s0 (f s).2)
    (k : (∀ s, Keeps s0 s → Keeps s0 (f s).2) → P) : P := k h
theorem Keeps.cutS {P : Prop} {f : State → State} (h : ∀ s, Keeps s0 s → Keeps s0 (f s))
    (k : (∀ s, Keeps s0 s → Keeps s0 (f s)) → P) : P := k h

theorem Keeps.cutS1 {P : Prop} {α : Sort _} {f : α → State → State} (h : ∀ a s, Keeps s0 s → Keeps s0 (f a s))
    (k : (∀ a s, Keeps s0 s → Keeps s0 (f a s)) → P) : P := k h
theorem Keeps.cutS2 {P : Prop} {α β : Sort _} {f : α → β → State → State}
    (h : ∀ a b s, Keeps s0 s → Keeps s0 (f a b s)) (k : (∀ a b s, Keeps s0 s → Keeps s0 (f a b s)) → P) : P := k h

theorem Keeps.cutP1 {P : Prop} {α β : Type} {f : α → State → β × State} (h : ∀ a s, Keeps s0 s → Keeps s0 (f a s).2)
    (k : (∀ a s, Keeps s0 s → Keeps s0 (f a s).2) → P) : P := k h

theorem Keeps.cutW {P : Prop} {α β γ : Type} {f : α → State → State → β × γ × State}
    (h : ∀ a r s, Keeps s0 r → Keeps s0 s → Keeps s0 (f a r s).2.2)
    (k : (∀ a r s, Keeps s0 r → Keeps s0 s → Keeps s0 (f a r s).2.2) → P) : P := k h

/-- The proof of a named intermediate state, for the states after it. -/
theorem Keeps.cut {P : Prop} (h : Keeps s0 t) (k : Keeps s0 t → P) : P := k h

theorem KeepsX.next (h : Keeps s0 t) : KeepsX s0 (.next t) := ⟨t, rfl, h⟩
theorem KeepsO.some {α : Type} {p : α × State} (h : Keeps s0 p.2) : KeepsO s0 (some p) := ⟨by rintro v t ⟨⟩; exact h⟩
theorem KeepsO.none {α : Type} : KeepsO (α := α) s0 none := ⟨fun _ _ e => nomatch e⟩
theorem KeepsN.some (h : Keeps s0 t) : KeepsN s0 (some t) := ⟨by rintro _ ⟨⟩; exact h⟩
theorem KeepsN.none : KeepsN s0 none := ⟨fun _ e => nomatch e⟩
theorem KeepsE.ok {ε : Type} (h : Keeps s0 t) : KeepsE (ε := ε) s0 (.ok t) := ⟨by rintro _ ⟨⟩; exact h⟩
theorem KeepsE.error {ε : Type} {e : ε} : KeepsE s0 (.error e) := ⟨fun _ e => nomatch e⟩
theorem KeepsV.ok {ε α : Type} {p : α × State} (h : Keeps s0 p.2) : KeepsV (ε := ε) s0 (.ok p) := ⟨by rintro v t ⟨⟩; exact h⟩
theorem KeepsV.error {ε α : Type} {e : ε} : KeepsV (α := α) s0 (.error e) := ⟨fun _ _ e => nomatch e⟩

theorem Keeps.withMem {m : Mem} (h : Keeps s0 s) (hm : Memory.wf s.mem = true → Memory.wf m = true) :
    Keeps s0 { s with mem := m } := ⟨h.fuse, fun w => hm (h.mem w), h.queue, h.time⟩
theorem Keeps.withFuse {f : Fuse} (h : Keeps s0 s) (hf : FuseLater s.fuse f) : Keeps s0 { s with fuse := f } :=
  ⟨h.fuse.trans hf, h.mem, h.queue, h.time⟩
/-- Operating time read from an event only moves forward. -/
theorem Keeps.later {n : Nat} (h : Keeps s0 s) : Keeps s0 { s with opSeconds := max s.opSeconds n } :=
  ⟨h.fuse, h.mem, h.queue, Nat.le_trans h.time (Nat.le_max_left ..)⟩

/-- A fold of an operation that keeps. -/
theorem foldl_keeps {α : Type} {l : List α} {f : State → α → State} (hf : ∀ s a, Keeps s0 s → Keeps s0 (f s a))
    (h : Keeps s0 s) : Keeps s0 (l.foldl f s) := by
  induction l generalizing s with
  | nil => exact h
  | cons a l ih => exact ih (hf s a h)

/-- A fold of an operation that keeps, with a value beside the state. -/
theorem foldl_keeps_snd {α β : Type} {l : List α} {f : β × State → α → β × State} {p : β × State}
    (hf : ∀ p a, Keeps s0 p.2 → Keeps s0 (f p a).2) (h : Keeps s0 p.2) : Keeps s0 (l.foldl f p).2 := by
  induction l generalizing p with
  | nil => exact h
  | cons a l ih => exact ih (hf p a h)

end Sys2Proof.Machine
end

