-- ==== Sys2Proof/Laws/KeepsBase.lean ====
section
/-!
SUPPORT. Keeps for the shared operations.
-/
set_option linter.all false

namespace Sys2Proof.Machine

/-! ### Ops -/

theorem State.setCore_keeps {s0 : State} {s : State} {a1} {a2} (h : Keeps s0 s) :
    Keeps s0 (State.setCore s a1 a2) := by
  unfold State.setCore
  repeat' first
    | with_reducible assumption
    | (intro _)
    | (refine Keeps.prj (by with_reducible assumption) ?_)
    | with_reducible apply Keeps.lit

theorem State.setCluster_keeps {s0 : State} {s : State} {a1} {a2} (h : Keeps s0 s) :
    Keeps s0 (State.setCluster s a1 a2) := by
  unfold State.setCluster
  repeat' first
    | with_reducible assumption
    | (intro _)
    | (refine Keeps.prj (by with_reducible assumption) ?_)
    | with_reducible apply Keeps.lit

theorem State.setLine_keeps {s0 : State} {s : State} {a1} {a2} (h : Keeps s0 s) :
    Keeps s0 (State.setLine s a1 a2) := by
  unfold State.setLine
  repeat' first
    | with_reducible assumption
    | (intro _)
    | (refine Keeps.prj (by with_reducible assumption) ?_)
    | with_reducible apply Keeps.lit

theorem State.setGran_keeps {s0 : State} {s : State} {a1} {a2} (h : Keeps s0 s) :
    Keeps s0 (State.setGran s a1 a2) := by
  unfold State.setGran
  repeat' first
    | with_reducible assumption
    | (intro _)
    | (refine Keeps.prj (by with_reducible assumption) ?_)
    | with_reducible apply Keeps.lit

theorem State.setSite_keeps {s0 : State} {s : State} {a1} {a2} (h : Keeps s0 s) :
    Keeps s0 (State.setSite s a1 a2) := by
  unfold State.setSite
  repeat' first
    | with_reducible assumption
    | (intro _)
    | (refine Keeps.prj (by with_reducible assumption) ?_)
    | with_reducible apply Keeps.lit

theorem State.setPart_keeps {s0 : State} {s : State} {a1} {a2} (h : Keeps s0 s) :
    Keeps s0 (State.setPart s a1 a2) := by
  unfold State.setPart
  repeat' first
    | with_reducible assumption
    | (intro _)
    | (refine Keeps.prj (by with_reducible assumption) ?_)
    | with_reducible apply Keeps.lit

theorem State.setCtx_keeps {s0 : State} {s : State} {a1} {a2} (h : Keeps s0 s) :
    Keeps s0 (State.setCtx s a1 a2) := by
  unfold State.setCtx
  repeat' first
    | with_reducible assumption
    | (intro _)
    | (refine Keeps.prj (by with_reducible assumption) ?_)
    | with_reducible apply Keeps.lit

theorem State.setQueue_keeps {s0 : State} {s : State} {a1} {a2} (h : Keeps s0 s) :
    Keeps s0 (State.setQueue s a1 a2) := by
  unfold State.setQueue
  repeat' first
    | with_reducible assumption
    | (intro _)
    | (refine Keeps.prj (by with_reducible assumption) ?_)
    | with_reducible apply Keeps.lit

theorem State.setFence_keeps {s0 : State} {s : State} {a1} {a2} (h : Keeps s0 s) :
    Keeps s0 (State.setFence s a1 a2) := by
  unfold State.setFence
  repeat' first
    | with_reducible assumption
    | (intro _)
    | (refine Keeps.prj (by with_reducible assumption) ?_)
    | with_reducible apply Keeps.lit

theorem State.setRing_keeps {s0 : State} {s : State} {a1} {a2} (h : Keeps s0 s) :
    Keeps s0 (State.setRing s a1 a2) := by
  unfold State.setRing
  repeat' first
    | with_reducible assumption
    | (intro _)
    | (refine Keeps.prj (by with_reducible assumption) ?_)
    | with_reducible apply Keeps.lit

theorem State.setFring_keeps {s0 : State} {s : State} {a1} {a2} (h : Keeps s0 s) :
    Keeps s0 (State.setFring s a1 a2) := by
  unfold State.setFring
  repeat' first
    | with_reducible assumption
    | (intro _)
    | (refine Keeps.prj (by with_reducible assumption) ?_)
    | with_reducible apply Keeps.lit

theorem State.setCtl_keeps {s0 : State} {s : State} {a1} {a2} (h : Keeps s0 s) :
    Keeps s0 (State.setCtl s a1 a2) := by
  unfold State.setCtl
  repeat' first
    | with_reducible assumption
    | (intro _)
    | (refine Keeps.prj (by with_reducible assumption) ?_)
    | with_reducible apply Keeps.lit

theorem addDue_keeps {s0 : State} {a0} {s : State} (h : Keeps s0 s) :
    Keeps s0 (addDue a0 s) := by
  unfold addDue
  repeat' first
    | with_reducible assumption
    | (intro _)
    | (extract_lets +onlyGivenNames x; try clear_value x)
    | split
    | (refine Keeps.prj (by with_reducible assumption) ?_)
    | with_reducible apply Keeps.lit

theorem State.setReg_keeps {s0 : State} {s : State} {a1} {a2} (h : Keeps s0 s) :
    Keeps s0 (State.setReg s a1 a2) := by
  unfold State.setReg
  repeat' first
    | with_reducible assumption
    | (intro _)
    | (refine Keeps.prj (by with_reducible assumption) ?_)
    | with_reducible apply Keeps.lit

theorem emit_keeps {s0 : State} {a0} {s : State} (h : Keeps s0 s) :
    Keeps s0 (emit a0 s) := by
  unfold emit
  repeat' first
    | with_reducible assumption
    | (intro _)
    | (refine Keeps.prj (by with_reducible assumption) ?_)
    | with_reducible apply Keeps.lit

theorem State.bump_keeps {s0 : State} {s : State} (h : Keeps s0 s) :
    Keeps s0 (State.bump s) := by
  unfold State.bump
  repeat' first
    | with_reducible assumption
    | (intro _)
    | (refine Keeps.prj (by with_reducible assumption) ?_)
    | with_reducible apply Keeps.lit

theorem smbSet_keeps {s0 : State} {a0} {s : State} (h : Keeps s0 s) :
    Keeps s0 (smbSet a0 s) := by
  unfold smbSet
  repeat' first
    | with_reducible assumption
    | (intro _)
    | (extract_lets +onlyGivenNames x; try clear_value x)
    | (refine Keeps.prj (by with_reducible assumption) ?_)
    | with_reducible apply Keeps.lit

theorem State.extend_keeps {s0 : State} {s : State} {a1} {a2} {a3} (h : Keeps s0 s) :
    Keeps s0 (State.extend s a1 a2 a3) := by
  unfold State.extend
  repeat' first
    | with_reducible assumption
    | (intro _)
    | (extract_lets +onlyGivenNames x; try clear_value x)
    | (refine Keeps.prj (by with_reducible assumption) ?_)
    | with_reducible apply Keeps.lit

theorem foldS_keeps {α : Type} {s0 s : State} {l : List α} {f : α → State → State}
    (hf : ∀ a s, Keeps s0 s → Keeps s0 (f a s)) (h : Keeps s0 s) : Keeps s0 (foldS l f s) :=
  foldl_keeps (fun s a => hf a s) h

/-! ### Report -/

theorem portSend_keeps {s0 : State} {a0} {s : State} (h : Keeps s0 s) :
    Keeps s0 (portSend a0 s) := by
  unfold portSend
  repeat' first
    | with_reducible assumption
    | with_reducible apply emit_keeps
    | (intro _)
    | (extract_lets +onlyGivenNames x; try clear_value x)
    | split
    | (refine Keeps.prj (by with_reducible assumption) ?_)
    | with_reducible apply Keeps.lit

theorem intxEval_keeps {s0 : State} {s : State} (h : Keeps s0 s) :
    Keeps s0 (intxEval s) := by
  unfold intxEval
  repeat' first
    | with_reducible assumption
    | with_reducible apply emit_keeps
    | (intro _)
    | (extract_lets +onlyGivenNames x; try clear_value x)
    | split
    | (refine Keeps.prj (by with_reducible assumption) ?_)
    | with_reducible apply Keeps.lit

theorem evWrite_keeps {s0 : State} {a0} {a1} {s : State} (h : Keeps s0 s) :
    Keeps s0 (evWrite a0 a1 s) := by
  unfold evWrite
  repeat' first
    | with_reducible assumption
    | with_reducible apply portSend_keeps
    | with_reducible apply intxEval_keeps
    | with_reducible apply State.setRing_keeps
    | (intro _)
    | (extract_lets +onlyGivenNames x; refine Keeps.cut (s0 := s0) (t := x) ?_ (fun hx => ?_) <;> first | (replace hx : Keeps s0 x := hx; clear_value x) | (dsimp only [x]; clear x))
    | (extract_lets +onlyGivenNames x; try clear_value x)
    | (refine Keeps.prj (by with_reducible assumption) ?_)
    | with_reducible apply Keeps.lit

theorem evPut_keeps {s0 : State} {a0} {a1} {s : State} (h : Keeps s0 s) :
    Keeps s0 (evPut a0 a1 s) := by
  unfold evPut
  repeat' first
    | with_reducible assumption
    | with_reducible apply State.setRing_keeps
    | with_reducible apply evWrite_keeps
    | (intro _)
    | (extract_lets +onlyGivenNames x; try clear_value x)
    | split
    | (refine Keeps.prj (by with_reducible assumption) ?_)
    | with_reducible apply Keeps.lit

theorem evDrain_keeps {s0 : State} {a0} {a1} {s : State} (h : Keeps s0 s) :
    Keeps s0 (evDrain a0 a1 s) := by
  revert h
  fun_induction evDrain a0 a1 s
  all_goals intro h
  all_goals repeat' first
    | with_reducible assumption
    | with_reducible apply evWrite_keeps
    | with_reducible apply State.setRing_keeps
    | (refine (show Keeps s0 _ → _ by with_reducible assumption) ?_)
    | (intro _)
    | split
    | (refine Keeps.prj (by with_reducible assumption) ?_)
    | with_reducible apply Keeps.lit

theorem faultWrite_keeps {s0 : State} {a0} {a1} {a2} {s : State} (h : Keeps s0 s) :
    Keeps s0 (faultWrite a0 a1 a2 s) := by
  unfold faultWrite
  repeat' first
    | with_reducible assumption
    | with_reducible apply portSend_keeps
    | with_reducible apply State.setFring_keeps
    | (intro _)
    | (extract_lets +onlyGivenNames x; refine Keeps.cut (s0 := s0) (t := x) ?_ (fun hx => ?_) <;> first | (replace hx : Keeps s0 x := hx; clear_value x) | (dsimp only [x]; clear x))
    | (extract_lets +onlyGivenNames x; try clear_value x)
    | (refine Keeps.prj (by with_reducible assumption) ?_)
    | with_reducible apply Keeps.lit

theorem sidingDrain_keeps {s0 : State} {a0} {a1} {s : State} (h : Keeps s0 s) :
    Keeps s0 (sidingDrain a0 a1 s) := by
  revert h
  fun_induction sidingDrain a0 a1 s
  all_goals intro h
  all_goals repeat' first
    | with_reducible assumption
    | with_reducible apply faultWrite_keeps
    | with_reducible apply State.setFring_keeps
    | (refine (show Keeps s0 _ → _ by with_reducible assumption) ?_)
    | (intro _)
    | split
    | (refine Keeps.prj (by with_reducible assumption) ?_)
    | with_reducible apply Keeps.lit

theorem firstDropped_keeps {s0 : State} {a0} {s : State} (h : Keeps s0 s) :
    Keeps s0 (firstDropped a0 s) := by
  unfold firstDropped
  repeat' first
    | with_reducible assumption
    | with_reducible apply State.setFring_keeps
    | (intro _)
    | (extract_lets +onlyGivenNames x; try clear_value x)
    | (refine Keeps.prj (by with_reducible assumption) ?_)
    | with_reducible apply Keeps.lit

theorem performReport_keeps {s0 : State} {a0} {s : State} (h : Keeps s0 s) :
    Keeps s0 (performReport a0 s) := by
  unfold performReport
  repeat' first
    | with_reducible assumption
    | with_reducible apply evPut_keeps
    | with_reducible apply faultWrite_keeps
    | with_reducible apply State.setFring_keeps
    | with_reducible apply firstDropped_keeps
    | with_reducible apply portSend_keeps
    | (intro _)
    | (extract_lets +onlyGivenNames x; refine Keeps.cut (s0 := s0) (t := x) ?_ (fun hx => ?_) <;> first | (replace hx : Keeps s0 x := hx; clear_value x) | (dsimp only [x]; clear x))
    | (extract_lets +onlyGivenNames x; try clear_value x)
    | split
    | (refine Keeps.prj (by with_reducible assumption) ?_)
    | with_reducible apply Keeps.lit

theorem report_keeps {s0 : State} {a0} {s : State} (h : Keeps s0 s) :
    Keeps s0 (report a0 s) := by
  unfold report
  repeat' first
    | with_reducible assumption
    | with_reducible apply performReport_keeps
    | (intro _)
    | (extract_lets +onlyGivenNames x; try clear_value x)
    | split
    | (refine Keeps.prj (by with_reducible assumption) ?_)
    | with_reducible apply Keeps.lit

theorem flushHeld_keeps {s0 : State} {s : State} (h : Keeps s0 s) :
    Keeps s0 (flushHeld s) := by
  unfold flushHeld
  repeat' first
    | with_reducible assumption
    | with_reducible apply performReport_keeps
    | with_reducible apply foldS_keeps
    | with_reducible apply evDrain_keeps
    | with_reducible apply sidingDrain_keeps
    | with_reducible apply foldl_keeps
    | with_reducible apply foldl_keeps_snd
    | (intro _)
    | (extract_lets +onlyGivenNames x; refine Keeps.cut (s0 := s0) (t := x) ?_ (fun hx => ?_) <;> first | (replace hx : Keeps s0 x := hx; clear_value x) | (dsimp only [x]; clear x))
    | (extract_lets +onlyGivenNames x; try clear_value x)
    | (refine Keeps.prj (by with_reducible assumption) ?_)
    | with_reducible apply Keeps.lit

theorem raiseIn_keeps {s0 : State} {a0} {a1} {s : State} (h : Keeps s0 s) :
    Keeps s0 (raiseIn a0 a1 s) := by
  unfold raiseIn
  repeat' first
    | with_reducible assumption
    | with_reducible apply report_keeps
    | with_reducible apply State.setRing_keeps
    | (intro _)
    | (extract_lets +onlyGivenNames x; try clear_value x)
    | split
    | (refine Keeps.prj (by with_reducible assumption) ?_)
    | with_reducible apply Keeps.lit

theorem partEvent_keeps {s0 : State} {a0} {a1} {a2} {s : State} (h : Keeps s0 s) :
    Keeps s0 (partEvent a0 a1 a2 s) := by
  unfold partEvent
  repeat' first
    | with_reducible assumption
    | with_reducible apply raiseIn_keeps
    | (intro _)
    | (refine Keeps.prj (by with_reducible assumption) ?_)
    | with_reducible apply Keeps.lit

theorem hubEvent_keeps {s0 : State} {a0} {a1} {a2} {s : State} (h : Keeps s0 s) :
    Keeps s0 (hubEvent a0 a1 a2 s) := by
  unfold hubEvent
  repeat' first
    | with_reducible assumption
    | with_reducible apply raiseIn_keeps
    | (intro _)
    | (refine Keeps.prj (by with_reducible assumption) ?_)
    | with_reducible apply Keeps.lit

theorem lostEvent_keeps {s0 : State} {a0} {a1} {a2} {a3} {s : State} (h : Keeps s0 s) :
    Keeps s0 (lostEvent a0 a1 a2 a3 s) := by
  unfold lostEvent
  repeat' first
    | with_reducible assumption
    | with_reducible apply raiseIn_keeps
    | (intro _)
    | (refine Keeps.prj (by with_reducible assumption) ?_)
    | with_reducible apply Keeps.lit

theorem placeFault_keeps {s0 : State} {a0} {s : State} (h : Keeps s0 s) :
    Keeps s0 (placeFault a0 s) := by
  unfold placeFault
  repeat' first
    | with_reducible assumption
    | with_reducible apply report_keeps
    | with_reducible apply lostEvent_keeps
    | with_reducible apply State.setFring_keeps
    | with_reducible apply firstDropped_keeps
    | with_reducible apply partEvent_keeps
    | (intro _)
    | (extract_lets +onlyGivenNames x; refine Keeps.cut (s0 := s0) (t := x) ?_ (fun hx => ?_) <;> first | (replace hx : Keeps s0 x := hx; clear_value x) | (dsimp only [x]; clear x))
    | (extract_lets +onlyGivenNames x; try clear_value x)
    | split
    | (refine Keeps.prj (by with_reducible assumption) ?_)
    | with_reducible apply Keeps.lit

theorem State.bumpGen_keeps {s0 : State} {s : State} (h : Keeps s0 s) :
    Keeps s0 (State.bumpGen s) := by
  unfold State.bumpGen
  repeat' first
    | with_reducible assumption
    | (intro _)
    | (refine Keeps.prj (by with_reducible assumption) ?_)
    | with_reducible apply Keeps.lit

theorem State.stamp_keeps {s0 : State} {s : State} {a1} (h : Keeps s0 s) :
    Keeps s0 (State.stamp s a1) := by
  unfold State.stamp
  repeat' first
    | with_reducible assumption
    | (intro _)
    | (refine Keeps.prj (by with_reducible assumption) ?_)
    | with_reducible apply Keeps.lit

theorem State.touch_keeps {s0 : State} {s : State} {a1} (h : Keeps s0 s) :
    Keeps s0 (State.touch s a1) := by
  unfold State.touch
  repeat' first
    | with_reducible assumption
    | with_reducible apply State.stamp_keeps
    | with_reducible apply State.bumpGen_keeps
    | (intro _)
    | (refine Keeps.prj (by with_reducible assumption) ?_)
    | with_reducible apply Keeps.lit

theorem dropAsked_keeps {s0 : State} {a0} {s : State} (h : Keeps s0 s) :
    Keeps s0 (dropAsked a0 s) := by
  unfold dropAsked
  repeat' first
    | with_reducible assumption
    | (intro _)
    | (extract_lets +onlyGivenNames x; try clear_value x)
    | split
    | (refine Keeps.prj (by with_reducible assumption) ?_)
    | with_reducible apply Keeps.lit

theorem stopCore_keeps {s0 : State} {a0} {a1} {s : State} (h : Keeps s0 s) :
    Keeps s0 (stopCore a0 a1 s) := by
  unfold stopCore
  repeat' first
    | with_reducible assumption
    | with_reducible apply dropAsked_keeps
    | with_reducible apply State.setCore_keeps
    | (intro _)
    | (extract_lets +onlyGivenNames x; refine Keeps.cut (s0 := s0) (t := x) ?_ (fun hx => ?_) <;> first | (replace hx : Keeps s0 x := hx; clear_value x) | (dsimp only [x]; clear x))
    | (extract_lets +onlyGivenNames x; try clear_value x)
    | split
    | (refine Keeps.prj (by with_reducible assumption) ?_)
    | with_reducible apply Keeps.lit

theorem stopContext_keeps {s0 : State} {a0} {s : State} (h : Keeps s0 s) :
    Keeps s0 (stopContext a0 s) := by
  unfold stopContext
  repeat' first
    | with_reducible assumption
    | with_reducible apply foldS_keeps
    | with_reducible apply stopCore_keeps
    | (intro _)
    | (refine Keeps.prj (by with_reducible assumption) ?_)
    | with_reducible apply Keeps.lit

theorem ctxFault_keeps {s0 : State} {a0} {a1} {s : State} (h : Keeps s0 s) :
    Keeps s0 (ctxFault a0 a1 s) := by
  unfold ctxFault
  repeat' first
    | with_reducible assumption
    | with_reducible apply State.touch_keeps
    | with_reducible apply State.setCtx_keeps
    | with_reducible apply placeFault_keeps
    | with_reducible apply stopContext_keeps
    | (intro _)
    | (extract_lets +onlyGivenNames x; refine Keeps.cut (s0 := s0) (t := x) ?_ (fun hx => ?_) <;> first | (replace hx : Keeps s0 x := hx; clear_value x) | (dsimp only [x]; clear x))
    | (extract_lets +onlyGivenNames x; try clear_value x)
    | split
    | (refine Keeps.prj (by with_reducible assumption) ?_)
    | with_reducible apply Keeps.lit

theorem coreFault_keeps {s0 : State} {a0} {a1} {a2} {s : State} {a4} {a5} {a6} {a7} (h : Keeps s0 s) :
    Keeps s0 (coreFault a0 a1 a2 s a4 a5 a6 a7) := by
  unfold coreFault
  repeat' first
    | with_reducible assumption
    | with_reducible apply stopCore_keeps
    | with_reducible apply ctxFault_keeps
    | (intro _)
    | (extract_lets +onlyGivenNames x; try clear_value x)
    | (refine Keeps.prj (by with_reducible assumption) ?_)
    | with_reducible apply Keeps.lit

theorem agentFault_keeps {s0 : State} {a0} {a1} {a2} {s : State} {a4} {a5} {a6} {a7} (h : Keeps s0 s) :
    Keeps s0 (agentFault a0 a1 a2 s a4 a5 a6 a7) := by
  unfold agentFault
  repeat' first
    | with_reducible assumption
    | with_reducible apply ctxFault_keeps
    | (intro _)
    | (refine Keeps.prj (by with_reducible assumption) ?_)
    | with_reducible apply Keeps.lit

/-! ### Home -/

theorem offlineAdd_keeps {s0 : State} {a0} {a1} {s : State} (h : Keeps s0 s) :
    Keeps s0 (offlineAdd a0 a1 s) := by
  unfold offlineAdd
  repeat' first
    | with_reducible assumption
    | with_reducible apply hubEvent_keeps
    | (intro _)
    | (extract_lets +onlyGivenNames x; try clear_value x)
    | split
    | (refine Keeps.prj (by with_reducible assumption) ?_)
    | with_reducible apply Keeps.lit

theorem memErrAdd_keeps {s0 : State} {a0} {a1} {a2} {a3} {s : State} (h : Keeps s0 s) :
    Keeps s0 (memErrAdd a0 a1 a2 a3 s) := by
  unfold memErrAdd
  repeat' first
    | with_reducible assumption
    | with_reducible apply State.setReg_keeps
    | (intro _)
    | (extract_lets +onlyGivenNames x; try clear_value x)
    | (refine Keeps.prj (by with_reducible assumption) ?_)
    | with_reducible apply Keeps.lit

theorem cohErr_keeps {s0 : State} {a0} {a1} {s : State} (h : Keeps s0 s) :
    Keeps s0 (cohErr a0 a1 s) := by
  unfold cohErr
  repeat' first
    | with_reducible assumption
    | with_reducible apply State.setReg_keeps
    | (intro _)
    | (extract_lets +onlyGivenNames x; try clear_value x)
    | split
    | (refine Keeps.prj (by with_reducible assumption) ?_)
    | with_reducible apply Keeps.lit

theorem dirCorrected_keeps {s0 : State} {a0} {s : State} (h : Keeps s0 s) :
    Keeps s0 (dirCorrected a0 s) := by
  unfold dirCorrected
  repeat' first
    | with_reducible assumption
    | with_reducible apply State.setReg_keeps
    | (intro _)
    | (extract_lets +onlyGivenNames x; try clear_value x)
    | (refine Keeps.prj (by with_reducible assumption) ?_)
    | with_reducible apply Keeps.lit

theorem makeDue_keeps {s0 : State} {a0} {s : State} (h : Keeps s0 s) :
    Keeps s0 (makeDue a0 s) := by
  unfold makeDue
  repeat' first
    | with_reducible assumption
    | (intro _)
    | (refine Keeps.prj (by with_reducible assumption) ?_)
    | with_reducible apply Keeps.lit

theorem corrected_keeps {s0 : State} {a0} {a1} {s : State} (h : Keeps s0 s) :
    Keeps s0 (corrected a0 a1 s) := by
  unfold corrected
  repeat' first
    | with_reducible assumption
    | with_reducible apply memErrAdd_keeps
    | with_reducible apply offlineAdd_keeps
    | (intro _)
    | (extract_lets +onlyGivenNames x; refine Keeps.cut (s0 := s0) (t := x) ?_ (fun hx => ?_) <;> first | (replace hx : Keeps s0 x := hx; clear_value x) | (dsimp only [x]; clear x))
    | (extract_lets +onlyGivenNames x; try clear_value x)
    | split
    | (refine Keeps.prj (by with_reducible assumption) ?_)
    | with_reducible apply Keeps.lit

theorem poisonLine_keeps {s0 : State} {a0} {s : State} (h : Keeps s0 s) :
    Keeps s0 (poisonLine a0 s) := by
  unfold poisonLine
  repeat' first
    | with_reducible assumption
    | with_reducible apply cohErr_keeps
    | with_reducible apply State.setLine_keeps
    | (intro _)
    | (extract_lets +onlyGivenNames x; try clear_value x)
    | (refine Keeps.prj (by with_reducible assumption) ?_)
    | with_reducible apply Keeps.lit

theorem integrityFail_keeps {s0 : State} {a0} {s : State} (h : Keeps s0 s) :
    Keeps s0 (integrityFail a0 s) := by
  unfold integrityFail
  repeat' first
    | with_reducible assumption
    | with_reducible apply memErrAdd_keeps
    | with_reducible apply hubEvent_keeps
    | (intro _)
    | (extract_lets +onlyGivenNames x; refine Keeps.cut (s0 := s0) (t := x) ?_ (fun hx => ?_) <;> first | (replace hx : Keeps s0 x := hx; clear_value x) | (dsimp only [x]; clear x))
    | (extract_lets +onlyGivenNames x; try clear_value x)
    | split
    | (refine Keeps.prj (by with_reducible assumption) ?_)
    | with_reducible apply Keeps.lit

theorem heatUp_keeps {s0 : State} {a0} {s : State} (h : Keeps s0 s) :
    Keeps s0 (heatUp a0 s) := by
  unfold heatUp
  repeat' first
    | with_reducible assumption
    | (intro _)
    | (refine Keeps.prj (by with_reducible assumption) ?_)
    | with_reducible apply Keeps.lit

theorem writeBack_keeps {s0 : State} {a0} {s : State} (h : Keeps s0 s) :
    Keeps s0 (writeBack a0 s) := by
  unfold writeBack
  repeat' first
    | with_reducible assumption
    | with_reducible apply foldl_keeps
    | with_reducible apply foldl_keeps_snd
    | (intro _)
    | (extract_lets +onlyGivenNames x; try clear_value x)
    | (refine Keeps.prj (by with_reducible assumption) ?_)
    | with_reducible apply Keeps.lit

theorem mscAlloc_keeps {s0 : State} {a0} {a1} {s : State} (h : Keeps s0 s) :
    Keeps s0 (mscAlloc a0 a1 s) := by
  unfold mscAlloc
  repeat' first
    | with_reducible assumption
    | with_reducible apply writeBack_keeps
    | (intro _)
    | (extract_lets +onlyGivenNames x; refine Keeps.cut (s0 := s0) (t := x) ?_ (fun hx => ?_) <;> first | (replace hx : Keeps s0 x := hx; clear_value x) | (dsimp only [x]; clear x))
    | (extract_lets +onlyGivenNames x; try clear_value x)
    | split
    | (refine Keeps.prj (by with_reducible assumption) ?_)
    | with_reducible apply Keeps.lit

theorem mscFill_keeps {s0 : State} {a0} {a1} {a2} {s : State} (h : Keeps s0 s) :
    Keeps s0 (mscFill a0 a1 a2 s) := by
  unfold mscFill
  repeat' first
    | with_reducible assumption
    | with_reducible apply mscAlloc_keeps
    | (intro _)
    | (extract_lets +onlyGivenNames x; refine Keeps.cut (s0 := s0) (t := x) ?_ (fun hx => ?_) <;> first | (replace hx : Keeps s0 x := hx; clear_value x) | (dsimp only [x]; clear x))
    | (extract_lets +onlyGivenNames x; try clear_value x)
    | split
    | (refine Keeps.prj (by with_reducible assumption) ?_)
    | with_reducible apply Keeps.lit

theorem mscDrop_keeps {s0 : State} {a0} {a1} {s : State} (h : Keeps s0 s) :
    Keeps s0 (mscDrop a0 a1 s) := by
  unfold mscDrop
  repeat' first
    | with_reducible assumption
    | with_reducible apply foldS_keeps
    | with_reducible apply writeBack_keeps
    | (intro _)
    | (extract_lets +onlyGivenNames x; refine Keeps.cut (s0 := s0) (t := x) ?_ (fun hx => ?_) <;> first | (replace hx : Keeps s0 x := hx; clear_value x) | (dsimp only [x]; clear x))
    | (extract_lets +onlyGivenNames x; try clear_value x)
    | split
    | (refine Keeps.prj (by with_reducible assumption) ?_)
    | with_reducible apply Keeps.lit

theorem lineBad_keeps {s0 : State} {a0} {s : State} (h : Keeps s0 s) :
    Keeps s0 (lineBad a0 s) := by
  unfold lineBad
  repeat' first
    | with_reducible assumption
    | with_reducible apply offlineAdd_keeps
    | with_reducible apply memErrAdd_keeps
    | with_reducible apply poisonLine_keeps
    | (intro _)
    | (refine Keeps.prj (by with_reducible assumption) ?_)
    | with_reducible apply Keeps.lit

theorem mediaRead_keeps {s0 : State} {a0} {s : State} (h : Keeps s0 s) :
    Keeps s0 (mediaRead a0 s).2 := by
  unfold mediaRead
  repeat' first
    | with_reducible assumption
    | with_reducible apply lineBad_keeps
    | with_reducible apply corrected_keeps
    | with_reducible apply integrityFail_keeps
    | (intro _)
    | (extract_lets +onlyGivenNames x; refine Keeps.cut (s0 := s0) (t := x) ?_ (fun hx => ?_) <;> first | (replace hx : Keeps s0 x := hx; clear_value x) | (dsimp only [x]; clear x))
    | split
    | (refine Keeps.prj (by with_reducible assumption) ?_)
    | with_reducible apply Keeps.lit

theorem homeTouch_keeps {s0 : State} {a0} {a1} {a2} {s : State} (h : Keeps s0 s) :
    Keeps s0 (homeTouch a0 a1 a2 s).2 := by
  unfold homeTouch
  repeat' first
    | with_reducible assumption
    | with_reducible apply mscFill_keeps
    | with_reducible apply heatUp_keeps
    | with_reducible apply mediaRead_keeps
    | (intro _)
    | (extract_lets +onlyGivenNames x; refine Keeps.cut (s0 := s0) (t := x) ?_ (fun hx => ?_) <;> first | (replace hx : Keeps s0 x := hx; clear_value x) | (dsimp only [x]; clear x))
    | (extract_lets +onlyGivenNames x; try clear_value x)
    | split
    | (refine Keeps.snd (by with_reducible assumption) ?_)
    | (refine Keeps.prj (by with_reducible assumption) ?_)
    | with_reducible apply Keeps.lit

theorem mask_keeps {s0 s : State} {a n mask v : Nat} (h : Keeps s0 s) :
    Keeps s0 { s with mem := mwriteMask s.mem a n mask v } :=
  ⟨h.fuse, fun m => wf_mwriteMask _ _ _ _ (h.mem m), h.queue, h.time⟩

theorem homeWrite_keeps {s0 : State} {n mask : Nat} {data : LineData} {poison : Bool} {ways : Nat} {narrow : Bool}
    {s : State} (h : Keeps s0 s) : Keeps s0 (homeWrite n mask data poison ways narrow s) := by
  unfold homeWrite
  extract_lets full pair s1 s2 s3 s4
  have k1 : Keeps s0 s1 := by
    dsimp only [s1]
    split
    · exact h
    · exact heatUp_keeps h
  clear_value s1
  have k2 : Keeps s0 s2 := by
    dsimp only [s2]
    split
    · exact heatUp_keeps k1
    · exact k1
  clear_value s2
  have k3 : Keeps s0 s3 := by
    dsimp only [s3]
    split
    · exact mscFill_keeps h
    · exact Keeps.lit k2
  clear_value s3
  have k4 : Keeps s0 s4 := mask_keeps k3
  clear_value s4
  split
  · exact poisonLine_keeps k4
  · split
    · exact State.setLine_keeps k4
    · exact k4

theorem sitePump_keeps {s0 : State} {n : Nat} {s : State} (h : Keeps s0 s) : Keeps s0 (sitePump n s) := by
  refine State.setSite_keeps ?_
  refine List.foldlRecOn (motive := fun a : KV Nat × List Msg × State => Keeps s0 a.2.2) _ _ h ?_
  intro b hb a _
  dsimp only
  split
  · exact hb
  · exact emit_keeps hb

theorem sendDie_keeps {s0 : State} {a0} {a1} {s : State} (h : Keeps s0 s) :
    Keeps s0 (sendDie a0 a1 s) := by
  unfold sendDie
  repeat' first
    | with_reducible assumption
    | with_reducible apply emit_keeps
    | with_reducible apply State.setSite_keeps
    | with_reducible apply sitePump_keeps
    | (intro _)
    | (extract_lets +onlyGivenNames x; try clear_value x)
    | split
    | (refine Keeps.prj (by with_reducible assumption) ?_)
    | with_reducible apply Keeps.lit

theorem sendMsg_keeps {s0 : State} {a0} {s : State} (h : Keeps s0 s) :
    Keeps s0 (sendMsg a0 s) := by
  unfold sendMsg
  repeat' first
    | with_reducible assumption
    | with_reducible apply sendDie_keeps
    | (intro _)
    | (extract_lets +onlyGivenNames x; try clear_value x)
    | split
    | (refine Keeps.prj (by with_reducible assumption) ?_)
    | with_reducible apply Keeps.lit

theorem memAtomic_keeps {s0 : State} {a0} {s : State} (h : Keeps s0 s) :
    Keeps s0 (memAtomic a0 s).2 := by
  unfold memAtomic
  repeat' first
    | with_reducible assumption
    | with_reducible apply homeTouch_keeps
    | with_reducible apply mediaRead_keeps
    | with_reducible apply heatUp_keeps
    | (intro _)
    | split
    | (refine Keeps.snd (by with_reducible assumption) ?_)
    | (refine Keeps.prj (by with_reducible assumption) ?_)
    | with_reducible apply Keeps.lit

theorem homeFinish_keeps {s0 : State} {n : Nat} {t : HomeTx} {s : State} (h : Keeps s0 s) :
    Keeps s0 (homeFinish n t s) := by
  unfold homeFinish
  extract_lets +onlyGivenNames m a d d' ways narrow gotI forwardM s1 setDir
  have h1 : Keeps s0 s1 := by
    dsimp only [s1]
    split
    · split
      · exact homeWrite_keeps h
      · exact h
    · exact h
  clear_value s1
  have hd : ∀ d b s, Keeps s0 s → Keeps s0 (setDir d b s) := fun _ _ _ k => State.setLine_keeps k
  clear_value setDir ways narrow d' d gotI forwardM
  have ht : ∀ b, Keeps s0 (homeTouch n ways b s1).2 := fun _ => homeTouch_keeps h1
  have send : ∀ d b x u, Keeps s0 u → Keeps s0 (setDir d b (sendMsg x u)) := fun _ _ _ _ k => hd _ _ _ (sendMsg_keeps k)
  split
  · exact hd _ _ _ h1
  split
  · have k : Keeps s0 (if t.got.isSome = true then (0, s1) else homeTouch n ways false s1).2 := by
      split
      · exact h1
      · exact ht _
    generalize (if t.got.isSome = true then (0, s1) else homeTouch n ways false s1) = e at k ⊢
    obtain ⟨r, u⟩ := e
    dsimp -zeta only at k ⊢
    extract_lets others reply
    split
    · exact send _ _ _ _ k
    · split <;> exact send _ _ _ _ k
  iterate 2
    · extract_lets own
      split
      · exact send _ _ _ _ h1
      · split
        · exact send _ _ _ _ h1
        · dsimp only
          split <;> exact send _ _ _ _ (ht _)
  · split
    · exact send _ _ _ _ h1
    · exact send _ _ _ _ (ht _)
  · exact send _ _ _ _ (homeWrite_keeps h1)
  · extract_lets reads
    have k : Keeps s0 (if reads = true then homeTouch n ways false s1 else (0, s1)).2 := by
      split
      · exact ht _
      · exact h1
    generalize (if reads = true then homeTouch n ways false s1 else (0, s1)) = e at k ⊢
    obtain ⟨r, u⟩ := e
    dsimp -zeta only at k ⊢
    extract_lets note
    refine send _ _ _ _ ?_
    split
    · exact k
    · exact homeWrite_keeps k
  · have k : Keeps s0 (if m.stream = true then memAtomic n s1 else homeTouch n ways false s1).2 := by
      split
      · exact memAtomic_keeps h1
      · exact ht _
    generalize (if m.stream = true then memAtomic n s1 else homeTouch n ways false s1) = e at k ⊢
    obtain ⟨r, u⟩ := e
    dsimp -zeta only at k ⊢
    extract_lets aux off size put new u2 pz
    have hp : ∀ x v, Keeps s0 v → Keeps s0 (put x v) := fun _ _ k => homeWrite_keeps k
    clear_value put
    split
    · refine send _ _ _ _ ?_
      dsimp only [u2]
      split
      · exact hp _ _ (State.bump_keeps k)
      · exact k
    · exact send _ _ _ _ (hp _ _ k)
  · exact hd _ _ _ h1

theorem homeBegin_keeps {s0 : State} {a0} {a1} {a2} {s : State} (h : Keeps s0 s) :
    Keeps s0 (homeBegin a0 a1 a2 s) := by
  unfold homeBegin
  repeat' first
    | with_reducible assumption
    | with_reducible apply homeFinish_keeps
    | with_reducible apply State.setLine_keeps
    | with_reducible apply State.setReg_keeps
    | with_reducible apply foldS_keeps
    | with_reducible apply sendMsg_keeps
    | (intro _)
    | (extract_lets +onlyGivenNames x; refine Keeps.cut (s0 := s0) (t := x) ?_ (fun hx => ?_) <;> first | (replace hx : Keeps s0 x := hx; clear_value x) | (dsimp only [x]; clear x))
    | (extract_lets +onlyGivenNames x; try clear_value x)
    | split
    | (refine Keeps.prj (by with_reducible assumption) ?_)
    | with_reducible apply Keeps.lit

theorem countTraffic_keeps {s0 : State} {a0} {s : State} (h : Keeps s0 s) :
    Keeps s0 (countTraffic a0 s) := by
  unfold countTraffic
  repeat' first
    | with_reducible assumption
    | (intro _)
    | split
    | (refine Keeps.prj (by with_reducible assumption) ?_)
    | with_reducible apply Keeps.lit

theorem recallAll_keeps {s0 : State} {a0} {s : State} (h : Keeps s0 s) :
    Keeps s0 (recallAll a0 s) := by
  unfold recallAll
  repeat' first
    | with_reducible assumption
    | with_reducible apply homeBegin_keeps
    | (intro _)
    | (refine Keeps.prj (by with_reducible assumption) ?_)
    | with_reducible apply Keeps.lit

theorem dirLost_keeps {s0 : State} {n : Nat} {s : State} (h : Keeps s0 s) : Keeps s0 (dirLost n s) := by
  unfold dirLost
  refine homeBegin_keeps ?_
  have k := State.setLine_keeps (a1 := n) (a2 := { (cohErr (homeOf (64 * n)) 0 s).line n with dir := some { bcast := true } })
    (cohErr_keeps (a0 := homeOf (64 * n)) (a1 := 0) h)
  split
  · exact makeDue_keeps k
  · exact k

theorem homeServe_keeps {s0 : State} {a0} {s : State} (h : Keeps s0 s) :
    Keeps s0 (homeServe a0 s) := by
  unfold homeServe
  repeat' first
    | with_reducible assumption
    | with_reducible apply State.setLine_keeps
    | with_reducible apply sendMsg_keeps
    | with_reducible apply dirLost_keeps
    | with_reducible apply dirCorrected_keeps
    | with_reducible apply countTraffic_keeps
    | with_reducible apply homeWrite_keeps
    | with_reducible apply State.setReg_keeps
    | with_reducible apply homeBegin_keeps
    | with_reducible apply hf
    | (intro _)
    | (extract_lets +onlyGivenNames x; refine Keeps.cut (s0 := s0) (t := x) ?_ (fun hx => ?_) <;> first | (replace hx : Keeps s0 x := hx; clear_value x) | (dsimp only [x]; clear x))
    | (extract_lets +onlyGivenNames f; refine Keeps.cutS1 (s0 := s0) (f := f) ?_ (fun hf => ?_) <;> first | (replace hf : ∀ a s, Keeps s0 s → Keeps s0 (f a s) := hf; clear_value f) | (dsimp only [f]; clear f))
    | (extract_lets +onlyGivenNames x; try clear_value x)
    | split
    | (refine Keeps.prj (by with_reducible assumption) ?_)
    | with_reducible apply Keeps.lit

theorem homeNext_keeps {s0 : State} {a0} {a1} {s : State} (h : Keeps s0 s) :
    Keeps s0 (homeNext a0 a1 s) := by
  revert h
  fun_induction homeNext a0 a1 s
  all_goals intro h
  all_goals repeat' first
    | with_reducible assumption
    | with_reducible apply homeServe_keeps
    | with_reducible apply State.setLine_keeps
    | (refine (show Keeps s0 _ → _ by with_reducible assumption) ?_)
    | (intro _)
    | split
    | (refine Keeps.prj (by with_reducible assumption) ?_)
    | with_reducible apply Keeps.lit

theorem homeResume_keeps {s0 : State} {a0} {s : State} (h : Keeps s0 s) :
    Keeps s0 (homeResume a0 s) := by
  unfold homeResume
  repeat' first
    | with_reducible assumption
    | with_reducible apply homeNext_keeps
    | with_reducible apply State.setLine_keeps
    | (intro _)
    | (extract_lets +onlyGivenNames x; try clear_value x)
    | (refine Keeps.prj (by with_reducible assumption) ?_)
    | with_reducible apply Keeps.lit

theorem homeWake_keeps {s0 : State} {s : State} (h : Keeps s0 s) :
    Keeps s0 (homeWake s) := by
  unfold homeWake
  repeat' first
    | with_reducible assumption
    | with_reducible apply foldS_keeps
    | with_reducible apply homeResume_keeps
    | (intro _)
    | (extract_lets +onlyGivenNames x; try clear_value x)
    | split
    | (refine Keeps.prj (by with_reducible assumption) ?_)
    | with_reducible apply Keeps.lit

theorem homeAccept_keeps {s0 : State} {a0} {s : State} (h : Keeps s0 s) :
    Keeps s0 (homeAccept a0 s) := by
  unfold homeAccept
  repeat' first
    | with_reducible assumption
    | with_reducible apply State.setLine_keeps
    | with_reducible apply homeWake_keeps
    | with_reducible apply homeServe_keeps
    | (intro _)
    | (extract_lets +onlyGivenNames x; try clear_value x)
    | split
    | (refine Keeps.prj (by with_reducible assumption) ?_)
    | with_reducible apply Keeps.lit

theorem homeEnded_keeps {s0 : State} {a0} {a1} {s : State} (h : Keeps s0 s) :
    Keeps s0 (homeEnded a0 a1 s) := by
  unfold homeEnded
  repeat' first
    | with_reducible assumption
    | with_reducible apply homeResume_keeps
    | with_reducible apply homeWake_keeps
    | with_reducible apply homeNext_keeps
    | (intro _)
    | (extract_lets +onlyGivenNames x; refine Keeps.cut (s0 := s0) (t := x) ?_ (fun hx => ?_) <;> first | (replace hx : Keeps s0 x := hx; clear_value x) | (dsimp only [x]; clear x))
    | split
    | (refine Keeps.prj (by with_reducible assumption) ?_)
    | with_reducible apply Keeps.lit

theorem homeTake_keeps {s0 : State} {a0} {a1} {a2} {a3} {s : State} (h : Keeps s0 s) :
    Keeps s0 (homeTake a0 a1 a2 a3 s) := by
  unfold homeTake
  repeat' first
    | with_reducible assumption
    | with_reducible apply State.setLine_keeps
    | with_reducible apply homeEnded_keeps
    | with_reducible apply homeFinish_keeps
    | (intro _)
    | (extract_lets +onlyGivenNames x; refine Keeps.cut (s0 := s0) (t := x) ?_ (fun hx => ?_) <;> first | (replace hx : Keeps s0 x := hx; clear_value x) | (dsimp only [x]; clear x))
    | (extract_lets +onlyGivenNames x; try clear_value x)
    | split
    | (refine Keeps.prj (by with_reducible assumption) ?_)
    | with_reducible apply Keeps.lit

theorem homeAnswer_keeps {s0 : State} {a0} {s : State} (h : Keeps s0 s) :
    Keeps s0 (homeAnswer a0 s) := by
  unfold homeAnswer
  repeat' first
    | with_reducible assumption
    | with_reducible apply homeTake_keeps
    | (intro _)
    | split
    | (refine Keeps.prj (by with_reducible assumption) ?_)
    | with_reducible apply Keeps.lit

theorem homeAck_keeps {s0 : State} {a0} {s : State} (h : Keeps s0 s) :
    Keeps s0 (homeAck a0 s) := by
  unfold homeAck
  repeat' first
    | with_reducible assumption
    | with_reducible apply homeEnded_keeps
    | with_reducible apply State.setLine_keeps
    | (intro _)
    | (extract_lets +onlyGivenNames x; try clear_value x)
    | split
    | (refine Keeps.prj (by with_reducible assumption) ?_)
    | with_reducible apply Keeps.lit

theorem agentSnoop_keeps {s0 : State} {a0} {s : State} (h : Keeps s0 s) :
    Keeps s0 (agentSnoop a0 s) := by
  unfold agentSnoop
  repeat' first
    | with_reducible assumption
    | with_reducible apply sendMsg_keeps
    | with_reducible apply State.setCluster_keeps
    | (intro _)
    | (extract_lets +onlyGivenNames x; refine Keeps.cut (s0 := s0) (t := x) ?_ (fun hx => ?_) <;> first | (replace hx : Keeps s0 x := hx; clear_value x) | (dsimp only [x]; clear x))
    | (extract_lets +onlyGivenNames x; try clear_value x)
    | split
    | (refine Keeps.prj (by with_reducible assumption) ?_)
    | with_reducible apply Keeps.lit

theorem agentReply_keeps {s0 : State} {a0} {a1} {s : State} (h : Keeps s0 s) :
    Keeps s0 (agentReply a0 a1 s) := by
  unfold agentReply
  repeat' first
    | with_reducible assumption
    | with_reducible apply State.setCluster_keeps
    | with_reducible apply sendMsg_keeps
    | (intro _)
    | (extract_lets +onlyGivenNames x; refine Keeps.cut (s0 := s0) (t := x) ?_ (fun hx => ?_) <;> first | (replace hx : Keeps s0 x := hx; clear_value x) | (dsimp only [x]; clear x))
    | (extract_lets +onlyGivenNames x; try clear_value x)
    | split
    | (refine Keeps.prj (by with_reducible assumption) ?_)
    | with_reducible apply Keeps.lit

theorem deliver_keeps {s0 : State} {a0} {a1} {s : State} (h : Keeps s0 s) :
    Keeps s0 (deliver a0 a1 s) := by
  unfold deliver
  repeat' first
    | with_reducible assumption
    | with_reducible apply homeAccept_keeps
    | with_reducible apply agentSnoop_keeps
    | with_reducible apply homeAnswer_keeps
    | with_reducible apply homeAck_keeps
    | with_reducible apply agentReply_keeps
    | (intro _)
    | split
    | (refine Keeps.prj (by with_reducible assumption) ?_)
    | with_reducible apply Keeps.lit

theorem settleNet_keeps {s0 : State} {a0} {s : State} (h : Keeps s0 s) :
    Keeps s0 (settleNet a0 s) := by
  revert h
  fun_induction settleNet a0 s
  all_goals intro h
  all_goals repeat' first
    | with_reducible assumption
    | with_reducible apply deliver_keeps
    | (refine (show Keeps s0 _ → _ by with_reducible assumption) ?_)
    | (intro _)
    | split
    | (refine Keeps.prj (by with_reducible assumption) ?_)
    | with_reducible apply Keeps.lit

theorem exchange_keeps {s0 s : State} {f : State → State} (hf : ∀ s, Keeps s0 s → Keeps s0 (f s))
    (h : Keeps s0 s) : Keeps s0 (exchange f s) :=
  settleNet_keeps (hf _ h)

theorem request_keeps {s0 : State} {m : Msg} {s : State} (h : Keeps s0 s) : KeepsN s0 (request m s) := by
  refine ⟨fun t e => ?_⟩
  unfold request at e
  extract_lets n at e
  split at e
  · cases e
  · cases hf : freeTxn m.src.toNat n s with
    | none => simp [hf] at e
    | some k =>
      rw [hf, Option.map_some] at e
      injection e with e
      subst e
      exact exchange_keeps (fun _ k => sendMsg_keeps k) (Keeps.lit h)

theorem clusterGone_keeps {s0 : State} {a0} {s : State} (h : Keeps s0 s) :
    Keeps s0 (clusterGone a0 s) := by
  unfold clusterGone
  repeat' first
    | with_reducible assumption
    | with_reducible apply settleNet_keeps
    | with_reducible apply homeWrite_keeps
    | with_reducible apply State.setCluster_keeps
    | with_reducible apply foldS_keeps
    | with_reducible apply homeTake_keeps
    | with_reducible apply foldl_keeps
    | with_reducible apply foldl_keeps_snd
    | (intro _)
    | (extract_lets +onlyGivenNames x; refine Keeps.cut (s0 := s0) (t := x) ?_ (fun hx => ?_) <;> first | (replace hx : Keeps s0 x := hx; clear_value x) | (dsimp only [x]; clear x))
    | (extract_lets +onlyGivenNames x; try clear_value x)
    | split
    | (refine Keeps.prj (by with_reducible assumption) ?_)
    | with_reducible apply Keeps.lit

/-! ### Access -/

theorem statAdd_keeps {s0 : State} {a0} {a1} {a2} {a3} {s : State} (h : Keeps s0 s) :
    Keeps s0 (statAdd a0 a1 a2 a3 s) := by
  unfold statAdd
  repeat' first
    | with_reducible assumption
    | with_reducible apply State.setReg_keeps
    | (intro _)
    | (extract_lets +onlyGivenNames x; try clear_value x)
    | (refine Keeps.prj (by with_reducible assumption) ?_)
    | with_reducible apply Keeps.lit

theorem tlbTouch_keeps {s0 : State} {a0} {a1} {a2} {a3} {s : State} (h : Keeps s0 s) :
    Keeps s0 (tlbTouch a0 a1 a2 a3 s) := by
  unfold tlbTouch
  repeat' first
    | with_reducible assumption
    | with_reducible apply State.setCore_keeps
    | with_reducible apply State.setCluster_keeps
    | with_reducible apply statAdd_keeps
    | (intro _)
    | (extract_lets +onlyGivenNames x; refine Keeps.cut (s0 := s0) (t := x) ?_ (fun hx => ?_) <;> first | (replace hx : Keeps s0 x := hx; clear_value x) | (dsimp only [x]; clear x))
    | (extract_lets +onlyGivenNames x; try clear_value x)
    | split
    | (refine Keeps.prj (by with_reducible assumption) ?_)
    | with_reducible apply Keeps.lit

theorem seen_keeps {s0 : State} {a0} {a1} {s : State} (h : Keeps s0 s) :
    Keeps s0 (seen a0 a1 s) := by
  unfold seen
  repeat' first
    | with_reducible assumption
    | with_reducible apply tlbTouch_keeps
    | (intro _)
    | split
    | (refine Keeps.prj (by with_reducible assumption) ?_)
    | with_reducible apply Keeps.lit

theorem takeAns_keeps {s0 : State} {a0} {s : State} (h : Keeps s0 s) :
    Keeps s0 (takeAns a0 s).2 := by
  unfold takeAns
  repeat' first
    | with_reducible assumption
    | (intro _)
    | split
    | (refine Keeps.prj (by with_reducible assumption) ?_)
    | with_reducible apply Keeps.lit

theorem once_keeps {s0 : State} {a0} {a1} {s : State} (h : Keeps s0 s) :
    Keeps s0 (once a0 a1 s).2 := by
  unfold once
  repeat' first
    | with_reducible assumption
    | with_reducible apply takeAns_keeps
    | with_reducible apply request_keeps
    | (intro _)
    | (extract_lets +onlyGivenNames x; try clear_value x)
    | split
    | (refine Keeps.snd (by with_reducible assumption) ?_)
    | (refine Keeps.optN (by with_reducible assumption) ?_)
    | (refine Keeps.prj (by with_reducible assumption) ?_)
    | with_reducible apply Keeps.lit

theorem accessMade_keeps {s0 : State} {a0} {a1} {a2} {a3} {s : State} (h : Keeps s0 s) :
    Keeps s0 (accessMade a0 a1 a2 a3 s) := by
  unfold accessMade
  repeat' first
    | with_reducible assumption
    | with_reducible apply State.setCluster_keeps
    | (intro _)
    | (extract_lets +onlyGivenNames x; refine Keeps.cut (s0 := s0) (t := x) ?_ (fun hx => ?_) <;> first | (replace hx : Keeps s0 x := hx; clear_value x) | (dsimp only [x]; clear x))
    | (extract_lets +onlyGivenNames x; try clear_value x)
    | split
    | (refine Keeps.prj (by with_reducible assumption) ?_)
    | with_reducible apply Keeps.lit

theorem acquire_keeps {s0 : State} {g : Nat} {w : Who} {pa : Nat} {write : Bool} {s : State} (h : Keeps s0 s) :
    Keeps s0 (acquire g w pa write s).2 := by
  unfold acquire
  extract_lets n mine good made key finish
  have hm : ∀ s, Keeps s0 s → Keeps s0 (made s).2 := fun _ h => accessMade_keeps h
  clear_value made good
  split
  · exact hm _ h
  · have hf : ∀ s, Keeps s0 s → Keeps s0 (finish s).2 := by
      intro t ht
      dsimp only [finish]
      split
      · exact hm _ ht
      · have := takeAns_keeps (a0 := key) ht
        split <;> exact Keeps.lit (Keeps.snd (by assumption) this)
    clear_value finish
    split
    · exact hf _ h
    · dsimp only
      split
      · exact h
      · exact hf _ (Keeps.optN (by assumption) (request_keeps (State.setCluster_keeps h)))

theorem fillStream_keeps {s0 : State} {a0} {a1} {a2} {s : State} (h : Keeps s0 s) :
    Keeps s0 (fillStream a0 a1 a2 s) := by
  unfold fillStream
  repeat' first
    | with_reducible assumption
    | with_reducible apply State.setCluster_keeps
    | (intro _)
    | (extract_lets +onlyGivenNames x; try clear_value x)
    | (refine Keeps.prj (by with_reducible assumption) ?_)
    | with_reducible apply Keeps.lit

theorem consume_keeps {s0 : State} {a0} {a1} {a2} {s : State} (h : Keeps s0 s) :
    Keeps s0 (consume a0 a1 a2 s).2 := by
  unfold consume
  repeat' first
    | with_reducible assumption
    | with_reducible apply State.setCluster_keeps
    | (intro _)
    | (extract_lets +onlyGivenNames x; try clear_value x)
    | split
    | (refine Keeps.prj (by with_reducible assumption) ?_)
    | with_reducible apply Keeps.lit

theorem readLine_keeps {s0 : State} {a0} {a1} {a2} {a3} {s : State} (h : Keeps s0 s) :
    Keeps s0 (readLine a0 a1 a2 a3 s).2 := by
  unfold readLine
  repeat' first
    | with_reducible assumption
    | with_reducible apply once_keeps
    | with_reducible apply fillStream_keeps
    | with_reducible apply acquire_keeps
    | with_reducible apply consume_keeps
    | with_reducible apply hf
    | (intro _)
    | (extract_lets +onlyGivenNames f; refine Keeps.cutF (s0 := s0) (f := f) ?_ (fun hf => ?_) <;> first | (replace hf : ∀ s, Keeps s0 s → Keeps s0 (f s).2 := hf; clear_value f) | (dsimp only [f]; clear f))
    | (extract_lets +onlyGivenNames f; refine Keeps.cutP1 (s0 := s0) (f := f) ?_ (fun hf => ?_) <;> first | (replace hf : ∀ a s, Keeps s0 s → Keeps s0 (f a s).2 := hf; clear_value f) | (dsimp only [f]; clear f))
    | (extract_lets +onlyGivenNames x; try clear_value x)
    | split
    | (refine Keeps.snd (by with_reducible assumption) ?_)
    | (refine Keeps.prj (by with_reducible assumption) ?_)
    | with_reducible apply Keeps.lit

theorem writeLine_keeps {s0 : State} {a0} {a1} {a2} {a3} {a4} {s : State} (h : Keeps s0 s) :
    Keeps s0 (writeLine a0 a1 a2 a3 a4 s).2 := by
  unfold writeLine
  repeat' first
    | with_reducible assumption
    | with_reducible apply once_keeps
    | with_reducible apply State.setCluster_keeps
    | with_reducible apply acquire_keeps
    | with_reducible apply hf
    | (intro _)
    | (extract_lets +onlyGivenNames f; refine Keeps.cutF (s0 := s0) (f := f) ?_ (fun hf => ?_) <;> first | (replace hf : ∀ s, Keeps s0 s → Keeps s0 (f s).2 := hf; clear_value f) | (dsimp only [f]; clear f))
    | (extract_lets +onlyGivenNames x; try clear_value x)
    | split
    | (refine Keeps.snd (by with_reducible assumption) ?_)
    | (refine Keeps.prj (by with_reducible assumption) ?_)
    | with_reducible apply Keeps.lit

theorem apertureSend_keeps {s0 : State} {a0} {a1} {a2} {s : State} (h : Keeps s0 s) :
    Keeps s0 (apertureSend a0 a1 a2 s).2 := by
  unfold apertureSend
  repeat' first
    | with_reducible assumption
    | with_reducible apply sendDie_keeps
    | with_reducible apply State.setSite_keeps
    | (intro _)
    | (extract_lets +onlyGivenNames x; try clear_value x)
    | split
    | (refine Keeps.prj (by with_reducible assumption) ?_)
    | with_reducible apply Keeps.lit

theorem apDone_keeps {s0 : State} {a0} {a1} {a2} {a3} {a4} {s : State} (h : Keeps s0 s) :
    Keeps s0 (apDone a0 a1 a2 a3 a4 s) := by
  unfold apDone
  repeat' first
    | with_reducible assumption
    | with_reducible apply sendMsg_keeps
    | (intro _)
    | (extract_lets +onlyGivenNames x; try clear_value x)
    | split
    | (refine Keeps.prj (by with_reducible assumption) ?_)
    | with_reducible apply Keeps.lit

theorem apAnswer_keeps {s0 : State} {a0} {a1} {s : State} (h : Keeps s0 s) :
    Keeps s0 (apAnswer a0 a1 s).2 := by
  unfold apAnswer
  repeat' first
    | with_reducible assumption
    | with_reducible apply apDone_keeps
    | with_reducible apply State.setSite_keeps
    | (intro _)
    | (extract_lets +onlyGivenNames x; try clear_value x)
    | split
    | (refine Keeps.prj (by with_reducible assumption) ?_)
    | with_reducible apply Keeps.lit

theorem apertureOnce_keeps {s0 : State} {a0} {a1} {a2} {s : State} (h : Keeps s0 s) :
    Keeps s0 (apertureOnce a0 a1 a2 s).2 := by
  unfold apertureOnce
  repeat' first
    | with_reducible assumption
    | with_reducible apply takeAns_keeps
    | with_reducible apply apertureSend_keeps
    | (intro _)
    | (extract_lets +onlyGivenNames x; try clear_value x)
    | split
    | (refine Keeps.snd (by with_reducible assumption) ?_)
    | (refine Keeps.prj (by with_reducible assumption) ?_)
    | with_reducible apply Keeps.lit

theorem State.setSlPort_keeps {s0 : State} {s : State} {a1} {a2} (h : Keeps s0 s) :
    Keeps s0 (State.setSlPort s a1 a2) := by
  unfold State.setSlPort
  repeat' first
    | with_reducible assumption
    | (intro _)
    | (refine Keeps.prj (by with_reducible assumption) ?_)
    | with_reducible apply Keeps.lit

theorem slEvent_keeps {s0 : State} {a0} {a1} {a2} {a3} {s : State} (h : Keeps s0 s) :
    Keeps s0 (slEvent a0 a1 a2 a3 s) := by
  unfold slEvent
  repeat' first
    | with_reducible assumption
    | with_reducible apply hubEvent_keeps
    | (intro _)
    | (refine Keeps.prj (by with_reducible assumption) ?_)
    | with_reducible apply Keeps.lit

theorem slPass_keeps {s0 : State} {a0} {s : State} (h : Keeps s0 s) :
    Keeps s0 (slPass a0 s) := by
  unfold slPass
  repeat' first
    | with_reducible assumption
    | with_reducible apply emit_keeps
    | with_reducible apply foldS_keeps
    | with_reducible apply State.setSlPort_keeps
    | (intro _)
    | (extract_lets +onlyGivenNames x; refine Keeps.cut (s0 := s0) (t := x) ?_ (fun hx => ?_) <;> first | (replace hx : Keeps s0 x := hx; clear_value x) | (dsimp only [x]; clear x))
    | (extract_lets +onlyGivenNames x; try clear_value x)
    | split
    | (refine Keeps.prj (by with_reducible assumption) ?_)
    | with_reducible apply Keeps.lit

theorem slRekeyed_keeps {s0 : State} {a0} {s : State} (h : Keeps s0 s) :
    Keeps s0 (slRekeyed a0 s) := by
  unfold slRekeyed
  repeat' first
    | with_reducible assumption
    | with_reducible apply slEvent_keeps
    | with_reducible apply State.setSlPort_keeps
    | (intro _)
    | (extract_lets +onlyGivenNames x; try clear_value x)
    | split
    | (refine Keeps.prj (by with_reducible assumption) ?_)
    | with_reducible apply Keeps.lit

theorem slSwitch_keeps {s0 : State} {a0} {s : State} (h : Keeps s0 s) :
    Keeps s0 (slSwitch a0 s) := by
  unfold slSwitch
  repeat' first
    | with_reducible assumption
    | with_reducible apply slRekeyed_keeps
    | with_reducible apply State.setSlPort_keeps
    | (intro _)
    | (extract_lets +onlyGivenNames x; try clear_value x)
    | split
    | (refine Keeps.prj (by with_reducible assumption) ?_)
    | with_reducible apply Keeps.lit

theorem slPump_keeps {s0 : State} {a0} {s : State} (h : Keeps s0 s) :
    Keeps s0 (slPump a0 s) := by
  unfold slPump
  repeat' first
    | with_reducible assumption
    | with_reducible apply slPass_keeps
    | with_reducible apply slSwitch_keeps
    | (intro _)
    | (refine Keeps.prj (by with_reducible assumption) ?_)
    | with_reducible apply Keeps.lit

theorem slTransmit_keeps {s0 : State} {a0} {a1} {s : State} (h : Keeps s0 s) :
    Keeps s0 (slTransmit a0 a1 s) := by
  unfold slTransmit
  repeat' first
    | with_reducible assumption
    | with_reducible apply slPump_keeps
    | with_reducible apply State.setSlPort_keeps
    | (intro _)
    | (extract_lets +onlyGivenNames x; try clear_value x)
    | (refine Keeps.prj (by with_reducible assumption) ?_)
    | with_reducible apply Keeps.lit

theorem slFence_keeps {s0 : State} {a0} {s : State} (h : Keeps s0 s) :
    Keeps s0 (slFence a0 s) := by
  unfold slFence
  repeat' first
    | with_reducible assumption
    | with_reducible apply slTransmit_keeps
    | with_reducible apply State.setSlPort_keeps
    | (intro _)
    | (extract_lets +onlyGivenNames x; try clear_value x)
    | split
    | (refine Keeps.prj (by with_reducible assumption) ?_)
    | with_reducible apply Keeps.lit

theorem slFenceAll_keeps {s0 : State} {a0} {s : State} (h : Keeps s0 s) :
    Keeps s0 (slFenceAll a0 s) := by
  unfold slFenceAll
  repeat' first
    | with_reducible assumption
    | with_reducible apply foldS_keeps
    | with_reducible apply slFence_keeps
    | (intro _)
    | (refine Keeps.prj (by with_reducible assumption) ?_)
    | with_reducible apply Keeps.lit

theorem slRequest_keeps {s0 : State} {a0} {a1} {a2} {a3} {a4} {a5} {a6} {a7} {s : State} (h : Keeps s0 s) :
    Keeps s0 (slRequest a0 a1 a2 a3 a4 a5 a6 a7 s).2 := by
  unfold slRequest
  repeat' first
    | with_reducible assumption
    | with_reducible apply slFenceAll_keeps
    | with_reducible apply slTransmit_keeps
    | with_reducible apply State.setSlPort_keeps
    | (intro _)
    | (extract_lets +onlyGivenNames x; try clear_value x)
    | split
    | (refine Keeps.prj (by with_reducible assumption) ?_)
    | with_reducible apply Keeps.lit

theorem sysRelease_keeps {s0 : State} {a0} {s : State} (h : Keeps s0 s) :
    Keeps s0 (sysRelease a0 s).2 := by
  unfold sysRelease
  repeat' first
    | with_reducible assumption
    | with_reducible apply foldS_keeps
    | with_reducible apply slFence_keeps
    | (intro _)
    | (refine Keeps.prj (by with_reducible assumption) ?_)
    | with_reducible apply Keeps.lit

theorem windowOnce_keeps {s0 : State} {a0} {a1} {a2} {a3} {a4} {a5} {s : State} (h : Keeps s0 s) :
    Keeps s0 (windowOnce a0 a1 a2 a3 a4 a5 s).2 := by
  unfold windowOnce
  repeat' first
    | with_reducible assumption
    | with_reducible apply takeAns_keeps
    | with_reducible apply slRequest_keeps
    | (intro _)
    | (extract_lets +onlyGivenNames x; try clear_value x)
    | split
    | (refine Keeps.snd (by with_reducible assumption) ?_)
    | (refine Keeps.prj (by with_reducible assumption) ?_)
    | with_reducible apply Keeps.lit

theorem atcLook_keeps {s0 : State} {a0} {a1} {a2} {a3} {s : State} (h : Keeps s0 s) :
    Keeps s0 (atcLook a0 a1 a2 a3 s).2 := by
  unfold atcLook
  repeat' first
    | with_reducible assumption
    | with_reducible apply emit_keeps
    | (intro _)
    | (extract_lets +onlyGivenNames x; try clear_value x)
    | split
    | (refine Keeps.prj (by with_reducible assumption) ?_)
    | with_reducible apply Keeps.lit

theorem hostReadOnce_keeps {s0 : State} {a0} {a1} {a2} {s : State} (h : Keeps s0 s) :
    Keeps s0 (hostReadOnce a0 a1 a2 s).2 := by
  unfold hostReadOnce
  repeat' first
    | with_reducible assumption
    | with_reducible apply takeAns_keeps
    | with_reducible apply atcLook_keeps
    | with_reducible apply emit_keeps
    | (intro _)
    | (extract_lets +onlyGivenNames x; try clear_value x)
    | split
    | (refine Keeps.snd (by with_reducible assumption) ?_)
    | (refine Keeps.prj (by with_reducible assumption) ?_)
    | with_reducible apply Keeps.lit

theorem hostWriteOnce_keeps {s0 : State} {a0} {a1} {a2} {a3} {s : State} (h : Keeps s0 s) :
    Keeps s0 (hostWriteOnce a0 a1 a2 a3 s).2 := by
  unfold hostWriteOnce
  repeat' first
    | with_reducible assumption
    | with_reducible apply atcLook_keeps
    | with_reducible apply emit_keeps
    | (intro _)
    | split
    | (refine Keeps.snd (by with_reducible assumption) ?_)
    | (refine Keeps.prj (by with_reducible assumption) ?_)
    | with_reducible apply Keeps.lit

theorem readPiece_keeps {s0 : State} {a0} {a1} {a2} {s : State} (h : Keeps s0 s) :
    Keeps s0 (readPiece a0 a1 a2 s).2 := by
  unfold readPiece
  repeat' first
    | with_reducible assumption
    | with_reducible apply readLine_keeps
    | with_reducible apply hostReadOnce_keeps
    | with_reducible apply windowOnce_keeps
    | with_reducible apply apertureOnce_keeps
    | (intro _)
    | (extract_lets +onlyGivenNames x; try clear_value x)
    | split
    | (refine Keeps.snd (by with_reducible assumption) ?_)
    | (refine Keeps.prj (by with_reducible assumption) ?_)
    | with_reducible apply Keeps.lit

theorem writePiece_keeps {s0 : State} {a0} {a1} {a2} {a3} {s : State} (h : Keeps s0 s) :
    Keeps s0 (writePiece a0 a1 a2 a3 s).2 := by
  unfold writePiece
  repeat' first
    | with_reducible assumption
    | with_reducible apply writeLine_keeps
    | with_reducible apply hostWriteOnce_keeps
    | with_reducible apply slRequest_keeps
    | with_reducible apply apertureOnce_keeps
    | (intro _)
    | (extract_lets +onlyGivenNames x; try clear_value x)
    | split
    | (refine Keeps.snd (by with_reducible assumption) ?_)
    | (refine Keeps.prj (by with_reducible assumption) ?_)
    | with_reducible apply Keeps.lit

theorem dropWho_keeps {s0 : State} {a0} {s : State} (h : Keeps s0 s) :
    Keeps s0 (dropWho a0 s) := by
  unfold dropWho
  repeat' first
    | with_reducible assumption
    | (intro _)
    | (refine Keeps.prj (by with_reducible assumption) ?_)
    | with_reducible apply Keeps.lit

theorem postedGone_keeps {s0 : State} {a0} {s : State} (h : Keeps s0 s) :
    Keeps s0 (postedGone a0 s) := by
  unfold postedGone
  repeat' first
    | with_reducible assumption
    | (intro _)
    | (extract_lets +onlyGivenNames x; try clear_value x)
    | (refine Keeps.prj (by with_reducible assumption) ?_)
    | with_reducible apply Keeps.lit

theorem postedRun_keeps {s0 : State} {a0} {a1} {s : State} (h : Keeps s0 s) :
    Keeps s0 (postedRun a0 a1 s).2 := by
  unfold postedRun
  repeat' first
    | with_reducible assumption
    | with_reducible apply sysRelease_keeps
    | with_reducible apply writePiece_keeps
    | (intro _)
    | split
    | (refine Keeps.snd (by with_reducible assumption) ?_)
    | (refine Keeps.prj (by with_reducible assumption) ?_)
    | with_reducible apply Keeps.lit

theorem postWrite_keeps {s0 : State} {a0} {a1} {s : State} (h : Keeps s0 s) :
    Keeps s0 (postWrite a0 a1 s).2 := by
  unfold postWrite
  repeat' first
    | with_reducible assumption
    | with_reducible apply postedRun_keeps
    | with_reducible apply dropWho_keeps
    | (intro _)
    | (extract_lets +onlyGivenNames x; refine Keeps.cut (s0 := s0) (t := x) ?_ (fun hx => ?_) <;> first | (replace hx : Keeps s0 x := hx; clear_value x) | (dsimp only [x]; clear x))
    | split
    | (refine Keeps.snd (by with_reducible assumption) ?_)
    | (refine Keeps.prj (by with_reducible assumption) ?_)
    | with_reducible apply Keeps.lit

theorem putBack_keeps {s0 : State} {a0} {a1} {s : State} (h : Keeps s0 s) :
    Keeps s0 (putBack a0 a1 s) := by
  unfold putBack
  repeat' first
    | with_reducible assumption
    | with_reducible apply foldl_keeps
    | with_reducible apply foldl_keeps_snd
    | (intro _)
    | split
    | (refine Keeps.prj (by with_reducible assumption) ?_)
    | with_reducible apply Keeps.lit

theorem readPieces_keeps {s0 : State} {a0} {a1} {a2} {a3} {a4} {s : State} (h : Keeps s0 s) :
    Keeps s0 (readPieces a0 a1 a2 a3 a4 s).2 := by
  revert h
  fun_induction readPieces a0 a1 a2 a3 a4 s
  all_goals intro h
  all_goals repeat' first
    | with_reducible assumption
    | with_reducible apply readPiece_keeps
    | with_reducible apply seen_keeps
    | (refine (show Keeps s0 _ → _ by with_reducible assumption) ?_)
    | (intro _)
    | split
    | (refine Keeps.snd (by with_reducible assumption) ?_)
    | (refine Keeps.prj (by with_reducible assumption) ?_)
    | with_reducible apply Keeps.lit

theorem readRange_keeps {s0 : State} {a0} {a1} {a2} {a3} {s : State} (h : Keeps s0 s) :
    Keeps s0 (readRange a0 a1 a2 a3 s).2 := by
  unfold readRange
  repeat' first
    | with_reducible assumption
    | with_reducible apply readPieces_keeps
    | with_reducible apply putBack_keeps
    | (intro _)
    | split
    | (refine Keeps.snd (by with_reducible assumption) ?_)
    | (refine Keeps.prj (by with_reducible assumption) ?_)
    | with_reducible apply Keeps.lit

theorem writeVa_keeps {s0 : State} {a0} {a1} {a2} {a3} {s : State} (h : Keeps s0 s) :
    Keeps s0 (writeVa a0 a1 a2 a3 s).2 := by
  unfold writeVa
  repeat' first
    | with_reducible assumption
    | with_reducible apply writePiece_keeps
    | with_reducible apply seen_keeps
    | (intro _)
    | split
    | (refine Keeps.snd (by with_reducible assumption) ?_)
    | (refine Keeps.prj (by with_reducible assumption) ?_)
    | with_reducible apply Keeps.lit

theorem vaFault_keeps {s0 : State} {a0} {a1} {a2} {a3} {a4} {a5} {s : State} (h : Keeps s0 s) :
    Keeps s0 (vaFault a0 a1 a2 a3 a4 a5 s) := by
  unfold vaFault
  repeat' first
    | with_reducible assumption
    | with_reducible apply agentFault_keeps
    | (intro _)
    | split
    | (refine Keeps.prj (by with_reducible assumption) ?_)
    | with_reducible apply Keeps.lit

theorem ctxWrite_keeps {s0 : State} {a0} {a1} {a2} {a3} {s : State} {a5} {a6} {a7} (h : Keeps s0 s) :
    Keeps s0 (ctxWrite a0 a1 a2 a3 s a5 a6 a7).2 := by
  unfold ctxWrite
  repeat' first
    | with_reducible assumption
    | with_reducible apply report_keeps
    | with_reducible apply dropWho_keeps
    | with_reducible apply atcLook_keeps
    | with_reducible apply emit_keeps
    | with_reducible apply postWrite_keeps
    | with_reducible apply hf
    | (intro _)
    | (extract_lets +onlyGivenNames x; refine Keeps.cut (s0 := s0) (t := x) ?_ (fun hx => ?_) <;> first | (replace hx : Keeps s0 x := hx; clear_value x) | (dsimp only [x]; clear x))
    | (extract_lets +onlyGivenNames f; refine Keeps.cutF (s0 := s0) (f := f) ?_ (fun hf => ?_) <;> first | (replace hf : ∀ s, Keeps s0 s → Keeps s0 (f s).2 := hf; clear_value f) | (dsimp only [f]; clear f))
    | (extract_lets +onlyGivenNames x; try clear_value x)
    | split
    | (refine Keeps.snd (by with_reducible assumption) ?_)
    | (refine Keeps.prj (by with_reducible assumption) ?_)
    | with_reducible apply Keeps.lit

theorem epochAdvance_keeps {s0 : State} {a0} {s : State} (h : Keeps s0 s) :
    Keeps s0 (epochAdvance a0 s) := by
  unfold epochAdvance
  repeat' first
    | with_reducible assumption
    | with_reducible apply State.setCluster_keeps
    | (intro _)
    | (extract_lets +onlyGivenNames x; try clear_value x)
    | (refine Keeps.prj (by with_reducible assumption) ?_)
    | with_reducible apply Keeps.lit

/-! ### Objects -/

theorem alloc_keeps {s0 : State} {p size align : Nat} {s : State} (h : Keeps s0 s) :
    KeepsO s0 (alloc p size align s) := by
  refine ⟨fun v t e => ?_⟩
  unfold alloc at e
  cases ha : allocAt p size align s with
  | none => rw [ha] at e; cases e
  | some a =>
    rw [ha] at e
    injection e with e
    injection e with _ e
    exact e ▸ Keeps.lit h

theorem freeAlloc_keeps {s0 : State} {a0} {s : State} (h : Keeps s0 s) :
    Keeps s0 (freeAlloc a0 s) := by
  unfold freeAlloc
  repeat' first
    | with_reducible assumption
    | (intro _)
    | (refine Keeps.prj (by with_reducible assumption) ?_)
    | with_reducible apply Keeps.lit

theorem forgetCtx_keeps {s0 : State} {a0} {s : State} (h : Keeps s0 s) :
    Keeps s0 (forgetCtx a0 s) := by
  unfold forgetCtx
  repeat' first
    | with_reducible assumption
    | (intro _)
    | split
    | (refine Keeps.prj (by with_reducible assumption) ?_)
    | with_reducible apply Keeps.lit

theorem ctxTryDestroy_keeps {s0 : State} {a0} {s : State} (h : Keeps s0 s) :
    Keeps s0 (ctxTryDestroy a0 s) := by
  unfold ctxTryDestroy
  repeat' first
    | with_reducible assumption
    | with_reducible apply freeAlloc_keeps
    | with_reducible apply State.touch_keeps
    | with_reducible apply forgetCtx_keeps
    | (intro _)
    | (extract_lets +onlyGivenNames x; refine Keeps.cut (s0 := s0) (t := x) ?_ (fun hx => ?_) <;> first | (replace hx : Keeps s0 x := hx; clear_value x) | (dsimp only [x]; clear x))
    | split
    | (refine Keeps.prj (by with_reducible assumption) ?_)
    | with_reducible apply Keeps.lit

theorem ctxUnref_keeps {s0 : State} {a0} {a1} {s : State} (h : Keeps s0 s) :
    Keeps s0 (ctxUnref a0 a1 s) := by
  unfold ctxUnref
  repeat' first
    | with_reducible assumption
    | with_reducible apply ctxTryDestroy_keeps
    | with_reducible apply State.setCtx_keeps
    | (intro _)
    | split
    | (refine Keeps.prj (by with_reducible assumption) ?_)
    | with_reducible apply Keeps.lit

theorem ctxRef_keeps {s0 : State} {a0} {a1} {s : State} (h : Keeps s0 s) :
    Keeps s0 (ctxRef a0 a1 s) := by
  unfold ctxRef
  repeat' first
    | with_reducible assumption
    | with_reducible apply State.setCtx_keeps
    | (intro _)
    | split
    | (refine Keeps.prj (by with_reducible assumption) ?_)
    | with_reducible apply Keeps.lit

theorem shootCaches_keeps {s0 : State} {a0} {a1} {s : State} (h : Keeps s0 s) :
    Keeps s0 (shootCaches a0 a1 s) := by
  unfold shootCaches
  repeat' first
    | with_reducible assumption
    | with_reducible apply foldS_keeps
    | with_reducible apply statAdd_keeps
    | (intro _)
    | (extract_lets +onlyGivenNames x; refine Keeps.cut (s0 := s0) (t := x) ?_ (fun hx => ?_) <;> first | (replace hx : Keeps s0 x := hx; clear_value x) | (dsimp only [x]; clear x))
    | (extract_lets +onlyGivenNames x; try clear_value x)
    | split
    | (refine Keeps.prj (by with_reducible assumption) ?_)
    | with_reducible apply Keeps.lit

theorem shootAck_keeps {s0 : State} {a0} {s : State} (h : Keeps s0 s) :
    Keeps s0 (shootAck a0 s) := by
  unfold shootAck
  repeat' first
    | with_reducible assumption
    | with_reducible apply State.setCluster_keeps
    | (intro _)
    | (extract_lets +onlyGivenNames x; try clear_value x)
    | (refine Keeps.prj (by with_reducible assumption) ?_)
    | with_reducible apply Keeps.lit

theorem shootStart_keeps {s0 : State} {a0} {a1} {a2} {s : State} (h : Keeps s0 s) :
    Keeps s0 (shootStart a0 a1 a2 s).2 := by
  unfold shootStart
  repeat' first
    | with_reducible assumption
    | with_reducible apply foldS_keeps
    | with_reducible apply shootAck_keeps
    | with_reducible apply shootCaches_keeps
    | (intro _)
    | (extract_lets +onlyGivenNames x; try clear_value x)
    | (refine Keeps.prj (by with_reducible assumption) ?_)
    | with_reducible apply Keeps.lit

theorem segRef_keeps {s0 : State} {a0} {a1} {s : State} (h : Keeps s0 s) :
    Keeps s0 (segRef a0 a1 s) := by
  unfold segRef
  repeat' first
    | with_reducible assumption
    | with_reducible apply State.setCtx_keeps
    | (intro _)
    | split
    | (refine Keeps.prj (by with_reducible assumption) ?_)
    | with_reducible apply Keeps.lit

theorem segUnref_keeps {s0 : State} {a0} {a1} {s : State} (h : Keeps s0 s) :
    Keeps s0 (segUnref a0 a1 s) := by
  unfold segUnref
  repeat' first
    | with_reducible assumption
    | with_reducible apply State.setCtx_keeps
    | with_reducible apply ctxTryDestroy_keeps
    | with_reducible apply freeAlloc_keeps
    | with_reducible apply foldS_keeps
    | with_reducible apply shootAck_keeps
    | with_reducible apply shootCaches_keeps
    | (intro _)
    | (extract_lets +onlyGivenNames x; refine Keeps.cut (s0 := s0) (t := x) ?_ (fun hx => ?_) <;> first | (replace hx : Keeps s0 x := hx; clear_value x) | (dsimp only [x]; clear x))
    | (extract_lets +onlyGivenNames x; try clear_value x)
    | split
    | (refine Keeps.prj (by with_reducible assumption) ?_)
    | with_reducible apply Keeps.lit

theorem unrefAt_keeps {s0 : State} {a0} {a1} {s : State} (h : Keeps s0 s) :
    Keeps s0 (unrefAt a0 a1 s) := by
  unfold unrefAt
  repeat' first
    | with_reducible assumption
    | with_reducible apply segUnref_keeps
    | (intro _)
    | split
    | (refine Keeps.prj (by with_reducible assumption) ?_)
    | with_reducible apply Keeps.lit

theorem mirrorWrite_keeps {s0 : State} {a0} {s : State} (h : Keeps s0 s) :
    Keeps s0 (mirrorWrite a0 s) := by
  unfold mirrorWrite
  repeat' first
    | with_reducible assumption
    | with_reducible apply ctxWrite_keeps
    | with_reducible apply vaFault_keeps
    | (intro _)
    | split
    | (refine Keeps.snd (by with_reducible assumption) ?_)
    | (refine Keeps.prj (by with_reducible assumption) ?_)
    | with_reducible apply Keeps.lit

theorem fenceUnref_keeps {s0 : State} {a0} {a1} {s : State} (h : Keeps s0 s) :
    Keeps s0 (fenceUnref a0 a1 s) := by
  unfold fenceUnref
  repeat' first
    | with_reducible assumption
    | with_reducible apply State.touch_keeps
    | with_reducible apply unrefAt_keeps
    | with_reducible apply freeAlloc_keeps
    | with_reducible apply ctxUnref_keeps
    | with_reducible apply State.setFence_keeps
    | (intro _)
    | (extract_lets +onlyGivenNames x; refine Keeps.cut (s0 := s0) (t := x) ?_ (fun hx => ?_) <;> first | (replace hx : Keeps s0 x := hx; clear_value x) | (dsimp only [x]; clear x))
    | (extract_lets +onlyGivenNames x; try clear_value x)
    | split
    | (refine Keeps.prj (by with_reducible assumption) ?_)
    | with_reducible apply Keeps.lit

theorem rewait_keeps {s0 : State} {a0} {s : State} (h : Keeps s0 s) :
    Keeps s0 (rewait a0 s) := by
  unfold rewait
  repeat' first
    | with_reducible assumption
    | with_reducible apply foldS_keeps
    | with_reducible apply State.setQueue_keeps
    | with_reducible apply fenceUnref_keeps
    | with_reducible apply State.setFence_keeps
    | with_reducible apply foldl_keeps
    | with_reducible apply foldl_keeps_snd
    | (intro _)
    | (extract_lets +onlyGivenNames x; refine Keeps.cut (s0 := s0) (t := x) ?_ (fun hx => ?_) <;> first | (replace hx : Keeps s0 x := hx; clear_value x) | (dsimp only [x]; clear x))
    | (extract_lets +onlyGivenNames x; try clear_value x)
    | split
    | (refine Keeps.prj (by with_reducible assumption) ?_)
    | with_reducible apply Keeps.lit

theorem fenceChanged_keeps {s0 : State} {a0} {s : State} (h : Keeps s0 s) :
    Keeps s0 (fenceChanged a0 s) := by
  unfold fenceChanged
  repeat' first
    | with_reducible assumption
    | with_reducible apply rewait_keeps
    | with_reducible apply mirrorWrite_keeps
    | (intro _)
    | (refine Keeps.prj (by with_reducible assumption) ?_)
    | with_reducible apply Keeps.lit

theorem fenceSignal_keeps {s0 : State} {a0} {a1} {s : State} (h : Keeps s0 s) :
    Keeps s0 (fenceSignal a0 a1 s) := by
  unfold fenceSignal
  repeat' first
    | with_reducible assumption
    | with_reducible apply State.setFence_keeps
    | with_reducible apply fenceChanged_keeps
    | (intro _)
    | split
    | (refine Keeps.prj (by with_reducible assumption) ?_)
    | with_reducible apply Keeps.lit

theorem fenceReset_keeps {s0 : State} {a0} {s : State} (h : Keeps s0 s) :
    Keeps s0 (fenceReset a0 s) := by
  unfold fenceReset
  repeat' first
    | with_reducible assumption
    | with_reducible apply State.setFence_keeps
    | with_reducible apply fenceChanged_keeps
    | (intro _)
    | split
    | (refine Keeps.prj (by with_reducible assumption) ?_)
    | with_reducible apply Keeps.lit

theorem forceSignal_keeps {s0 : State} {a0} {s : State} (h : Keeps s0 s) :
    Keeps s0 (forceSignal a0 s) := by
  unfold forceSignal
  repeat' first
    | with_reducible assumption
    | with_reducible apply fenceChanged_keeps
    | with_reducible apply State.setFence_keeps
    | (intro _)
    | split
    | (refine Keeps.prj (by with_reducible assumption) ?_)
    | with_reducible apply Keeps.lit

theorem queueUnref_keeps {s0 : State} {a0} {a1} {s : State} (h : Keeps s0 s) :
    Keeps s0 (queueUnref a0 a1 s) := by
  unfold queueUnref
  repeat' first
    | with_reducible assumption
    | with_reducible apply freeAlloc_keeps
    | with_reducible apply State.touch_keeps
    | with_reducible apply foldS_keeps
    | with_reducible apply segUnref_keeps
    | with_reducible apply ctxUnref_keeps
    | with_reducible apply State.setQueue_keeps
    | (intro _)
    | (extract_lets +onlyGivenNames x; refine Keeps.cut (s0 := s0) (t := x) ?_ (fun hx => ?_) <;> first | (replace hx : Keeps s0 x := hx; clear_value x) | (dsimp only [x]; clear x))
    | (extract_lets +onlyGivenNames x; try clear_value x)
    | split
    | (refine Keeps.prj (by with_reducible assumption) ?_)
    | with_reducible apply Keeps.lit

theorem queueWord_keeps {s0 : State} {a0} {s : State} (h : Keeps s0 s) :
    Keeps s0 (queueWord a0 s) := by
  unfold queueWord
  repeat' first
    | with_reducible assumption
    | with_reducible apply ctxWrite_keeps
    | with_reducible apply vaFault_keeps
    | (intro _)
    | split
    | (refine Keeps.snd (by with_reducible assumption) ?_)
    | (refine Keeps.prj (by with_reducible assumption) ?_)
    | with_reducible apply Keeps.lit

theorem flightUnref_keeps {s0 : State} {a0} {a1} {s : State} (h : Keeps s0 s) :
    Keeps s0 (flightUnref a0 a1 s) := by
  unfold flightUnref
  repeat' first
    | with_reducible assumption
    | with_reducible apply foldS_keeps
    | with_reducible apply State.setFence_keeps
    | with_reducible apply fenceUnref_keeps
    | with_reducible apply segUnref_keeps
    | with_reducible apply queueUnref_keeps
    | with_reducible apply ctxUnref_keeps
    | (intro _)
    | (extract_lets +onlyGivenNames x; refine Keeps.cut (s0 := s0) (t := x) ?_ (fun hx => ?_) <;> first | (replace hx : Keeps s0 x := hx; clear_value x) | (dsimp only [x]; clear x))
    | split
    | (refine Keeps.prj (by with_reducible assumption) ?_)
    | with_reducible apply Keeps.lit

theorem flightDone_keeps {s0 : State} {a0} {a1} {a2} {s : State} (h : Keeps s0 s) :
    Keeps s0 (flightDone a0 a1 a2 s) := by
  unfold flightDone
  repeat' first
    | with_reducible assumption
    | with_reducible apply State.setQueue_keeps
    | (intro _)
    | split
    | (refine Keeps.prj (by with_reducible assumption) ?_)
    | with_reducible apply Keeps.lit

theorem foldTraffic_keeps {s0 : State} {a0} {s : State} (h : Keeps s0 s) :
    Keeps s0 (foldTraffic a0 s) := by
  unfold foldTraffic
  repeat' first
    | with_reducible assumption
    | with_reducible apply State.setCtx_keeps
    | (intro _)
    | (extract_lets +onlyGivenNames x; refine Keeps.cut (s0 := s0) (t := x) ?_ (fun hx => ?_) <;> first | (replace hx : Keeps s0 x := hx; clear_value x) | (dsimp only [x]; clear x))
    | split
    | (refine Keeps.prj (by with_reducible assumption) ?_)
    | with_reducible apply Keeps.lit

theorem flightEnds_keeps {s0 : State} {a0} {a1} {a2} {s : State} (h : Keeps s0 s) :
    Keeps s0 (flightEnds a0 a1 a2 s) := by
  unfold flightEnds
  repeat' first
    | with_reducible assumption
    | with_reducible apply flightDone_keeps
    | with_reducible apply State.setQueue_keeps
    | (intro _)
    | split
    | (refine Keeps.prj (by with_reducible assumption) ?_)
    | with_reducible apply Keeps.lit

theorem settleEndings_keeps {s0 : State} {s : State} (h : Keeps s0 s) :
    Keeps s0 (settleEndings s) := by
  unfold settleEndings
  repeat' first
    | with_reducible assumption
    | with_reducible apply foldS_keeps
    | with_reducible apply flightDone_keeps
    | (intro _)
    | split
    | (refine Keeps.prj (by with_reducible assumption) ?_)
    | with_reducible apply Keeps.lit

theorem launchBad_keeps {s0 : State} {a0} {s : State} (h : Keeps s0 s) :
    Keeps s0 (launchBad a0 s) := by
  unfold launchBad
  repeat' first
    | with_reducible assumption
    | with_reducible apply State.setQueue_keeps
    | (intro _)
    | (extract_lets +onlyGivenNames x; refine Keeps.cut (s0 := s0) (t := x) ?_ (fun hx => ?_) <;> first | (replace hx : Keeps s0 x := hx; clear_value x) | (dsimp only [x]; clear x))
    | split
    | (refine Keeps.prj (by with_reducible assumption) ?_)
    | with_reducible apply Keeps.lit

theorem launchReport_keeps {s0 : State} {a0} {a1} {a2} {a3} {a4} {s : State} (h : Keeps s0 s) :
    Keeps s0 (launchReport a0 a1 a2 a3 a4 s).2 := by
  unfold launchReport
  repeat' first
    | with_reducible assumption
    | with_reducible apply ctxWrite_keeps
    | with_reducible apply vaFault_keeps
    | (intro _)
    | split
    | (refine Keeps.snd (by with_reducible assumption) ?_)
    | (refine Keeps.prj (by with_reducible assumption) ?_)
    | with_reducible apply Keeps.lit

theorem launchFinish_keeps {s0 : State} {a0} {s : State} (h : Keeps s0 s) :
    Keeps s0 (launchFinish a0 s) := by
  unfold launchFinish
  repeat' first
    | with_reducible assumption
    | with_reducible apply sysRelease_keeps
    | with_reducible apply launchReport_keeps
    | with_reducible apply State.setCtx_keeps
    | with_reducible apply flightEnds_keeps
    | with_reducible apply foldTraffic_keeps
    | with_reducible apply foldl_keeps
    | with_reducible apply foldl_keeps_snd
    | (intro _)
    | (extract_lets +onlyGivenNames x; refine Keeps.cut (s0 := s0) (t := x) ?_ (fun hx => ?_) <;> first | (replace hx : Keeps s0 x := hx; clear_value x) | (dsimp only [x]; clear x))
    | (extract_lets +onlyGivenNames x; try clear_value x)
    | split
    | (refine Keeps.snd (by with_reducible assumption) ?_)
    | (refine Keeps.prj (by with_reducible assumption) ?_)
    | with_reducible apply Keeps.lit

theorem settleLaunches_keeps {s0 : State} {s : State} (h : Keeps s0 s) :
    Keeps s0 (settleLaunches s) := by
  unfold settleLaunches
  repeat' first
    | with_reducible assumption
    | with_reducible apply foldS_keeps
    | with_reducible apply launchFinish_keeps
    | (intro _)
    | (refine Keeps.prj (by with_reducible assumption) ?_)
    | with_reducible apply Keeps.lit

theorem engineFault_keeps {s0 : State} {a0} {a1} {a2} {s : State} {a4} {a5} {a6} {a7} (h : Keeps s0 s) :
    Keeps s0 (engineFault a0 a1 a2 s a4 a5 a6 a7) := by
  unfold engineFault
  repeat' first
    | with_reducible assumption
    | with_reducible apply settleLaunches_keeps
    | with_reducible apply coreFault_keeps
    | (intro _)
    | (refine Keeps.prj (by with_reducible assumption) ?_)
    | with_reducible apply Keeps.lit

/-! ### Packet -/

theorem replyTo'_keeps {s0 : State} {a0} {a1} {a2} {a3} {a4} {s : State} (h : Keeps s0 s) :
    Keeps s0 (replyTo' a0 a1 a2 a3 a4 s) := by
  unfold replyTo'
  repeat' first
    | with_reducible assumption
    | with_reducible apply report_keeps
    | with_reducible apply partEvent_keeps
    | with_reducible apply hubEvent_keeps
    | (intro _)
    | (extract_lets +onlyGivenNames x; refine Keeps.cut (s0 := s0) (t := x) ?_ (fun hx => ?_) <;> first | (replace hx : Keeps s0 x := hx; clear_value x) | (dsimp only [x]; clear x))
    | (extract_lets +onlyGivenNames x; try clear_value x)
    | split
    | (refine Keeps.prj (by with_reducible assumption) ?_)
    | with_reducible apply Keeps.lit

theorem shootRestore_keeps {s0 : State} {a0} {s : State} (h : Keeps s0 s) :
    Keeps s0 (shootRestore a0 s) := by
  unfold shootRestore
  repeat' first
    | with_reducible assumption
    | with_reducible apply State.setCtx_keeps
    | with_reducible apply foldl_keeps
    | with_reducible apply foldl_keeps_snd
    | (intro _)
    | (extract_lets +onlyGivenNames x; try clear_value x)
    | split
    | (refine Keeps.prj (by with_reducible assumption) ?_)
    | with_reducible apply Keeps.lit

theorem unprep_keeps {s0 : State} {a0} {s : State} (h : Keeps s0 s) :
    Keeps s0 (unprep a0 s) := by
  unfold unprep
  repeat' first
    | with_reducible assumption
    | with_reducible apply foldS_keeps
    | with_reducible apply shootRestore_keeps
    | (intro _)
    | (extract_lets +onlyGivenNames x; refine Keeps.cut (s0 := s0) (t := x) ?_ (fun hx => ?_) <;> first | (replace hx : Keeps s0 x := hx; clear_value x) | (dsimp only [x]; clear x))
    | (extract_lets +onlyGivenNames x; try clear_value x)
    | split
    | (refine Keeps.prj (by with_reducible assumption) ?_)
    | with_reducible apply Keeps.lit

theorem reply_keeps {s0 : State} {a0} {a1} {a2} {s : State} (h : Keeps s0 s) :
    Keeps s0 (reply a0 a1 a2 s) := by
  unfold reply
  repeat' first
    | with_reducible assumption
    | with_reducible apply replyTo'_keeps
    | (intro _)
    | (refine Keeps.prj (by with_reducible assumption) ?_)
    | with_reducible apply Keeps.lit

theorem directPacket_keeps {s0 : State} {a0} {a1} {a2} {a3} {s : State} {a5} (h3 : ∀ s, Keeps s0 s → Keeps s0 (a3 s).2) (h : Keeps s0 s) :
    Keeps s0 (directPacket a0 a1 a2 a3 s a5) := by
  unfold directPacket
  repeat' first
    | with_reducible assumption
    | with_reducible apply reply_keeps
    | with_reducible apply h3
    | (intro _)
    | split
    | (refine Keeps.prj (by with_reducible assumption) ?_)
    | with_reducible apply Keeps.lit

theorem stampAll_keeps {s0 : State} {a0} {a1} {s : State} (h : Keeps s0 s) :
    Keeps s0 (stampAll a0 a1 s) := by
  unfold stampAll
  repeat' first
    | with_reducible assumption
    | with_reducible apply State.stamp_keeps
    | with_reducible apply foldl_keeps
    | with_reducible apply foldl_keeps_snd
    | (intro _)
    | (extract_lets +onlyGivenNames x; refine Keeps.cut (s0 := s0) (t := x) ?_ (fun hx => ?_) <;> first | (replace hx : Keeps s0 x := hx; clear_value x) | (dsimp only [x]; clear x))
    | split
    | (refine Keeps.prj (by with_reducible assumption) ?_)
    | with_reducible apply Keeps.lit

theorem changeStart_keeps {s0 : State} {a0} {a1} {a2} {a3} {a4} {a5} {s : State} (h4 : ∀ b0 s, Keeps s0 s → Keeps s0 (a4 b0 s)) (h5 : ∀ b0 s, Keeps s0 s → Keeps s0 (a5 b0 s).2) (h : Keeps s0 s) :
    Keeps s0 (changeStart a0 a1 a2 a3 a4 a5 s) := by
  unfold changeStart
  repeat' first
    | with_reducible assumption
    | with_reducible apply unprep_keeps
    | with_reducible apply reply_keeps
    | with_reducible apply stampAll_keeps
    | with_reducible apply h4
    | with_reducible apply h5
    | (intro _)
    | (extract_lets +onlyGivenNames x; refine Keeps.cut (s0 := s0) (t := x) ?_ (fun hx => ?_) <;> first | (replace hx : Keeps s0 x := hx; clear_value x) | (dsimp only [x]; clear x))
    | split
    | (refine Keeps.prj (by with_reducible assumption) ?_)
    | with_reducible apply Keeps.lit

theorem noPrep_keeps {s0 : State} {a0} {s : State} (h : Keeps s0 s) :
    Keeps s0 (noPrep a0 s) := by
  unfold noPrep
  repeat' first
    | with_reducible assumption
    | (intro _)
    | (refine Keeps.prj (by with_reducible assumption) ?_)
    | with_reducible apply Keeps.lit

theorem stageAdd_keeps {s0 : State} {a0} {a1} {a2} {a3} {a4} {a5} {s : State} (h : Keeps s0 s) :
    Keeps s0 (stageAdd a0 a1 a2 a3 a4 a5 s) := by
  unfold stageAdd
  repeat' first
    | with_reducible assumption
    | with_reducible apply reply_keeps
    | with_reducible apply replyTo'_keeps
    | (intro _)
    | (extract_lets +onlyGivenNames x; try clear_value x)
    | split
    | (refine Keeps.prj (by with_reducible assumption) ?_)
    | with_reducible apply Keeps.lit

theorem stagePacket_keeps {s0 : State} {p : Pkt} {i : OpInfo} {lenOk : Bool} {form : State → Option OpRes} {op : StageOp}
    {bytes : Nat} {reserve : State → Option (Option Nat)} {objs : State → List Nat}
    {act : Option Nat → State → OpRes × State} {s : State} {prep : Pkt → State → State}
    (ha : ∀ i s, Keeps s0 s → Keeps s0 (act i s).2) (hp : ∀ p s, Keeps s0 s → Keeps s0 (prep p s)) (h : Keeps s0 s) :
    Keeps s0 (stagePacket p i lenOk form op bytes reserve objs act s prep) := by
  have r : ∀ o, Keeps s0 (reply p i.code o s) := fun _ => reply_keeps h
  have k : ∀ c b o t, Keeps s0 (stageAdd p c op b o t s) := fun _ _ _ _ => stageAdd_keeps h
  unfold stagePacket
  split
  · exact h
  split
  · exact r _
  split
  · split
    · exact r _
    · dsimp only
      split
      · exact changeStart_keeps hp ha h
      · exact r _
  split
  · exact r _
  repeat (split; · exact r _)
  exact k _ _ _ _

/-! ### Posted -/

theorem postedFail_keeps {s0 : State} {a0} {a1} {a2} {s : State} (h : Keeps s0 s) :
    Keeps s0 (postedFail a0 a1 a2 s) := by
  unfold postedFail
  repeat' first
    | with_reducible assumption
    | with_reducible apply engineFault_keeps
    | with_reducible apply settleLaunches_keeps
    | with_reducible apply ctxFault_keeps
    | with_reducible apply agentFault_keeps
    | with_reducible apply launchBad_keeps
    | (intro _)
    | (extract_lets +onlyGivenNames x; refine Keeps.cut (s0 := s0) (t := x) ?_ (fun hx => ?_) <;> first | (replace hx : Keeps s0 x := hx; clear_value x) | (dsimp only [x]; clear x))
    | (extract_lets +onlyGivenNames x; try clear_value x)
    | split
    | (refine Keeps.prj (by with_reducible assumption) ?_)
    | with_reducible apply Keeps.lit

theorem postedDrop_keeps {s0 : State} {a0} {s : State} (h : Keeps s0 s) :
    Keeps s0 (postedDrop a0 s) := by
  unfold postedDrop
  repeat' first
    | with_reducible assumption
    | (intro _)
    | (refine Keeps.prj (by with_reducible assumption) ?_)
    | with_reducible apply Keeps.lit

theorem postedStep_keeps {s0 : State} {a0} {s : State} (h : Keeps s0 s) :
    Keeps s0 (postedStep a0 s) := by
  unfold postedStep
  repeat' first
    | with_reducible assumption
    | with_reducible apply postedRun_keeps
    | with_reducible apply postedDrop_keeps
    | with_reducible apply postedFail_keeps
    | (intro _)
    | split
    | (refine Keeps.snd (by with_reducible assumption) ?_)
    | (refine Keeps.prj (by with_reducible assumption) ?_)
    | with_reducible apply Keeps.lit

theorem settlePosted_keeps {s0 : State} {s : State} (h : Keeps s0 s) :
    Keeps s0 (settlePosted s) := by
  unfold settlePosted
  repeat' first
    | with_reducible assumption
    | with_reducible apply settleLaunches_keeps
    | with_reducible apply settleEndings_keeps
    | with_reducible apply foldS_keeps
    | with_reducible apply postedStep_keeps
    | (intro _)
    | split
    | (refine Keeps.prj (by with_reducible assumption) ?_)
    | with_reducible apply Keeps.lit

theorem parkedRun_keeps {s0 : State} {a0} {s : State} (h : Keeps s0 s) :
    Keeps s0 (parkedRun a0 s) := by
  revert h
  fun_induction parkedRun a0 s
  all_goals intro h
  all_goals repeat' first
    | with_reducible assumption
    | with_reducible apply intxEval_keeps
    | with_reducible apply atcLook_keeps
    | with_reducible apply postedDrop_keeps
    | with_reducible apply emit_keeps
    | with_reducible apply postedFail_keeps
    | (refine (show Keeps s0 _ → _ by with_reducible assumption) ?_)
    | (intro _)
    | split
    | (refine Keeps.snd (by with_reducible assumption) ?_)
    | (refine Keeps.prj (by with_reducible assumption) ?_)
    | with_reducible apply Keeps.lit

theorem releaseParked_keeps {s0 : State} {s : State} (h : Keeps s0 s) :
    Keeps s0 (releaseParked s) := by
  unfold releaseParked
  repeat' first
    | with_reducible assumption
    | with_reducible apply settleEndings_keeps
    | with_reducible apply parkedRun_keeps
    | (intro _)
    | split
    | (refine Keeps.prj (by with_reducible assumption) ?_)
    | with_reducible apply Keeps.lit

/-! ### Translation -/

theorem actCtxCreate_keeps {s0 : State} {a0} {a1} {a2} {a3} {a4} {s : State} (h : Keeps s0 s) :
    Keeps s0 (actCtxCreate a0 a1 a2 a3 a4 s).2 := by
  unfold actCtxCreate
  repeat' first
    | with_reducible assumption
    | with_reducible apply alloc_keeps
    | with_reducible apply State.setCtx_keeps
    | (intro _)
    | split
    | (refine Keeps.opt (by with_reducible assumption) ?_)
    | (refine Keeps.prj (by with_reducible assumption) ?_)
    | with_reducible apply Keeps.lit

theorem execCtxCreate_keeps {s0 : State} {a0} {a1} {a2} {a3} {s : State} (h : Keeps s0 s) :
    KeepsX s0 (execCtxCreate a0 a1 a2 a3 s) := by
  unfold execCtxCreate
  repeat' first
    | with_reducible assumption
    | with_reducible apply KeepsX.next
    | with_reducible apply stagePacket_keeps
    | with_reducible apply actCtxCreate_keeps
    | with_reducible apply noPrep_keeps
    | (intro _)
    | (refine Keeps.snd (by with_reducible assumption) ?_)
    | (refine Keeps.prj (by with_reducible assumption) ?_)
    | with_reducible apply Keeps.lit

theorem actCtxDestroy_keeps {s0 : State} {a0} {a1} {s : State} (h : Keeps s0 s) :
    Keeps s0 (actCtxDestroy a0 a1 s).2 := by
  unfold actCtxDestroy
  repeat' first
    | with_reducible assumption
    | with_reducible apply ctxUnref_keeps
    | with_reducible apply State.setCtx_keeps
    | (intro _)
    | split
    | (refine Keeps.prj (by with_reducible assumption) ?_)
    | with_reducible apply Keeps.lit

theorem execCtxDestroy_keeps {s0 : State} {a0} {a1} {s : State} (h : Keeps s0 s) :
    KeepsX s0 (execCtxDestroy a0 a1 s) := by
  unfold execCtxDestroy
  repeat' first
    | with_reducible assumption
    | with_reducible apply KeepsX.next
    | with_reducible apply stagePacket_keeps
    | with_reducible apply actCtxDestroy_keeps
    | with_reducible apply noPrep_keeps
    | (intro _)
    | (refine Keeps.snd (by with_reducible assumption) ?_)
    | (refine Keeps.prj (by with_reducible assumption) ?_)
    | with_reducible apply Keeps.lit

theorem actCtxQuery_keeps {s0 : State} {a0} {a1} {s : State} (h : Keeps s0 s) :
    Keeps s0 (actCtxQuery a0 a1 s).2 := by
  unfold actCtxQuery
  repeat' first
    | with_reducible assumption
    | (intro _)
    | split
    | (refine Keeps.prj (by with_reducible assumption) ?_)
    | with_reducible apply Keeps.lit

theorem execCtxQuery_keeps {s0 : State} {a0} {a1} {s : State} (h : Keeps s0 s) :
    KeepsX s0 (execCtxQuery a0 a1 s) := by
  unfold execCtxQuery
  repeat' first
    | with_reducible assumption
    | with_reducible apply KeepsX.next
    | with_reducible apply directPacket_keeps
    | with_reducible apply actCtxQuery_keeps
    | (intro _)
    | (refine Keeps.snd (by with_reducible assumption) ?_)
    | (refine Keeps.prj (by with_reducible assumption) ?_)
    | with_reducible apply Keeps.lit

theorem actSegSet_keeps {s0 : State} {a0} {a1} {a2} {a3} {s : State} (h : Keeps s0 s) :
    Keeps s0 (actSegSet a0 a1 a2 a3 s).2 := by
  unfold actSegSet
  repeat' first
    | with_reducible assumption
    | with_reducible apply alloc_keeps
    | with_reducible apply State.setCtx_keeps
    | (intro _)
    | (extract_lets +onlyGivenNames x; try clear_value x)
    | split
    | (refine Keeps.opt (by with_reducible assumption) ?_)
    | (refine Keeps.prj (by with_reducible assumption) ?_)
    | with_reducible apply Keeps.lit

theorem execSegSet_keeps {s0 : State} {a0} {a1} {a2} {a3} {s : State} (h : Keeps s0 s) :
    KeepsX s0 (execSegSet a0 a1 a2 a3 s) := by
  unfold execSegSet
  repeat' first
    | with_reducible assumption
    | with_reducible apply KeepsX.next
    | with_reducible apply stagePacket_keeps
    | with_reducible apply actSegSet_keeps
    | with_reducible apply noPrep_keeps
    | (intro _)
    | (refine Keeps.snd (by with_reducible assumption) ?_)
    | (refine Keeps.prj (by with_reducible assumption) ?_)
    | with_reducible apply Keeps.lit

theorem mapCount_keeps {s0 : State} {a0} {a1} {a2} {s : State} (h : Keeps s0 s) :
    Keeps s0 (mapCount a0 a1 a2 s) := by
  unfold mapCount
  repeat' first
    | with_reducible assumption
    | with_reducible apply foldS_keeps
    | with_reducible apply State.setGran_keeps
    | (intro _)
    | (extract_lets +onlyGivenNames x; try clear_value x)
    | split
    | (refine Keeps.prj (by with_reducible assumption) ?_)
    | with_reducible apply Keeps.lit

theorem actSegClear_keeps {s0 : State} {a0} {a1} {a2} {s : State} (h : Keeps s0 s) :
    Keeps s0 (actSegClear a0 a1 a2 s).2 := by
  unfold actSegClear
  repeat' first
    | with_reducible assumption
    | with_reducible apply State.setCtx_keeps
    | with_reducible apply ctxTryDestroy_keeps
    | with_reducible apply freeAlloc_keeps
    | (intro _)
    | (extract_lets +onlyGivenNames x; refine Keeps.cut (s0 := s0) (t := x) ?_ (fun hx => ?_) <;> first | (replace hx : Keeps s0 x := hx; clear_value x) | (dsimp only [x]; clear x))
    | split
    | (refine Keeps.prj (by with_reducible assumption) ?_)
    | with_reducible apply Keeps.lit

theorem prepSegClear_keeps {s0 : State} {a0} {a1} {a2} {s : State} (h : Keeps s0 s) :
    Keeps s0 (prepSegClear a0 a1 a2 s) := by
  unfold prepSegClear
  repeat' first
    | with_reducible assumption
    | with_reducible apply shootStart_keeps
    | with_reducible apply State.setCtx_keeps
    | (intro _)
    | split
    | (refine Keeps.snd (by with_reducible assumption) ?_)
    | (refine Keeps.prj (by with_reducible assumption) ?_)
    | with_reducible apply Keeps.lit

theorem execSegClear_keeps {s0 : State} {a0} {a1} {a2} {s : State} (h : Keeps s0 s) :
    KeepsX s0 (execSegClear a0 a1 a2 s) := by
  unfold execSegClear
  repeat' first
    | with_reducible assumption
    | with_reducible apply KeepsX.next
    | with_reducible apply stagePacket_keeps
    | with_reducible apply actSegClear_keeps
    | with_reducible apply prepSegClear_keeps
    | (intro _)
    | (refine Keeps.snd (by with_reducible assumption) ?_)
    | (refine Keeps.prj (by with_reducible assumption) ?_)
    | with_reducible apply Keeps.lit

theorem mapFrames_keeps {s0 : State} {a0} {a1} {a2} {a3} {a4} {a5} {a6} {a7} {s : State} (h : Keeps s0 s) :
    Keeps s0 (mapFrames a0 a1 a2 a3 a4 a5 a6 a7 s).2 := by
  revert h
  fun_induction mapFrames a0 a1 a2 a3 a4 a5 a6 a7 s
  all_goals intro h
  all_goals repeat' first
    | with_reducible assumption
    | with_reducible apply State.setCtx_keeps
    | with_reducible apply mapCount_keeps
    | (refine (show Keeps s0 _ → _ by with_reducible assumption) ?_)
    | (intro _)
    | split
    | (refine Keeps.snd (by with_reducible assumption) ?_)
    | (refine Keeps.prj (by with_reducible assumption) ?_)
    | with_reducible apply Keeps.lit

theorem actMap_keeps {s0 : State} {a0} {a1} {a2} {a3} {a4} {s : State} (h : Keeps s0 s) :
    Keeps s0 (actMap a0 a1 a2 a3 a4 s).2 := by
  unfold actMap
  repeat' first
    | with_reducible assumption
    | with_reducible apply mapFrames_keeps
    | (intro _)
    | split
    | (refine Keeps.snd (by with_reducible assumption) ?_)
    | (refine Keeps.prj (by with_reducible assumption) ?_)
    | with_reducible apply Keeps.lit

theorem execMap_keeps {s0 : State} {a0} {a1} {a2} {a3} {a4} {s : State} (h : Keeps s0 s) :
    KeepsX s0 (execMap a0 a1 a2 a3 a4 s) := by
  unfold execMap
  repeat' first
    | with_reducible assumption
    | with_reducible apply KeepsX.next
    | with_reducible apply reply_keeps
    | with_reducible apply stagePacket_keeps
    | with_reducible apply actMap_keeps
    | with_reducible apply noPrep_keeps
    | (intro _)
    | (extract_lets +onlyGivenNames x; try clear_value x)
    | split
    | (refine Keeps.snd (by with_reducible assumption) ?_)
    | (refine Keeps.prj (by with_reducible assumption) ?_)
    | with_reducible apply Keeps.lit

theorem withdraw_keeps {s0 : State} {a0} {a1} {a2} {a3} {s : State} (h : Keeps s0 s) :
    Keeps s0 (withdraw a0 a1 a2 a3 s).2.2 := by
  unfold withdraw
  repeat' first
    | with_reducible assumption
    | with_reducible apply State.setCtx_keeps
    | (intro _)
    | (extract_lets +onlyGivenNames x; try clear_value x)
    | split
    | (refine Keeps.prj (by with_reducible assumption) ?_)
    | with_reducible apply Keeps.lit

theorem shootBegin_keeps {s0 : State} {a0} {s : State} (h : Keeps s0 s) :
    Keeps s0 (shootBegin a0 s).2 := by
  unfold shootBegin
  repeat' first
    | with_reducible assumption
    | with_reducible apply withdraw_keeps
    | with_reducible apply shootStart_keeps
    | (intro _)
    | (extract_lets +onlyGivenNames x; try clear_value x)
    | split
    | (refine Keeps.snd (by with_reducible assumption) ?_)
    | (refine Keeps.snd2 (by with_reducible assumption) ?_)
    | (refine Keeps.prj (by with_reducible assumption) ?_)
    | with_reducible apply Keeps.lit

theorem prepUnmap_keeps {s0 : State} {a0} {a1} {a2} {a3} {a4} {s : State} (h : Keeps s0 s) :
    Keeps s0 (prepUnmap a0 a1 a2 a3 a4 s) := by
  unfold prepUnmap
  repeat' first
    | with_reducible assumption
    | with_reducible apply shootBegin_keeps
    | (intro _)
    | split
    | (refine Keeps.snd (by with_reducible assumption) ?_)
    | (refine Keeps.prj (by with_reducible assumption) ?_)
    | with_reducible apply Keeps.lit

theorem settleShoots_keeps {s0 : State} {s : State} (h : Keeps s0 s) :
    Keeps s0 (settleShoots s) := by
  unfold settleShoots
  repeat' first
    | with_reducible assumption
    | with_reducible apply shootBegin_keeps
    | with_reducible apply foldl_keeps
    | with_reducible apply foldl_keeps_snd
    | (intro _)
    | (extract_lets +onlyGivenNames x; try clear_value x)
    | split
    | (refine Keeps.snd (by with_reducible assumption) ?_)
    | (refine Keeps.prj (by with_reducible assumption) ?_)
    | with_reducible apply Keeps.lit

theorem actUnmap_keeps {s0 : State} {a0} {a1} {a2} {a3} {a4} {s : State} (h : Keeps s0 s) :
    Keeps s0 (actUnmap a0 a1 a2 a3 a4 s).2 := by
  unfold actUnmap
  repeat' first
    | with_reducible assumption
    | with_reducible apply withdraw_keeps
    | with_reducible apply mapCount_keeps
    | (intro _)
    | split
    | (refine Keeps.snd2 (by with_reducible assumption) ?_)
    | (refine Keeps.prj (by with_reducible assumption) ?_)
    | with_reducible apply Keeps.lit

theorem execUnmap_keeps {s0 : State} {a0} {a1} {a2} {a3} {a4} {s : State} (h : Keeps s0 s) :
    KeepsX s0 (execUnmap a0 a1 a2 a3 a4 s) := by
  unfold execUnmap
  repeat' first
    | with_reducible assumption
    | with_reducible apply KeepsX.next
    | with_reducible apply stagePacket_keeps
    | with_reducible apply actUnmap_keeps
    | with_reducible apply prepUnmap_keeps
    | (intro _)
    | (extract_lets +onlyGivenNames x; try clear_value x)
    | (refine Keeps.snd (by with_reducible assumption) ?_)
    | (refine Keeps.prj (by with_reducible assumption) ?_)
    | with_reducible apply Keeps.lit

theorem scrub_keeps {s0 : State} {a0} {s : State} (h : Keeps s0 s) :
    Keeps s0 (scrub a0 s) := by
  unfold scrub
  repeat' first
    | with_reducible assumption
    | with_reducible apply mscDrop_keeps
    | with_reducible apply foldl_keeps
    | with_reducible apply foldl_keeps_snd
    | with_reducible apply Keeps.litDrop
    | (intro _)
    | (extract_lets +onlyGivenNames x; refine Keeps.cut (s0 := s0) (t := x) ?_ (fun hx => ?_) <;> first | (replace hx : Keeps s0 x := hx; clear_value x) | (dsimp only [x]; clear x))
    | (refine Keeps.prj (by with_reducible assumption) ?_)
    | with_reducible apply Keeps.lit

theorem bindOne_keeps {s0 : State} {a0} {a1} {a2} {a3} {s : State} (h : Keeps s0 s) :
    Keeps s0 (bindOne a0 a1 a2 a3 s).2 := by
  unfold bindOne
  repeat' first
    | with_reducible assumption
    | with_reducible apply scrub_keeps
    | with_reducible apply State.setGran_keeps
    | (intro _)
    | (extract_lets +onlyGivenNames x; refine Keeps.cut (s0 := s0) (t := x) ?_ (fun hx => ?_) <;> first | (replace hx : Keeps s0 x := hx; clear_value x) | (dsimp only [x]; clear x))
    | (extract_lets +onlyGivenNames x; try clear_value x)
    | split
    | (refine Keeps.prj (by with_reducible assumption) ?_)
    | with_reducible apply Keeps.lit

theorem allOf_keeps {s0 : State} {a0} {a1} {s : State} (h0 : ∀ b0 s, Keeps s0 s → Keeps s0 (a0 b0 s).2) (h : Keeps s0 s) :
    Keeps s0 (allOf a0 a1 s).2 := by
  revert h
  fun_induction allOf a0 a1 s
  all_goals intro h
  all_goals repeat' first
    | with_reducible assumption
    | (refine (show Keeps s0 _ → _ by with_reducible assumption) ?_)
    | with_reducible apply h0
    | (intro _)
    | split
    | (refine Keeps.snd (by with_reducible assumption) ?_)
    | (refine Keeps.prj (by with_reducible assumption) ?_)
    | with_reducible apply Keeps.lit

theorem actGranuleBind_keeps {s0 : State} {a0} {a1} {a2} {a3} {s : State} (h : Keeps s0 s) :
    Keeps s0 (actGranuleBind a0 a1 a2 a3 s).2 := by
  unfold actGranuleBind
  repeat' first
    | with_reducible assumption
    | with_reducible apply allOf_keeps
    | with_reducible apply bindOne_keeps
    | (intro _)
    | split
    | (refine Keeps.snd (by with_reducible assumption) ?_)
    | (refine Keeps.prj (by with_reducible assumption) ?_)
    | with_reducible apply Keeps.lit

theorem execGranuleBind_keeps {s0 : State} {a0} {a1} {a2} {a3} {s : State} (h : Keeps s0 s) :
    KeepsX s0 (execGranuleBind a0 a1 a2 a3 s) := by
  unfold execGranuleBind
  repeat' first
    | with_reducible assumption
    | with_reducible apply KeepsX.next
    | with_reducible apply stagePacket_keeps
    | with_reducible apply actGranuleBind_keeps
    | with_reducible apply noPrep_keeps
    | (intro _)
    | (refine Keeps.snd (by with_reducible assumption) ?_)
    | (refine Keeps.prj (by with_reducible assumption) ?_)
    | with_reducible apply Keeps.lit

theorem dropCopies_keeps {s0 : State} {a0} {s : State} (h : Keeps s0 s) :
    Keeps s0 (dropCopies a0 s) := by
  unfold dropCopies
  repeat' first
    | with_reducible assumption
    | with_reducible apply mscDrop_keeps
    | (intro _)
    | (extract_lets +onlyGivenNames x; refine Keeps.cut (s0 := s0) (t := x) ?_ (fun hx => ?_) <;> first | (replace hx : Keeps s0 x := hx; clear_value x) | (dsimp only [x]; clear x))
    | (extract_lets +onlyGivenNames x; try clear_value x)
    | split
    | (refine Keeps.prj (by with_reducible assumption) ?_)
    | with_reducible apply Keeps.lit

theorem recallGrans_keeps {s0 : State} {a0} {a1} {s : State} (h : Keeps s0 s) :
    Keeps s0 (recallGrans a0 a1 s) := by
  unfold recallGrans
  repeat' first
    | with_reducible assumption
    | with_reducible apply exchange_keeps
    | with_reducible apply foldS_keeps
    | with_reducible apply recallAll_keeps
    | (intro _)
    | (extract_lets +onlyGivenNames x; try clear_value x)
    | (refine Keeps.prj (by with_reducible assumption) ?_)
    | with_reducible apply Keeps.lit

theorem prepUnbind_keeps {s0 : State} {a0} {a1} {a2} {s : State} (h : Keeps s0 s) :
    Keeps s0 (prepUnbind a0 a1 a2 s) := by
  unfold prepUnbind
  repeat' first
    | with_reducible assumption
    | with_reducible apply recallGrans_keeps
    | (intro _)
    | split
    | (refine Keeps.prj (by with_reducible assumption) ?_)
    | with_reducible apply Keeps.lit

theorem settleDrops_keeps {s0 : State} {s : State} (h : Keeps s0 s) :
    Keeps s0 (settleDrops s) := by
  unfold settleDrops
  repeat' first
    | with_reducible assumption
    | with_reducible apply foldS_keeps
    | with_reducible apply recallGrans_keeps
    | (intro _)
    | split
    | (refine Keeps.prj (by with_reducible assumption) ?_)
    | with_reducible apply Keeps.lit

theorem unbindOne_keeps {s0 : State} {p g : Nat} {s : State} (h : Keeps s0 s) : Keeps s0 (unbindOne p g s).2 := by
  unfold unbindOne
  extract_lets x
  repeat (split; exact h)
  exact Keeps.litDrop (s := (dropCopies g s).setGran g _) (State.setGran_keeps (dropCopies_keeps h))

theorem actGranuleUnbind_keeps {s0 : State} {a0} {a1} {a2} {s : State} (h : Keeps s0 s) :
    Keeps s0 (actGranuleUnbind a0 a1 a2 s).2 := by
  unfold actGranuleUnbind
  repeat' first
    | with_reducible assumption
    | with_reducible apply allOf_keeps
    | with_reducible apply unbindOne_keeps
    | (intro _)
    | split
    | (refine Keeps.snd (by with_reducible assumption) ?_)
    | (refine Keeps.prj (by with_reducible assumption) ?_)
    | with_reducible apply Keeps.lit

theorem execGranuleUnbind_keeps {s0 : State} {a0} {a1} {a2} {s : State} (h : Keeps s0 s) :
    KeepsX s0 (execGranuleUnbind a0 a1 a2 s) := by
  unfold execGranuleUnbind
  repeat' first
    | with_reducible assumption
    | with_reducible apply KeepsX.next
    | with_reducible apply stagePacket_keeps
    | with_reducible apply actGranuleUnbind_keeps
    | with_reducible apply prepUnbind_keeps
    | (intro _)
    | (refine Keeps.snd (by with_reducible assumption) ?_)
    | (refine Keeps.prj (by with_reducible assumption) ?_)
    | with_reducible apply Keeps.lit

end Sys2Proof.Machine
end

