-- ==== Sys2Proof/Laws/KeepsWork.lean ====
section
/-!
SUPPORT. Keeps for contexts, queues, work, fences, commands, the host port and the tiers.
-/
set_option linter.all false

namespace Sys2Proof.Machine

/-! ### Moves -/

theorem moveMark_keeps {s0 : State} {a0} {s : State} (h : Keeps s0 s) :
    Keeps s0 (moveMark a0 s) := by
  unfold moveMark
  repeat' first
    | with_reducible assumption
    | with_reducible apply foldS_keeps
    | with_reducible apply State.setGran_keeps
    | (intro _)
    | (extract_lets +onlyGivenNames x; refine Keeps.cut (s0 := s0) (t := x) ?_ (fun hx => ?_) <;> first | (replace hx : Keeps s0 x := hx; clear_value x) | (dsimp only [x]; clear x))
    | (extract_lets +onlyGivenNames x; try clear_value x)
    | split
    | (refine Keeps.prj (by with_reducible assumption) ?_)
    | with_reducible apply Keeps.lit

theorem moveRecall_keeps {s0 : State} {a0} {s : State} (h : Keeps s0 s) :
    Keeps s0 (moveRecall a0 s) := by
  unfold moveRecall
  repeat' first
    | with_reducible assumption
    | with_reducible apply exchange_keeps
    | with_reducible apply foldS_keeps
    | with_reducible apply recallAll_keeps
    | (intro _)
    | (extract_lets +onlyGivenNames x; try clear_value x)
    | (refine Keeps.prj (by with_reducible assumption) ?_)
    | with_reducible apply Keeps.lit

theorem moveHeat_keeps {s0 : State} {a0} {s : State} (h : Keeps s0 s) :
    Keeps s0 (moveHeat a0 s) := by
  unfold moveHeat
  repeat' first
    | with_reducible assumption
    | with_reducible apply foldl_keeps
    | with_reducible apply foldl_keeps_snd
    | (intro _)
    | (extract_lets +onlyGivenNames x; try clear_value x)
    | split
    | (refine Keeps.prj (by with_reducible assumption) ?_)
    | with_reducible apply Keeps.lit

theorem moveErrors_keeps {s0 : State} {a0} {s : State} (h : Keeps s0 s) :
    Keeps s0 (moveErrors a0 s).2 := by
  unfold moveErrors
  repeat' first
    | with_reducible assumption
    | with_reducible apply mediaRead_keeps
    | with_reducible apply foldl_keeps
    | with_reducible apply foldl_keeps_snd
    | (intro _)
    | (extract_lets +onlyGivenNames x; try clear_value x)
    | split
    | (refine Keeps.snd (by with_reducible assumption) ?_)
    | (refine Keeps.prj (by with_reducible assumption) ?_)
    | with_reducible apply Keeps.lit

theorem moveBytes_keeps {s0 : State} {m : Move} {s : State} (h : Keeps s0 s) :
    Keeps s0 { s with mem := moveBytes m s } :=
  h.withMem fun w => wf_foldl_mset _ _ _ (wf_mdrop _ _ w)

theorem moveCopy_keeps {s0 : State} {m : Move} {s : State} (h : Keeps s0 s) : Keeps s0 (moveCopy m s) := by
  unfold moveCopy
  have k := moveErrors_keeps (a0 := m) (moveHeat_keeps (a0 := m) h)
  generalize moveErrors m (moveHeat m s) = e at k ⊢
  obtain ⟨failed, t⟩ := e
  dsimp -zeta only
  extract_lets bad s1 s2 s3
  have k1 : Keeps s0 s1 := mscDrop_keeps k
  clear_value s1
  have k2 : Keeps s0 s2 := by
    refine Keeps.same ?_ ?_ ?_ ?_ (moveBytes_keeps (m := m) k1) <;> rfl
  clear_value s2
  exact foldS_keeps (fun _ _ h => poisonLine_keeps h) (foldS_keeps (fun _ _ h => State.setGran_keeps h) k2)

theorem moveSwitch_keeps {s0 : State} {a0} {s : State} (h : Keeps s0 s) :
    Keeps s0 (moveSwitch a0 s).2 := by
  unfold moveSwitch
  repeat' first
    | with_reducible assumption
    | with_reducible apply State.setCtx_keeps
    | with_reducible apply mapCount_keeps
    | with_reducible apply shootStart_keeps
    | with_reducible apply State.touch_keeps
    | with_reducible apply foldl_keeps
    | with_reducible apply foldl_keeps_snd
    | (intro _)
    | (extract_lets +onlyGivenNames x; refine Keeps.cut (s0 := s0) (t := x) ?_ (fun hx => ?_) <;> first | (replace hx : Keeps s0 x := hx; clear_value x) | (dsimp only [x]; clear x))
    | split
    | (refine Keeps.snd (by with_reducible assumption) ?_)
    | (refine Keeps.prj (by with_reducible assumption) ?_)
    | with_reducible apply Keeps.lit

theorem moveSet_keeps {s0 : State} {a0} {a1} {s : State} (h : Keeps s0 s) :
    Keeps s0 (moveSet a0 a1 s) := by
  unfold moveSet
  repeat' first
    | with_reducible assumption
    | (intro _)
    | split
    | (refine Keeps.prj (by with_reducible assumption) ?_)
    | with_reducible apply Keeps.lit

theorem moveForward_keeps {s0 : State} {a0} {s : State} (h : Keeps s0 s) :
    Keeps s0 (moveForward a0 s) := by
  unfold moveForward
  repeat' first
    | with_reducible assumption
    | with_reducible apply foldS_keeps
    | with_reducible apply State.setLine_keeps
    | with_reducible apply exchange_keeps
    | with_reducible apply homeAccept_keeps
    | (intro _)
    | (extract_lets +onlyGivenNames x; refine Keeps.cut (s0 := s0) (t := x) ?_ (fun hx => ?_) <;> first | (replace hx : Keeps s0 x := hx; clear_value x) | (dsimp only [x]; clear x))
    | (extract_lets +onlyGivenNames x; try clear_value x)
    | (refine Keeps.prj (by with_reducible assumption) ?_)
    | with_reducible apply Keeps.lit

theorem moveEnd_keeps {s0 : State} {a0} {s : State} (h : Keeps s0 s) :
    Keeps s0 (moveEnd a0 s) := by
  unfold moveEnd
  repeat' first
    | with_reducible assumption
    | with_reducible apply foldS_keeps
    | with_reducible apply State.touch_keeps
    | with_reducible apply dropCopies_keeps
    | with_reducible apply State.setGran_keeps
    | with_reducible apply flightDone_keeps
    | with_reducible apply partEvent_keeps
    | with_reducible apply Keeps.litDrop
    | (intro _)
    | (extract_lets +onlyGivenNames x; refine Keeps.cut (s0 := s0) (t := x) ?_ (fun hx => ?_) <;> first | (replace hx : Keeps s0 x := hx; clear_value x) | (dsimp only [x]; clear x))
    | (extract_lets +onlyGivenNames x; try clear_value x)
    | split
    | (refine Keeps.prj (by with_reducible assumption) ?_)
    | with_reducible apply Keeps.lit

theorem moveRun_keeps {s0 : State} {m : Move} {s : State} (h : Keeps s0 s) : Keeps s0 (moveRun m s) := by
  unfold moveRun
  split
  · split
    · exact moveEnd_keeps h
    · exact h
  · extract_lets r s1
    have h1 : Keeps s0 s1 := moveRecall_keeps (moveSet_keeps h)
    clear_value s1
    split
    · exact h1
    · have h2 : Keeps s0 (moveSwitch m (moveCopy m s1)).2 := moveSwitch_keeps (moveCopy_keeps h1)
      dsimp only
      split
      · exact moveEnd_keeps (moveForward_keeps (moveSet_keeps h2))
      · exact moveForward_keeps (moveSet_keeps h2)

theorem moveStart_keeps {s0 : State} {a0} {s : State} (h : Keeps s0 s) :
    Keeps s0 (moveStart a0 s) := by
  unfold moveStart
  repeat' first
    | with_reducible assumption
    | with_reducible apply moveMark_keeps
    | (intro _)
    | (refine Keeps.prj (by with_reducible assumption) ?_)
    | with_reducible apply Keeps.lit

theorem settleMoves_keeps {s0 : State} {s : State} (h : Keeps s0 s) :
    Keeps s0 (settleMoves s) := by
  unfold settleMoves
  repeat' first
    | with_reducible assumption
    | with_reducible apply settlePosted_keeps
    | with_reducible apply homeWake_keeps
    | with_reducible apply foldS_keeps
    | with_reducible apply moveRun_keeps
    | (intro _)
    | (extract_lets +onlyGivenNames x; refine Keeps.cut (s0 := s0) (t := x) ?_ (fun hx => ?_) <;> first | (replace hx : Keeps s0 x := hx; clear_value x) | (dsimp only [x]; clear x))
    | split
    | (refine Keeps.prj (by with_reducible assumption) ?_)
    | with_reducible apply Keeps.lit

theorem abandonMoves_keeps {s0 : State} {a0} {a1} {s : State} (h : Keeps s0 s) :
    Keeps s0 (abandonMoves a0 a1 s) := by
  unfold abandonMoves
  repeat' first
    | with_reducible assumption
    | with_reducible apply homeWake_keeps
    | with_reducible apply foldS_keeps
    | with_reducible apply State.setGran_keeps
    | with_reducible apply flightDone_keeps
    | (intro _)
    | (extract_lets +onlyGivenNames x; refine Keeps.cut (s0 := s0) (t := x) ?_ (fun hx => ?_) <;> first | (replace hx : Keeps s0 x := hx; clear_value x) | (dsimp only [x]; clear x))
    | (extract_lets +onlyGivenNames x; try clear_value x)
    | split
    | (refine Keeps.prj (by with_reducible assumption) ?_)
    | with_reducible apply Keeps.lit

theorem execShootdownAcknowledge_keeps {s0 : State} {a0} {a1} {a2} {s : State} (h : Keeps s0 s) :
    KeepsX s0 (execShootdownAcknowledge a0 a1 a2 s) := by
  unfold execShootdownAcknowledge
  repeat' first
    | with_reducible assumption
    | with_reducible apply KeepsX.next
    | with_reducible apply settleMoves_keeps
    | with_reducible apply shootAck_keeps
    | (intro _)
    | (extract_lets +onlyGivenNames x; try clear_value x)
    | split
    | (refine Keeps.prj (by with_reducible assumption) ?_)
    | with_reducible apply Keeps.lit

/-! ### PartReset -/

theorem dropMsc_keeps {s0 : State} {a0} {s : State} (h : Keeps s0 s) :
    Keeps s0 (dropMsc a0 s) := by
  unfold dropMsc
  repeat' first
    | with_reducible assumption
    | with_reducible apply mscDrop_keeps
    | (intro _)
    | (extract_lets +onlyGivenNames x; try clear_value x)
    | (refine Keeps.prj (by with_reducible assumption) ?_)
    | with_reducible apply Keeps.lit

theorem loseByReset_keeps {s0 : State} {a0} {s : State} (h : Keeps s0 s) :
    Keeps s0 (loseByReset a0 s) := by
  unfold loseByReset
  repeat' first
    | with_reducible assumption
    | with_reducible apply State.touch_keeps
    | with_reducible apply State.setCtx_keeps
    | with_reducible apply lostEvent_keeps
    | (intro _)
    | (extract_lets +onlyGivenNames x; refine Keeps.cut (s0 := s0) (t := x) ?_ (fun hx => ?_) <;> first | (replace hx : Keeps s0 x := hx; clear_value x) | (dsimp only [x]; clear x))
    | split
    | (refine Keeps.prj (by with_reducible assumption) ?_)
    | with_reducible apply Keeps.lit

theorem changeCut_keeps {s0 : State} {a0} {s : State} (h : Keeps s0 s) :
    Keeps s0 (changeCut a0 s) := by
  unfold changeCut
  repeat' first
    | with_reducible assumption
    | with_reducible apply reply_keeps
    | with_reducible apply unprep_keeps
    | (intro _)
    | split
    | (refine Keeps.prj (by with_reducible assumption) ?_)
    | with_reducible apply Keeps.lit

theorem emptyQueue_keeps {s0 : State} {a0} {s : State} (h : Keeps s0 s) :
    Keeps s0 (emptyQueue a0 s) := by
  unfold emptyQueue
  repeat' first
    | with_reducible assumption
    | with_reducible apply State.setQueue_keeps
    | with_reducible apply changeCut_keeps
    | with_reducible apply queueWord_keeps
    | with_reducible apply State.touch_keeps
    | with_reducible apply flightUnref_keeps
    | with_reducible apply foldl_keeps
    | with_reducible apply foldl_keeps_snd
    | (intro _)
    | (extract_lets +onlyGivenNames x; refine Keeps.cut (s0 := s0) (t := x) ?_ (fun hx => ?_) <;> first | (replace hx : Keeps s0 x := hx; clear_value x) | (dsimp only [x]; clear x))
    | (extract_lets +onlyGivenNames x; try clear_value x)
    | split
    | (refine Keeps.prj (by with_reducible assumption) ?_)
    | with_reducible apply Keeps.lit

theorem emptySiding_keeps {s0 : State} {a0} {s : State} (h : Keeps s0 s) :
    Keeps s0 (emptySiding a0 s) := by
  unfold emptySiding
  repeat' first
    | with_reducible assumption
    | with_reducible apply State.setFring_keeps
    | with_reducible apply partEvent_keeps
    | (intro _)
    | (extract_lets +onlyGivenNames x; refine Keeps.cut (s0 := s0) (t := x) ?_ (fun hx => ?_) <;> first | (replace hx : Keeps s0 x := hx; clear_value x) | (dsimp only [x]; clear x))
    | (extract_lets +onlyGivenNames x; try clear_value x)
    | split
    | (refine Keeps.prj (by with_reducible assumption) ?_)
    | with_reducible apply Keeps.lit

theorem partResetEnd_keeps {s0 : State} {a0} {s : State} (h : Keeps s0 s) :
    Keeps s0 (partResetEnd a0 s) := by
  unfold partResetEnd
  repeat' first
    | with_reducible assumption
    | with_reducible apply foldS_keeps
    | with_reducible apply clusterGone_keeps
    | with_reducible apply dropMsc_keeps
    | with_reducible apply emptyQueue_keeps
    | with_reducible apply emptySiding_keeps
    | with_reducible apply postedGone_keeps
    | with_reducible apply State.touch_keeps
    | with_reducible apply State.setPart_keeps
    | with_reducible apply reply_keeps
    | (intro _)
    | (extract_lets +onlyGivenNames x; refine Keeps.cut (s0 := s0) (t := x) ?_ (fun hx => ?_) <;> first | (replace hx : Keeps s0 x := hx; clear_value x) | (dsimp only [x]; clear x))
    | (extract_lets +onlyGivenNames x; try clear_value x)
    | split
    | (refine Keeps.prj (by with_reducible assumption) ?_)
    | with_reducible apply Keeps.lit

theorem partResetStop_keeps {s0 : State} {a0} {s : State} (h : Keeps s0 s) :
    Keeps s0 (partResetStop a0 s) := by
  unfold partResetStop
  repeat' first
    | with_reducible assumption
    | with_reducible apply State.setPart_keeps
    | with_reducible apply foldS_keeps
    | with_reducible apply stopCore_keeps
    | with_reducible apply loseByReset_keeps
    | with_reducible apply abandonMoves_keeps
    | with_reducible apply shootAck_keeps
    | with_reducible apply slFenceAll_keeps
    | with_reducible apply settleMoves_keeps
    | with_reducible apply partResetEnd_keeps
    | (intro _)
    | (extract_lets +onlyGivenNames x; refine Keeps.cut (s0 := s0) (t := x) ?_ (fun hx => ?_) <;> first | (replace hx : Keeps s0 x := hx; clear_value x) | (dsimp only [x]; clear x))
    | (extract_lets +onlyGivenNames x; try clear_value x)
    | split
    | (refine Keeps.prj (by with_reducible assumption) ?_)
    | with_reducible apply Keeps.lit

theorem partResetStart_keeps {s0 : State} {a0} {a1} {s : State} (h : Keeps s0 s) :
    Keeps s0 (partResetStart a0 a1 s) := by
  unfold partResetStart
  repeat' first
    | with_reducible assumption
    | with_reducible apply State.setPart_keeps
    | with_reducible apply partResetStop_keeps
    | (intro _)
    | (extract_lets +onlyGivenNames x; refine Keeps.cut (s0 := s0) (t := x) ?_ (fun hx => ?_) <;> first | (replace hx : Keeps s0 x := hx; clear_value x) | (dsimp only [x]; clear x))
    | (extract_lets +onlyGivenNames x; try clear_value x)
    | split
    | (refine Keeps.prj (by with_reducible assumption) ?_)
    | with_reducible apply Keeps.lit

theorem partResetSettle_keeps {s0 : State} {s : State} (h : Keeps s0 s) :
    Keeps s0 (partResetSettle s) := by
  unfold partResetSettle
  repeat' first
    | with_reducible assumption
    | with_reducible apply foldS_keeps
    | with_reducible apply partResetStop_keeps
    | with_reducible apply partResetEnd_keeps
    | (intro _)
    | split
    | (refine Keeps.prj (by with_reducible assumption) ?_)
    | with_reducible apply Keeps.lit

theorem partResetByHub_keeps {s0 : State} {a0} {s : State} (h : Keeps s0 s) :
    Keeps s0 (partResetByHub a0 s) := by
  unfold partResetByHub
  repeat' first
    | with_reducible assumption
    | with_reducible apply partResetStart_keeps
    | (intro _)
    | split
    | (refine Keeps.prj (by with_reducible assumption) ?_)
    | with_reducible apply Keeps.lit

/-! ### Queues -/

theorem actQueueCreate_keeps {s0 : State} {a0} {a1} {a2} {a3} {a4} {a5} {a6} {a7} {a8} {a9} {s : State} (h : Keeps s0 s) :
    Keeps s0 (actQueueCreate a0 a1 a2 a3 a4 a5 a6 a7 a8 a9 s).2 := by
  unfold actQueueCreate
  repeat' first
    | with_reducible assumption
    | with_reducible apply alloc_keeps
    | with_reducible apply State.setQueue_keeps
    | with_reducible apply ctxRef_keeps
    | with_reducible apply foldS_keeps
    | with_reducible apply segRef_keeps
    | (intro _)
    | (extract_lets +onlyGivenNames x; refine Keeps.cut (s0 := s0) (t := x) ?_ (fun hx => ?_) <;> first | (replace hx : Keeps s0 x := hx; clear_value x) | (dsimp only [x]; clear x))
    | (extract_lets +onlyGivenNames x; try clear_value x)
    | split
    | (refine Keeps.opt (by with_reducible assumption) ?_)
    | (refine Keeps.prj (by with_reducible assumption) ?_)
    | with_reducible apply Keeps.lit

theorem execQueueCreate_keeps {s0 : State} {a0} {a1} {a2} {a3} {a4} {a5} {a6} {a7} {a8} {s : State} (h : Keeps s0 s) :
    KeepsX s0 (execQueueCreate a0 a1 a2 a3 a4 a5 a6 a7 a8 s) := by
  unfold execQueueCreate
  repeat' first
    | with_reducible assumption
    | with_reducible apply KeepsX.next
    | with_reducible apply stagePacket_keeps
    | with_reducible apply actQueueCreate_keeps
    | with_reducible apply noPrep_keeps
    | (intro _)
    | (refine Keeps.snd (by with_reducible assumption) ?_)
    | (refine Keeps.prj (by with_reducible assumption) ?_)
    | with_reducible apply Keeps.lit

theorem actQueueEnable_keeps {s0 : State} {a0} {a1} {s : State} (h : Keeps s0 s) :
    Keeps s0 (actQueueEnable a0 a1 s).2 := by
  unfold actQueueEnable
  repeat' first
    | with_reducible assumption
    | with_reducible apply State.setQueue_keeps
    | (intro _)
    | split
    | (refine Keeps.prj (by with_reducible assumption) ?_)
    | with_reducible apply Keeps.lit

theorem execQueueEnable_keeps {s0 : State} {a0} {a1} {s : State} (h : Keeps s0 s) :
    KeepsX s0 (execQueueEnable a0 a1 s) := by
  unfold execQueueEnable
  repeat' first
    | with_reducible assumption
    | with_reducible apply KeepsX.next
    | with_reducible apply stagePacket_keeps
    | with_reducible apply actQueueEnable_keeps
    | with_reducible apply noPrep_keeps
    | (intro _)
    | (refine Keeps.snd (by with_reducible assumption) ?_)
    | (refine Keeps.prj (by with_reducible assumption) ?_)
    | with_reducible apply Keeps.lit

theorem actQueueDisable_keeps {s0 : State} {a0} {a1} {s : State} (h : Keeps s0 s) :
    Keeps s0 (actQueueDisable a0 a1 s).2 := by
  unfold actQueueDisable
  repeat' first
    | with_reducible assumption
    | with_reducible apply State.setQueue_keeps
    | (intro _)
    | split
    | (refine Keeps.prj (by with_reducible assumption) ?_)
    | with_reducible apply Keeps.lit

theorem prepQueueDisable_keeps {s0 : State} {a0} {a1} {s : State} (h : Keeps s0 s) :
    Keeps s0 (prepQueueDisable a0 a1 s) := by
  unfold prepQueueDisable
  repeat' first
    | with_reducible assumption
    | with_reducible apply State.setQueue_keeps
    | (intro _)
    | split
    | (refine Keeps.prj (by with_reducible assumption) ?_)
    | with_reducible apply Keeps.lit

theorem execQueueDisable_keeps {s0 : State} {a0} {a1} {s : State} (h : Keeps s0 s) :
    KeepsX s0 (execQueueDisable a0 a1 s) := by
  unfold execQueueDisable
  repeat' first
    | with_reducible assumption
    | with_reducible apply KeepsX.next
    | with_reducible apply directPacket_keeps
    | with_reducible apply actQueueDisable_keeps
    | with_reducible apply stagePacket_keeps
    | with_reducible apply prepQueueDisable_keeps
    | (intro _)
    | (extract_lets +onlyGivenNames x; try clear_value x)
    | split
    | (refine Keeps.snd (by with_reducible assumption) ?_)
    | (refine Keeps.prj (by with_reducible assumption) ?_)
    | with_reducible apply Keeps.lit

theorem actQueueDestroy_keeps {s0 : State} {a0} {a1} {s : State} (h : Keeps s0 s) :
    Keeps s0 (actQueueDestroy a0 a1 s).2 := by
  unfold actQueueDestroy
  repeat' first
    | with_reducible assumption
    | with_reducible apply queueUnref_keeps
    | with_reducible apply State.setQueue_keeps
    | (intro _)
    | split
    | (refine Keeps.prj (by with_reducible assumption) ?_)
    | with_reducible apply Keeps.lit

theorem execQueueDestroy_keeps {s0 : State} {a0} {a1} {s : State} (h : Keeps s0 s) :
    KeepsX s0 (execQueueDestroy a0 a1 s) := by
  unfold execQueueDestroy
  repeat' first
    | with_reducible assumption
    | with_reducible apply KeepsX.next
    | with_reducible apply stagePacket_keeps
    | with_reducible apply actQueueDestroy_keeps
    | with_reducible apply noPrep_keeps
    | (intro _)
    | (refine Keeps.snd (by with_reducible assumption) ?_)
    | (refine Keeps.prj (by with_reducible assumption) ?_)
    | with_reducible apply Keeps.lit

theorem doorbell_keeps {s0 : State} {a0} {a1} {s : State} (h : Keeps s0 s) :
    Keeps s0 (doorbell a0 a1 s) := by
  unfold doorbell
  repeat' first
    | with_reducible assumption
    | with_reducible apply State.setQueue_keeps
    | with_reducible apply agentFault_keeps
    | (intro _)
    | split
    | (refine Keeps.prj (by with_reducible assumption) ?_)
    | with_reducible apply Keeps.lit

theorem fetchRun_keeps {s0 : State} {a0} {a1} {s : State} (h : Keeps s0 s) :
    Keeps s0 (fetchRun a0 a1 s) := by
  revert h
  fun_induction fetchRun a0 a1 s
  all_goals intro h
  all_goals repeat' first
    | with_reducible assumption
    | with_reducible apply State.setQueue_keeps
    | with_reducible apply readRange_keeps
    | with_reducible apply vaFault_keeps
    | with_reducible apply State.bump_keeps
    | with_reducible apply makeDue_keeps
    | (refine (show Keeps s0 _ → _ by with_reducible assumption) ?_)
    | (intro _)
    | split
    | (refine Keeps.snd (by with_reducible assumption) ?_)
    | (refine Keeps.prj (by with_reducible assumption) ?_)
    | with_reducible apply Keeps.lit

theorem agentReads_keeps {s0 : State} {s : State} (h : Keeps s0 s) :
    Keeps s0 (agentReads s) := by
  unfold agentReads
  repeat' first
    | with_reducible assumption
    | with_reducible apply foldS_keeps
    | with_reducible apply makeDue_keeps
    | with_reducible apply lineBad_keeps
    | with_reducible apply corrected_keeps
    | (intro _)
    | (extract_lets +onlyGivenNames x; try clear_value x)
    | split
    | (refine Keeps.prj (by with_reducible assumption) ?_)
    | with_reducible apply Keeps.lit

theorem execQueueFetch_keeps {s0 : State} {a0} {a1} {s : State} (h : Keeps s0 s) :
    KeepsX s0 (execQueueFetch a0 a1 s) := by
  unfold execQueueFetch
  repeat' first
    | with_reducible assumption
    | with_reducible apply KeepsX.next
    | with_reducible apply fetchRun_keeps
    | with_reducible apply agentReads_keeps
    | (intro _)
    | (extract_lets +onlyGivenNames x; refine Keeps.cut (s0 := s0) (t := x) ?_ (fun hx => ?_) <;> first | (replace hx : Keeps s0 x := hx; clear_value x) | (dsimp only [x]; clear x))
    | (refine Keeps.prj (by with_reducible assumption) ?_)
    | with_reducible apply Keeps.lit

theorem dispatchHead_keeps {s0 : State} {a0} {a1} {a2} {s : State} (h : Keeps s0 s) :
    Keeps s0 (dispatchHead a0 a1 a2 s) := by
  unfold dispatchHead
  repeat' first
    | with_reducible assumption
    | with_reducible apply dropWho_keeps
    | with_reducible apply State.setQueue_keeps
    | with_reducible apply foldS_keeps
    | with_reducible apply segRef_keeps
    | with_reducible apply ctxRef_keeps
    | (intro _)
    | (extract_lets +onlyGivenNames x; refine Keeps.cut (s0 := s0) (t := x) ?_ (fun hx => ?_) <;> first | (replace hx : Keeps s0 x := hx; clear_value x) | (dsimp only [x]; clear x))
    | split
    | (refine Keeps.prj (by with_reducible assumption) ?_)
    | with_reducible apply Keeps.lit

theorem setFlight_keeps {s0 : State} {a0} {a1} {a2} {s : State} (h : Keeps s0 s) :
    Keeps s0 (setFlight a0 a1 a2 s) := by
  unfold setFlight
  repeat' first
    | with_reducible assumption
    | with_reducible apply State.setQueue_keeps
    | (intro _)
    | split
    | (refine Keeps.prj (by with_reducible assumption) ?_)
    | with_reducible apply Keeps.lit

theorem agentEnds_keeps {s0 : State} {a0} {a1} {a2} {a3} {a4} {a5} {s : State} (h : Keeps s0 s) :
    Keeps s0 (agentEnds a0 a1 a2 a3 a4 a5 s) := by
  unfold agentEnds
  repeat' first
    | with_reducible assumption
    | with_reducible apply flightDone_keeps
    | with_reducible apply vaFault_keeps
    | (intro _)
    | split
    | (refine Keeps.prj (by with_reducible assumption) ?_)
    | with_reducible apply Keeps.lit

theorem descriptorRow_keeps {s0 : State} {a0} {a1} {a2} {a3} {a4} {s : State} (h4 : ∀ b0 b1 s, Keeps s0 s → Keeps s0 (a4 b0 b1 s)) (h : Keeps s0 s) :
    Keeps s0 (descriptorRow a0 a1 a2 a3 a4 s) := by
  unfold descriptorRow
  repeat' first
    | with_reducible assumption
    | with_reducible apply dispatchHead_keeps
    | with_reducible apply h4
    | with_reducible apply hf
    | (intro _)
    | (extract_lets +onlyGivenNames f; refine Keeps.cutS (s0 := s0) (f := f) ?_ (fun hf => ?_) <;> first | (replace hf : ∀ s, Keeps s0 s → Keeps s0 (f s) := hf; clear_value f) | (dsimp only [f]; clear f))
    | split
    | (refine Keeps.prj (by with_reducible assumption) ?_)
    | with_reducible apply Keeps.lit

theorem completeIn_keeps {s0 : State} {a0} {a1} {a2} {a3} {s : State} (h : Keeps s0 s) :
    Keeps s0 (completeIn a0 a1 a2 a3 s) := by
  unfold completeIn
  repeat' first
    | with_reducible assumption
    | with_reducible apply State.setQueue_keeps
    | with_reducible apply State.setCtx_keeps
    | with_reducible apply queueWord_keeps
    | with_reducible apply partEvent_keeps
    | (intro _)
    | (extract_lets +onlyGivenNames x; refine Keeps.cut (s0 := s0) (t := x) ?_ (fun hx => ?_) <;> first | (replace hx : Keeps s0 x := hx; clear_value x) | (dsimp only [x]; clear x))
    | (extract_lets +onlyGivenNames x; try clear_value x)
    | split
    | (refine Keeps.prj (by with_reducible assumption) ?_)
    | with_reducible apply Keeps.lit

theorem completeFlight_keeps {s0 : State} {a0} {a1} {a2} {s : State} (h : Keeps s0 s) :
    Keeps s0 (completeFlight a0 a1 a2 s) := by
  unfold completeFlight
  repeat' first
    | with_reducible assumption
    | with_reducible apply State.setQueue_keeps
    | with_reducible apply foldTraffic_keeps
    | with_reducible apply flightUnref_keeps
    | with_reducible apply completeIn_keeps
    | (intro _)
    | (extract_lets +onlyGivenNames x; refine Keeps.cut (s0 := s0) (t := x) ?_ (fun hx => ?_) <;> first | (replace hx : Keeps s0 x := hx; clear_value x) | (dsimp only [x]; clear x))
    | split
    | (refine Keeps.prj (by with_reducible assumption) ?_)
    | with_reducible apply Keeps.lit

theorem completeHead_keeps {s0 : State} {a0} {a1} {s : State} (h : Keeps s0 s) :
    Keeps s0 (completeHead a0 a1 s) := by
  unfold completeHead
  repeat' first
    | with_reducible assumption
    | with_reducible apply completeIn_keeps
    | with_reducible apply State.setQueue_keeps
    | (intro _)
    | (extract_lets +onlyGivenNames x; refine Keeps.cut (s0 := s0) (t := x) ?_ (fun hx => ?_) <;> first | (replace hx : Keeps s0 x := hx; clear_value x) | (dsimp only [x]; clear x))
    | split
    | (refine Keeps.prj (by with_reducible assumption) ?_)
    | with_reducible apply Keeps.lit

theorem execDescriptorComplete_keeps {s0 : State} {a0} {a1} {s : State} (h : Keeps s0 s) :
    KeepsX s0 (execDescriptorComplete a0 a1 s) := by
  unfold execDescriptorComplete
  repeat' first
    | with_reducible assumption
    | with_reducible apply KeepsX.next
    | with_reducible apply completeFlight_keeps
    | with_reducible apply completeHead_keeps
    | (intro _)
    | (extract_lets +onlyGivenNames x; try clear_value x)
    | split
    | (refine Keeps.prj (by with_reducible assumption) ?_)
    | with_reducible apply Keeps.lit

/-! ### Launch -/

theorem loadPart_keeps {s0 : State} {a0} {a1} {a2} {a3} {s : State} (h : Keeps s0 s) :
    Keeps s0 (loadPart a0 a1 a2 a3 s).2 := by
  unfold loadPart
  repeat' first
    | with_reducible assumption
    | with_reducible apply readRange_keeps
    | (intro _)
    | split
    | (refine Keeps.snd (by with_reducible assumption) ?_)
    | (refine Keeps.prj (by with_reducible assumption) ?_)
    | with_reducible apply Keeps.lit

theorem loadImage_keeps {s0 : State} {a0} {a1} {a2} {a3} {s : State} (h3 : ∀ b0 s, Keeps s0 s → Keeps s0 (a3 b0 s)) (h : Keeps s0 s) :
    Keeps s0 (loadImage a0 a1 a2 a3 s).2 := by
  unfold loadImage
  repeat' first
    | with_reducible assumption
    | with_reducible apply putBack_keeps
    | with_reducible apply loadPart_keeps
    | with_reducible apply h3
    | with_reducible apply hf
    | (intro _)
    | (extract_lets +onlyGivenNames x; refine Keeps.cut (s0 := s0) (t := x) ?_ (fun hx => ?_) <;> first | (replace hx : Keeps s0 x := hx; clear_value x) | (dsimp only [x]; clear x))
    | (extract_lets +onlyGivenNames f; refine Keeps.cutS (s0 := s0) (f := f) ?_ (fun hf => ?_) <;> first | (replace hf : ∀ s, Keeps s0 s → Keeps s0 (f s) := hf; clear_value f) | (dsimp only [f]; clear f))
    | split
    | (refine Keeps.snd (by with_reducible assumption) ?_)
    | (refine Keeps.prj (by with_reducible assumption) ?_)
    | with_reducible apply Keeps.lit

theorem startCore_keeps {s0 : State} {a0} {a1} {a2} {a3} {a4} {a5} {a6} {a7} {a8} {a9} {a10} {a11} {s : State} (h : Keeps s0 s) :
    Keeps s0 (startCore a0 a1 a2 a3 a4 a5 a6 a7 a8 a9 a10 a11 s) := by
  unfold startCore
  repeat' first
    | with_reducible assumption
    | with_reducible apply dropAsked_keeps
    | with_reducible apply epochAdvance_keeps
    | with_reducible apply State.setCore_keeps
    | (intro _)
    | (extract_lets +onlyGivenNames x; refine Keeps.cut (s0 := s0) (t := x) ?_ (fun hx => ?_) <;> first | (replace hx : Keeps s0 x := hx; clear_value x) | (dsimp only [x]; clear x))
    | (extract_lets +onlyGivenNames x; try clear_value x)
    | split
    | (refine Keeps.prj (by with_reducible assumption) ?_)
    | with_reducible apply Keeps.lit

theorem startLaunch_keeps {s0 : State} {a0} {a1} {a2} {a3} {a4} {a5} {s : State} (h : Keeps s0 s) :
    Keeps s0 (startLaunch a0 a1 a2 a3 a4 a5 s) := by
  unfold startLaunch
  repeat' first
    | with_reducible assumption
    | with_reducible apply foldS_keeps
    | with_reducible apply startCore_keeps
    | (intro _)
    | (extract_lets +onlyGivenNames x; refine Keeps.cut (s0 := s0) (t := x) ?_ (fun hx => ?_) <;> first | (replace hx : Keeps s0 x := hx; clear_value x) | (dsimp only [x]; clear x))
    | (extract_lets +onlyGivenNames x; try clear_value x)
    | (refine Keeps.prj (by with_reducible assumption) ?_)
    | with_reducible apply Keeps.lit

theorem launchFails_keeps {s0 : State} {a0} {a1} {a2} {a3} {s : State} (h : Keeps s0 s) :
    Keeps s0 (launchFails a0 a1 a2 a3 s) := by
  unfold launchFails
  repeat' first
    | with_reducible assumption
    | with_reducible apply launchReport_keeps
    | with_reducible apply flightEnds_keeps
    | (intro _)
    | split
    | (refine Keeps.snd (by with_reducible assumption) ?_)
    | (refine Keeps.prj (by with_reducible assumption) ?_)
    | with_reducible apply Keeps.lit

theorem imageSegs_keeps {s0 : State} {a0} {a1} {a2} {a3} {s : State} (h : Keeps s0 s) :
    Keeps s0 (imageSegs a0 a1 a2 a3 s) := by
  unfold imageSegs
  repeat' first
    | with_reducible assumption
    | with_reducible apply foldS_keeps
    | with_reducible apply segRef_keeps
    | with_reducible apply setFlight_keeps
    | (intro _)
    | (extract_lets +onlyGivenNames x; try clear_value x)
    | (refine Keeps.prj (by with_reducible assumption) ?_)
    | with_reducible apply Keeps.lit

theorem launchRun_keeps {s0 : State} {a0} {a1} {a2} {s : State} (h : Keeps s0 s) :
    Keeps s0 (launchRun a0 a1 a2 s) := by
  unfold launchRun
  repeat' first
    | with_reducible assumption
    | with_reducible apply launchFails_keeps
    | with_reducible apply loadImage_keeps
    | with_reducible apply imageSegs_keeps
    | with_reducible apply vaFault_keeps
    | with_reducible apply startLaunch_keeps
    | (intro _)
    | (extract_lets +onlyGivenNames x; try clear_value x)
    | split
    | (refine Keeps.snd (by with_reducible assumption) ?_)
    | (refine Keeps.prj (by with_reducible assumption) ?_)
    | with_reducible apply Keeps.lit

theorem execLaunch_keeps {s0 : State} {a0} {a1} {a2} {s : State} (h : Keeps s0 s) :
    KeepsX s0 (execLaunch a0 a1 a2 s) := by
  unfold execLaunch
  repeat' first
    | with_reducible assumption
    | with_reducible apply KeepsX.next
    | with_reducible apply descriptorRow_keeps
    | with_reducible apply launchRun_keeps
    | with_reducible apply agentReads_keeps
    | (intro _)
    | (extract_lets +onlyGivenNames x; refine Keeps.cut (s0 := s0) (t := x) ?_ (fun hx => ?_) <;> first | (replace hx : Keeps s0 x := hx; clear_value x) | (dsimp only [x]; clear x))
    | (extract_lets +onlyGivenNames x; try clear_value x)
    | split
    | (refine Keeps.prj (by with_reducible assumption) ?_)
    | with_reducible apply Keeps.lit

theorem stampWaits_keeps {s0 : State} {s : State} (h : Keeps s0 s) :
    Keeps s0 (stampWaits s) := by
  unfold stampWaits
  repeat' first
    | with_reducible assumption
    | (intro _)
    | (extract_lets +onlyGivenNames x; try clear_value x)
    | split
    | (refine Keeps.prj (by with_reducible assumption) ?_)
    | with_reducible apply Keeps.lit

theorem execLaunchReserve_keeps {s0 : State} {a0} {a1} {s : State} (h : Keeps s0 s) :
    KeepsX s0 (execLaunchReserve a0 a1 s) := by
  unfold execLaunchReserve
  repeat' first
    | with_reducible assumption
    | with_reducible apply KeepsX.next
    | (intro _)
    | (extract_lets +onlyGivenNames x; try clear_value x)
    | split
    | (refine Keeps.prj (by with_reducible assumption) ?_)
    | with_reducible apply Keeps.lit

/-! ### Work -/

theorem copyPiece_keeps {s0 : State} {w : Who} {r : Rows} {i o n : Nat} {s : State} (h : Keeps s0 s) :
    Keeps s0 (copyPiece w r i o n s).2.2 := by
  unfold copyPiece
  extract_lets d f
  refine Keeps.cutW (s0 := s0) (f := f) ?_ fun hf => ?_
  · intro v r t hr ht
    dsimp only [f]
    split
    · exact putBack_keeps (Keeps.snd (by assumption) (writeVa_keeps ht))
    · exact Keeps.snd (by assumption) (writeVa_keeps ht)
  · clear_value f
    split
    · exact hf _ _ _ h h
    · dsimp only
      split
      · have ht := Keeps.snd (by assumption) (readRange_keeps h)
        split
        · exact hf _ _ _ h (State.bump_keeps ht)
        · exact hf _ _ _ h ht
      · exact Keeps.snd (by assumption) (readRange_keeps h)

theorem copyRun_keeps {s0 : State} {a0} {a1} {a2} {a3} {a4} {s : State} (h : Keeps s0 s) :
    Keeps s0 (copyRun a0 a1 a2 a3 a4 s).2 := by
  revert h
  fun_induction copyRun a0 a1 a2 a3 a4 s
  all_goals intro h
  all_goals repeat' first
    | with_reducible assumption
    | with_reducible apply copyPiece_keeps
    | (refine (show Keeps s0 _ → _ by with_reducible assumption) ?_)
    | (intro _)
    | split
    | (refine Keeps.snd (by with_reducible assumption) ?_)
    | (refine Keeps.snd2 (by with_reducible assumption) ?_)
    | (refine Keeps.prj (by with_reducible assumption) ?_)
    | with_reducible apply Keeps.lit

theorem copyFrom_keeps {s0 : State} {a0} {a1} {a2} {s : State} (h : Keeps s0 s) :
    Keeps s0 (copyFrom a0 a1 a2 s).2 := by
  unfold copyFrom
  repeat' first
    | with_reducible assumption
    | with_reducible apply copyRun_keeps
    | (intro _)
    | split
    | (refine Keeps.snd (by with_reducible assumption) ?_)
    | (refine Keeps.prj (by with_reducible assumption) ?_)
    | with_reducible apply Keeps.lit

theorem transferEnds_keeps {s0 : State} {a0} {a1} {s : State} (h : Keeps s0 s) :
    Keeps s0 (transferEnds a0 a1 s) := by
  unfold transferEnds
  repeat' first
    | with_reducible assumption
    | with_reducible apply sysRelease_keeps
    | with_reducible apply flightDone_keeps
    | with_reducible apply setFlight_keeps
    | (intro _)
    | split
    | (refine Keeps.snd (by with_reducible assumption) ?_)
    | (refine Keeps.prj (by with_reducible assumption) ?_)
    | with_reducible apply Keeps.lit

theorem rowsRun_keeps {s0 : State} {a0} {a1} {a2} {a3} {s : State} (h : Keeps s0 s) :
    Keeps s0 (rowsRun a0 a1 a2 a3 s) := by
  unfold rowsRun
  repeat' first
    | with_reducible assumption
    | with_reducible apply transferEnds_keeps
    | with_reducible apply copyFrom_keeps
    | with_reducible apply setFlight_keeps
    | with_reducible apply flightDone_keeps
    | with_reducible apply agentEnds_keeps
    | (intro _)
    | split
    | (refine Keeps.snd (by with_reducible assumption) ?_)
    | (refine Keeps.prj (by with_reducible assumption) ?_)
    | with_reducible apply Keeps.lit

theorem execWorkCopy_keeps {s0 : State} {a0} {a1} {a2} {s : State} (h : Keeps s0 s) :
    KeepsX s0 (execWorkCopy a0 a1 a2 s) := by
  unfold execWorkCopy
  repeat' first
    | with_reducible assumption
    | with_reducible apply KeepsX.next
    | with_reducible apply descriptorRow_keeps
    | with_reducible apply rowsRun_keeps
    | with_reducible apply agentReads_keeps
    | (intro _)
    | (extract_lets +onlyGivenNames x; refine Keeps.cut (s0 := s0) (t := x) ?_ (fun hx => ?_) <;> first | (replace hx : Keeps s0 x := hx; clear_value x) | (dsimp only [x]; clear x))
    | (refine Keeps.prj (by with_reducible assumption) ?_)
    | with_reducible apply Keeps.lit

theorem execFill_keeps {s0 : State} {a0} {a1} {a2} {s : State} (h : Keeps s0 s) :
    KeepsX s0 (execFill a0 a1 a2 s) := by
  unfold execFill
  repeat' first
    | with_reducible assumption
    | with_reducible apply KeepsX.next
    | with_reducible apply descriptorRow_keeps
    | with_reducible apply rowsRun_keeps
    | with_reducible apply agentReads_keeps
    | (intro _)
    | (extract_lets +onlyGivenNames x; refine Keeps.cut (s0 := s0) (t := x) ?_ (fun hx => ?_) <;> first | (replace hx : Keeps s0 x := hx; clear_value x) | (dsimp only [x]; clear x))
    | (refine Keeps.prj (by with_reducible assumption) ?_)
    | with_reducible apply Keeps.lit

theorem censusRun_keeps {s0 : State} {a0} {a1} {a2} {a3} {a4} {a5} {s : State} (h : Keeps s0 s) :
    Keeps s0 (censusRun a0 a1 a2 a3 a4 a5 s).2 := by
  revert h
  fun_induction censusRun a0 a1 a2 a3 a4 a5 s
  all_goals intro h
  all_goals repeat' first
    | with_reducible assumption
    | with_reducible apply writeVa_keeps
    | with_reducible apply readRange_keeps
    | with_reducible apply putBack_keeps
    | (refine (show Keeps s0 _ → _ by with_reducible assumption) ?_)
    | (intro _)
    | split
    | (refine Keeps.snd (by with_reducible assumption) ?_)
    | (refine Keeps.prj (by with_reducible assumption) ?_)
    | with_reducible apply Keeps.lit

theorem execCensusRead_keeps {s0 : State} {a0} {a1} {a2} {s : State} (h : Keeps s0 s) :
    KeepsX s0 (execCensusRead a0 a1 a2 s) := by
  unfold execCensusRead
  repeat' first
    | with_reducible assumption
    | with_reducible apply KeepsX.next
    | with_reducible apply descriptorRow_keeps
    | with_reducible apply flightDone_keeps
    | with_reducible apply transferEnds_keeps
    | with_reducible apply censusRun_keeps
    | with_reducible apply setFlight_keeps
    | with_reducible apply agentEnds_keeps
    | with_reducible apply agentReads_keeps
    | (intro _)
    | (extract_lets +onlyGivenNames x; refine Keeps.cut (s0 := s0) (t := x) ?_ (fun hx => ?_) <;> first | (replace hx : Keeps s0 x := hx; clear_value x) | (dsimp only [x]; clear x))
    | (extract_lets +onlyGivenNames x; try clear_value x)
    | split
    | (refine Keeps.snd (by with_reducible assumption) ?_)
    | (refine Keeps.prj (by with_reducible assumption) ?_)
    | with_reducible apply Keeps.lit

theorem signalRef_keeps {s0 : State} {a0} {s : State} (h : Keeps s0 s) :
    Keeps s0 (signalRef a0 s) := by
  unfold signalRef
  repeat' first
    | with_reducible assumption
    | with_reducible apply foldS_keeps
    | with_reducible apply State.setFence_keeps
    | (intro _)
    | (extract_lets +onlyGivenNames x; try clear_value x)
    | split
    | (refine Keeps.prj (by with_reducible assumption) ?_)
    | with_reducible apply Keeps.lit

theorem signalRun_keeps {s0 : State} {a0} {a1} {a2} {s : State} (h : Keeps s0 s) :
    Keeps s0 (signalRun a0 a1 a2 s) := by
  unfold signalRun
  repeat' first
    | with_reducible assumption
    | with_reducible apply foldS_keeps
    | with_reducible apply fenceUnref_keeps
    | with_reducible apply fenceReset_keeps
    | with_reducible apply fenceSignal_keeps
    | with_reducible apply flightDone_keeps
    | (intro _)
    | (extract_lets +onlyGivenNames x; refine Keeps.cut (s0 := s0) (t := x) ?_ (fun hx => ?_) <;> first | (replace hx : Keeps s0 x := hx; clear_value x) | (dsimp only [x]; clear x))
    | (extract_lets +onlyGivenNames x; try clear_value x)
    | split
    | (refine Keeps.prj (by with_reducible assumption) ?_)
    | with_reducible apply Keeps.lit

theorem execSignal_keeps {s0 : State} {a0} {a1} {s : State} (h : Keeps s0 s) :
    KeepsX s0 (execSignal a0 a1 s) := by
  unfold execSignal
  repeat' first
    | with_reducible assumption
    | with_reducible apply KeepsX.next
    | with_reducible apply descriptorRow_keeps
    | with_reducible apply signalRun_keeps
    | with_reducible apply signalRef_keeps
    | (intro _)
    | (extract_lets +onlyGivenNames x; try clear_value x)
    | split
    | (refine Keeps.prj (by with_reducible assumption) ?_)
    | with_reducible apply Keeps.lit

theorem waitRun_keeps {s0 : State} {a0} {a1} {s : State} (h : Keeps s0 s) :
    Keeps s0 (waitRun a0 a1 s) := by
  unfold waitRun
  repeat' first
    | with_reducible assumption
    | with_reducible apply State.setFence_keeps
    | with_reducible apply setFlight_keeps
    | with_reducible apply foldl_keeps
    | with_reducible apply foldl_keeps_snd
    | (intro _)
    | (extract_lets +onlyGivenNames x; try clear_value x)
    | split
    | (refine Keeps.prj (by with_reducible assumption) ?_)
    | with_reducible apply Keeps.lit

theorem execWait_keeps {s0 : State} {a0} {a1} {s : State} (h : Keeps s0 s) :
    KeepsX s0 (execWait a0 a1 s) := by
  unfold execWait
  repeat' first
    | with_reducible assumption
    | with_reducible apply KeepsX.next
    | with_reducible apply descriptorRow_keeps
    | with_reducible apply waitRun_keeps
    | (intro _)
    | (extract_lets +onlyGivenNames x; try clear_value x)
    | split
    | (refine Keeps.prj (by with_reducible assumption) ?_)
    | with_reducible apply Keeps.lit

theorem execBarrier_keeps {s0 : State} {a0} {a1} {s : State} (h : Keeps s0 s) :
    KeepsX s0 (execBarrier a0 a1 s) := by
  unfold execBarrier
  repeat' first
    | with_reducible assumption
    | with_reducible apply KeepsX.next
    | with_reducible apply descriptorRow_keeps
    | with_reducible apply flightDone_keeps
    | (intro _)
    | (extract_lets +onlyGivenNames x; try clear_value x)
    | split
    | (refine Keeps.prj (by with_reducible assumption) ?_)
    | with_reducible apply Keeps.lit

/-! ### Fences -/

theorem takeBlock_keeps {s0 : State} {a0} {a1} {s : State} (h : Keeps s0 s) :
    KeepsN s0 (takeBlock a0 a1 s) := by
  unfold takeBlock
  repeat' first
    | with_reducible assumption
    | with_reducible apply KeepsN.some
    | exact KeepsN.none
    | with_reducible apply alloc_keeps
    | (intro _)
    | split
    | (refine Keeps.opt (by with_reducible assumption) ?_)
    | (refine Keeps.prj (by with_reducible assumption) ?_)
    | with_reducible apply Keeps.lit

theorem actFenceCreate_keeps {s0 : State} {a0} {a1} {a2} {a3} {s : State} (h : Keeps s0 s) :
    Keeps s0 (actFenceCreate a0 a1 a2 a3 s).2 := by
  unfold actFenceCreate
  repeat' first
    | with_reducible assumption
    | with_reducible apply takeBlock_keeps
    | with_reducible apply ctxRef_keeps
    | with_reducible apply State.setFence_keeps
    | with_reducible apply segRef_keeps
    | with_reducible apply mirrorWrite_keeps
    | (intro _)
    | (extract_lets +onlyGivenNames x; refine Keeps.cut (s0 := s0) (t := x) ?_ (fun hx => ?_) <;> first | (replace hx : Keeps s0 x := hx; clear_value x) | (dsimp only [x]; clear x))
    | (extract_lets +onlyGivenNames x; try clear_value x)
    | split
    | (refine Keeps.optN (by with_reducible assumption) ?_)
    | (refine Keeps.prj (by with_reducible assumption) ?_)
    | with_reducible apply Keeps.lit

theorem execFenceCreate_keeps {s0 : State} {a0} {a1} {a2} {s : State} (h : Keeps s0 s) :
    KeepsX s0 (execFenceCreate a0 a1 a2 s) := by
  unfold execFenceCreate
  repeat' first
    | with_reducible assumption
    | with_reducible apply KeepsX.next
    | with_reducible apply stagePacket_keeps
    | with_reducible apply actFenceCreate_keeps
    | with_reducible apply noPrep_keeps
    | (intro _)
    | (refine Keeps.snd (by with_reducible assumption) ?_)
    | (refine Keeps.prj (by with_reducible assumption) ?_)
    | with_reducible apply Keeps.lit

theorem actFenceDestroy_keeps {s0 : State} {a0} {a1} {s : State} (h : Keeps s0 s) :
    Keeps s0 (actFenceDestroy a0 a1 s).2 := by
  unfold actFenceDestroy
  repeat' first
    | with_reducible assumption
    | with_reducible apply forceSignal_keeps
    | with_reducible apply fenceUnref_keeps
    | with_reducible apply State.setFence_keeps
    | (intro _)
    | (extract_lets +onlyGivenNames x; refine Keeps.cut (s0 := s0) (t := x) ?_ (fun hx => ?_) <;> first | (replace hx : Keeps s0 x := hx; clear_value x) | (dsimp only [x]; clear x))
    | split
    | (refine Keeps.prj (by with_reducible assumption) ?_)
    | with_reducible apply Keeps.lit

theorem execFenceDestroy_keeps {s0 : State} {a0} {a1} {s : State} (h : Keeps s0 s) :
    KeepsX s0 (execFenceDestroy a0 a1 s) := by
  unfold execFenceDestroy
  repeat' first
    | with_reducible assumption
    | with_reducible apply KeepsX.next
    | with_reducible apply stagePacket_keeps
    | with_reducible apply actFenceDestroy_keeps
    | with_reducible apply noPrep_keeps
    | (intro _)
    | (refine Keeps.snd (by with_reducible assumption) ?_)
    | (refine Keeps.prj (by with_reducible assumption) ?_)
    | with_reducible apply Keeps.lit

theorem execFenceSignal_keeps {s0 : State} {a0} {a1} {a2} {s : State} (h : Keeps s0 s) :
    KeepsX s0 (execFenceSignal a0 a1 a2 s) := by
  unfold execFenceSignal
  repeat' first
    | with_reducible assumption
    | with_reducible apply KeepsX.next
    | with_reducible apply directPacket_keeps
    | with_reducible apply fenceSignal_keeps
    | with_reducible apply State.touch_keeps
    | (intro _)
    | split
    | (refine Keeps.prj (by with_reducible assumption) ?_)
    | with_reducible apply Keeps.lit

theorem execFenceReset_keeps {s0 : State} {a0} {a1} {s : State} (h : Keeps s0 s) :
    KeepsX s0 (execFenceReset a0 a1 s) := by
  unfold execFenceReset
  repeat' first
    | with_reducible assumption
    | with_reducible apply KeepsX.next
    | with_reducible apply directPacket_keeps
    | with_reducible apply fenceReset_keeps
    | with_reducible apply State.touch_keeps
    | (intro _)
    | split
    | (refine Keeps.prj (by with_reducible assumption) ?_)
    | with_reducible apply Keeps.lit

theorem actRetain_keeps {s0 : State} {a0} {a1} {a2} {a3} {s : State} (h : Keeps s0 s) :
    Keeps s0 (actRetain a0 a1 a2 a3 s).2 := by
  unfold actRetain
  repeat' first
    | with_reducible assumption
    | with_reducible apply State.touch_keeps
    | with_reducible apply State.setCtx_keeps
    | with_reducible apply State.setQueue_keeps
    | with_reducible apply State.setFence_keeps
    | (intro _)
    | (extract_lets +onlyGivenNames x; try clear_value x)
    | split
    | (refine Keeps.prj (by with_reducible assumption) ?_)
    | with_reducible apply Keeps.lit

theorem actRelease_keeps {s0 : State} {a0} {a1} {a2} {a3} {s : State} (h : Keeps s0 s) :
    Keeps s0 (actRelease a0 a1 a2 a3 s).2 := by
  unfold actRelease
  repeat' first
    | with_reducible assumption
    | with_reducible apply ctxUnref_keeps
    | with_reducible apply State.touch_keeps
    | with_reducible apply State.setCtx_keeps
    | with_reducible apply queueUnref_keeps
    | with_reducible apply State.setQueue_keeps
    | with_reducible apply fenceUnref_keeps
    | with_reducible apply State.setFence_keeps
    | (intro _)
    | split
    | (refine Keeps.prj (by with_reducible assumption) ?_)
    | with_reducible apply Keeps.lit

theorem execObjRetain_keeps {s0 : State} {a0} {a1} {a2} {a3} {s : State} (h : Keeps s0 s) :
    KeepsX s0 (execObjRetain a0 a1 a2 a3 s) := by
  unfold execObjRetain
  repeat' first
    | with_reducible assumption
    | with_reducible apply KeepsX.next
    | with_reducible apply directPacket_keeps
    | with_reducible apply actRetain_keeps
    | (intro _)
    | (refine Keeps.snd (by with_reducible assumption) ?_)
    | (refine Keeps.prj (by with_reducible assumption) ?_)
    | with_reducible apply Keeps.lit

theorem execObjRelease_keeps {s0 : State} {a0} {a1} {a2} {a3} {s : State} (h : Keeps s0 s) :
    KeepsX s0 (execObjRelease a0 a1 a2 a3 s) := by
  unfold execObjRelease
  repeat' first
    | with_reducible assumption
    | with_reducible apply KeepsX.next
    | with_reducible apply directPacket_keeps
    | with_reducible apply actRelease_keeps
    | (intro _)
    | (refine Keeps.snd (by with_reducible assumption) ?_)
    | (refine Keeps.prj (by with_reducible assumption) ?_)
    | with_reducible apply Keeps.lit

theorem evtCtl_keeps {s0 : State} {a0} {a1} {a2} {s : State} (h : Keeps s0 s) :
    Keeps s0 (evtCtl a0 a1 a2 s) := by
  unfold evtCtl
  repeat' first
    | with_reducible assumption
    | with_reducible apply intxEval_keeps
    | with_reducible apply State.setRing_keeps
    | (intro _)
    | (extract_lets +onlyGivenNames x; try clear_value x)
    | split
    | (refine Keeps.prj (by with_reducible assumption) ?_)
    | with_reducible apply Keeps.lit

theorem execHubEvtCtl_keeps {s0 : State} {a0} {a1} {a2} {s : State} (h : Keeps s0 s) :
    KeepsX s0 (execHubEvtCtl a0 a1 a2 s) := by
  unfold execHubEvtCtl
  repeat' first
    | with_reducible assumption
    | with_reducible apply KeepsX.next
    | with_reducible apply evtCtl_keeps
    | (intro _)
    | split
    | (refine Keeps.prj (by with_reducible assumption) ?_)
    | with_reducible apply Keeps.lit

theorem evtAck_keeps {s0 : State} {a0} {a1} {s : State} (h : Keeps s0 s) :
    Keeps s0 (evtAck a0 a1 s) := by
  unfold evtAck
  repeat' first
    | with_reducible assumption
    | with_reducible apply intxEval_keeps
    | with_reducible apply evDrain_keeps
    | with_reducible apply State.setRing_keeps
    | (intro _)
    | (extract_lets +onlyGivenNames x; try clear_value x)
    | split
    | (refine Keeps.prj (by with_reducible assumption) ?_)
    | with_reducible apply Keeps.lit

theorem execHubEvtAck_keeps {s0 : State} {a0} {a1} {s : State} (h : Keeps s0 s) :
    KeepsX s0 (execHubEvtAck a0 a1 s) := by
  unfold execHubEvtAck
  repeat' first
    | with_reducible assumption
    | with_reducible apply KeepsX.next
    | with_reducible apply evtAck_keeps
    | (intro _)
    | split
    | (refine Keeps.prj (by with_reducible assumption) ?_)
    | with_reducible apply Keeps.lit

theorem faultCtl_keeps {s0 : State} {a0} {a1} {s : State} (h : Keeps s0 s) :
    Keeps s0 (faultCtl a0 a1 s) := by
  unfold faultCtl
  repeat' first
    | with_reducible assumption
    | with_reducible apply sidingDrain_keeps
    | with_reducible apply State.setFring_keeps
    | (intro _)
    | (extract_lets +onlyGivenNames x; try clear_value x)
    | split
    | (refine Keeps.prj (by with_reducible assumption) ?_)
    | with_reducible apply Keeps.lit

theorem execPtFaultCtl_keeps {s0 : State} {a0} {a1} {s : State} (h : Keeps s0 s) :
    KeepsX s0 (execPtFaultCtl a0 a1 s) := by
  unfold execPtFaultCtl
  repeat' first
    | with_reducible assumption
    | with_reducible apply KeepsX.next
    | with_reducible apply faultCtl_keeps
    | (intro _)
    | split
    | (refine Keeps.prj (by with_reducible assumption) ?_)
    | with_reducible apply Keeps.lit

theorem faultAck_keeps {s0 : State} {a0} {a1} {s : State} (h : Keeps s0 s) :
    Keeps s0 (faultAck a0 a1 s) := by
  unfold faultAck
  repeat' first
    | with_reducible assumption
    | with_reducible apply sidingDrain_keeps
    | with_reducible apply State.setFring_keeps
    | (intro _)
    | (extract_lets +onlyGivenNames x; try clear_value x)
    | split
    | (refine Keeps.prj (by with_reducible assumption) ?_)
    | with_reducible apply Keeps.lit

theorem execPtFaultAck_keeps {s0 : State} {a0} {a1} {s : State} (h : Keeps s0 s) :
    KeepsX s0 (execPtFaultAck a0 a1 s) := by
  unfold execPtFaultAck
  repeat' first
    | with_reducible assumption
    | with_reducible apply KeepsX.next
    | with_reducible apply faultAck_keeps
    | (intro _)
    | split
    | (refine Keeps.prj (by with_reducible assumption) ?_)
    | with_reducible apply Keeps.lit

theorem abandonOne_keeps {s0 : State} {a0} {a1} {s : State} (h : Keeps s0 s) :
    Keeps s0 (abandonOne a0 a1 s) := by
  unfold abandonOne
  repeat' first
    | with_reducible assumption
    | with_reducible apply completeFlight_keeps
    | with_reducible apply launchFails_keeps
    | with_reducible apply signalRun_keeps
    | with_reducible apply foldS_keeps
    | with_reducible apply fenceUnref_keeps
    | with_reducible apply State.setFence_keeps
    | with_reducible apply dropWho_keeps
    | (intro _)
    | (extract_lets +onlyGivenNames x; refine Keeps.cut (s0 := s0) (t := x) ?_ (fun hx => ?_) <;> first | (replace hx : Keeps s0 x := hx; clear_value x) | (dsimp only [x]; clear x))
    | (extract_lets +onlyGivenNames x; try clear_value x)
    | split
    | (refine Keeps.prj (by with_reducible assumption) ?_)
    | with_reducible apply Keeps.lit

theorem abandonFlight_keeps {s0 : State} {a0} {s : State} (h : Keeps s0 s) :
    Keeps s0 (abandonFlight a0 s) := by
  unfold abandonFlight
  repeat' first
    | with_reducible assumption
    | with_reducible apply foldS_keeps
    | with_reducible apply abandonOne_keeps
    | with_reducible apply hf
    | (intro _)
    | (extract_lets +onlyGivenNames f; refine Keeps.cutS (s0 := s0) (f := f) ?_ (fun hf => ?_) <;> first | (replace hf : ∀ s, Keeps s0 s → Keeps s0 (f s) := hf; clear_value f) | (dsimp only [f]; clear f))
    | split
    | (refine Keeps.prj (by with_reducible assumption) ?_)
    | with_reducible apply Keeps.lit

theorem abandonRest_keeps {s0 : State} {a0} {a1} {s : State} (h : Keeps s0 s) :
    Keeps s0 (abandonRest a0 a1 s) := by
  revert h
  fun_induction abandonRest a0 a1 s
  all_goals intro h
  all_goals repeat' first
    | with_reducible assumption
    | with_reducible apply foldS_keeps
    | with_reducible apply completeHead_keeps
    | with_reducible apply fetchRun_keeps
    | (refine (show Keeps s0 _ → _ by with_reducible assumption) ?_)
    | (intro _)
    | split
    | (refine Keeps.prj (by with_reducible assumption) ?_)
    | with_reducible apply Keeps.lit

theorem setAbandon_keeps {s0 : State} {a0} {a1} {s : State} (h : Keeps s0 s) :
    Keeps s0 (setAbandon a0 a1 s) := by
  unfold setAbandon
  repeat' first
    | with_reducible assumption
    | with_reducible apply State.setCtx_keeps
    | (intro _)
    | split
    | (refine Keeps.prj (by with_reducible assumption) ?_)
    | with_reducible apply Keeps.lit

theorem abandonStart_keeps {s0 : State} {a0} {a1} {s : State} (h : Keeps s0 s) :
    Keeps s0 (abandonStart a0 a1 s) := by
  unfold abandonStart
  repeat' first
    | with_reducible assumption
    | with_reducible apply stopContext_keeps
    | with_reducible apply ctxFault_keeps
    | with_reducible apply settleLaunches_keeps
    | with_reducible apply State.setCtx_keeps
    | (intro _)
    | (extract_lets +onlyGivenNames x; refine Keeps.cut (s0 := s0) (t := x) ?_ (fun hx => ?_) <;> first | (replace hx : Keeps s0 x := hx; clear_value x) | (dsimp only [x]; clear x))
    | split
    | (refine Keeps.prj (by with_reducible assumption) ?_)
    | with_reducible apply Keeps.lit

theorem abandonFlush_keeps {s0 : State} {a0} {s : State} (h : Keeps s0 s) :
    Keeps s0 (abandonFlush a0 s) := by
  unfold abandonFlush
  repeat' first
    | with_reducible assumption
    | with_reducible apply foldS_keeps
    | with_reducible apply abandonRest_keeps
    | with_reducible apply abandonFlight_keeps
    | with_reducible apply setAbandon_keeps
    | with_reducible apply State.setQueue_keeps
    | (intro _)
    | (extract_lets +onlyGivenNames x; refine Keeps.cut (s0 := s0) (t := x) ?_ (fun hx => ?_) <;> first | (replace hx : Keeps s0 x := hx; clear_value x) | (dsimp only [x]; clear x))
    | (extract_lets +onlyGivenNames x; try clear_value x)
    | split
    | (refine Keeps.prj (by with_reducible assumption) ?_)
    | with_reducible apply Keeps.lit

theorem abandonFences_keeps {s0 : State} {a0} {a1} {s : State} (h : Keeps s0 s) :
    Keeps s0 (abandonFences a0 a1 s) := by
  unfold abandonFences
  repeat' first
    | with_reducible assumption
    | with_reducible apply foldS_keeps
    | with_reducible apply forceSignal_keeps
    | with_reducible apply setAbandon_keeps
    | with_reducible apply prepUnmap_keeps
    | with_reducible apply prepSegClear_keeps
    | (intro _)
    | (extract_lets +onlyGivenNames x; refine Keeps.cut (s0 := s0) (t := x) ?_ (fun hx => ?_) <;> first | (replace hx : Keeps s0 x := hx; clear_value x) | (dsimp only [x]; clear x))
    | (extract_lets +onlyGivenNames x; try clear_value x)
    | split
    | (refine Keeps.prj (by with_reducible assumption) ?_)
    | with_reducible apply Keeps.lit

theorem abandonSeg_keeps {s0 : State} {a0} {a1} {s : State} (h : Keeps s0 s) :
    Keeps s0 (abandonSeg a0 a1 s) := by
  unfold abandonSeg
  repeat' first
    | with_reducible assumption
    | with_reducible apply withdraw_keeps
    | with_reducible apply mapCount_keeps
    | with_reducible apply State.setCtx_keeps
    | with_reducible apply freeAlloc_keeps
    | (intro _)
    | (extract_lets +onlyGivenNames x; refine Keeps.cut (s0 := s0) (t := x) ?_ (fun hx => ?_) <;> first | (replace hx : Keeps s0 x := hx; clear_value x) | (dsimp only [x]; clear x))
    | split
    | (refine Keeps.snd2 (by with_reducible assumption) ?_)
    | (refine Keeps.prj (by with_reducible assumption) ?_)
    | with_reducible apply Keeps.lit

theorem abandonEnd_keeps {s0 : State} {a0} {a1} {s : State} (h : Keeps s0 s) :
    Keeps s0 (abandonEnd a0 a1 s) := by
  unfold abandonEnd
  repeat' first
    | with_reducible assumption
    | with_reducible apply unprep_keeps
    | with_reducible apply setAbandon_keeps
    | with_reducible apply foldS_keeps
    | with_reducible apply abandonSeg_keeps
    | with_reducible apply queueUnref_keeps
    | with_reducible apply State.setQueue_keeps
    | with_reducible apply fenceUnref_keeps
    | with_reducible apply State.setFence_keeps
    | with_reducible apply ctxUnref_keeps
    | with_reducible apply State.setCtx_keeps
    | with_reducible apply reply_keeps
    | with_reducible apply stampAll_keeps
    | (intro _)
    | (extract_lets +onlyGivenNames x; refine Keeps.cut (s0 := s0) (t := x) ?_ (fun hx => ?_) <;> first | (replace hx : Keeps s0 x := hx; clear_value x) | (dsimp only [x]; clear x))
    | (extract_lets +onlyGivenNames x; try clear_value x)
    | split
    | (refine Keeps.prj (by with_reducible assumption) ?_)
    | with_reducible apply Keeps.lit

theorem abandonRun_keeps {s0 : State} {c : Nat} {s : State} (h : Keeps s0 s) : Keeps s0 (abandonRun c s) := by
  unfold abandonRun
  extract_lets step
  have hs : ∀ n f s, (∀ p s, Keeps s0 s → Keeps s0 (f p s)) → Keeps s0 s → Keeps s0 (step n f s) := by
    intro n f t hf ht
    dsimp only [step]
    split
    · exact ht
    · split
      · exact ht
      · split
        · exact hf _ _ ht
        · exact ht
  clear_value step
  refine hs _ _ _ (fun p t ht => ?_) (hs _ _ _ (fun _ _ => abandonFences_keeps) (hs _ _ _ (fun _ _ => abandonFlush_keeps) h))
  split
  · exact ht
  · exact abandonEnd_keeps ht

theorem settleAbandons_keeps {s0 : State} {s : State} (h : Keeps s0 s) :
    Keeps s0 (settleAbandons s) := by
  unfold settleAbandons
  repeat' first
    | with_reducible assumption
    | with_reducible apply foldS_keeps
    | with_reducible apply abandonRun_keeps
    | (intro _)
    | (refine Keeps.prj (by with_reducible assumption) ?_)
    | with_reducible apply Keeps.lit

theorem execContextAbandon_keeps {s0 : State} {a0} {a1} {s : State} (h : Keeps s0 s) :
    KeepsX s0 (execContextAbandon a0 a1 s) := by
  unfold execContextAbandon
  repeat' first
    | with_reducible assumption
    | with_reducible apply KeepsX.next
    | with_reducible apply abandonRun_keeps
    | with_reducible apply reply_keeps
    | with_reducible apply abandonStart_keeps
    | (intro _)
    | (extract_lets +onlyGivenNames x; try clear_value x)
    | split
    | (refine Keeps.prj (by with_reducible assumption) ?_)
    | with_reducible apply Keeps.lit

/-! ### Commands -/

theorem cmdTail_keeps {s0 : State} {a0} {s : State} (h : Keeps s0 s) :
    Keeps s0 (cmdTail a0 s) := by
  unfold cmdTail
  repeat' first
    | with_reducible assumption
    | (intro _)
    | (extract_lets +onlyGivenNames x; try clear_value x)
    | split
    | (refine Keeps.prj (by with_reducible assumption) ?_)
    | with_reducible apply Keeps.lit

theorem execHubCmdTail_keeps {s0 : State} {a0} {s : State} (h : Keeps s0 s) :
    KeepsX s0 (execHubCmdTail a0 s) := by
  unfold execHubCmdTail
  repeat' first
    | with_reducible assumption
    | with_reducible apply KeepsX.next
    | with_reducible apply cmdTail_keeps
    | (intro _)
    | split
    | (refine Keeps.prj (by with_reducible assumption) ?_)
    | with_reducible apply Keeps.lit

theorem cmdCtl_keeps {s0 : State} {a0} {a1} {s : State} (h : Keeps s0 s) :
    Keeps s0 (cmdCtl a0 a1 s) := by
  unfold cmdCtl
  repeat' first
    | with_reducible assumption
    | (intro _)
    | (extract_lets +onlyGivenNames x; try clear_value x)
    | split
    | (refine Keeps.prj (by with_reducible assumption) ?_)
    | with_reducible apply Keeps.lit

theorem execHubCmdCtl_keeps {s0 : State} {a0} {a1} {s : State} (h : Keeps s0 s) :
    KeepsX s0 (execHubCmdCtl a0 a1 s) := by
  unfold execHubCmdCtl
  repeat' first
    | with_reducible assumption
    | with_reducible apply KeepsX.next
    | with_reducible apply cmdCtl_keeps
    | (intro _)
    | split
    | (refine Keeps.prj (by with_reducible assumption) ?_)
    | with_reducible apply Keeps.lit

theorem selfAnswer_keeps {s0 : State} {a0} {a1} {s : State} (h : Keeps s0 s) :
    Keeps s0 (selfAnswer a0 a1 s) := by
  unfold selfAnswer
  repeat' first
    | with_reducible assumption
    | with_reducible apply reply_keeps
    | with_reducible apply directPacket_keeps
    | (intro _)
    | split
    | (refine Keeps.prj (by with_reducible assumption) ?_)
    | with_reducible apply Keeps.lit

theorem acceptPacket_keeps {s0 : State} {a0} {a1} {a2} {s : State} (h : Keeps s0 s) :
    Keeps s0 (acceptPacket a0 a1 a2 s) := by
  unfold acceptPacket
  repeat' first
    | with_reducible assumption
    | with_reducible apply selfAnswer_keeps
    | (intro _)
    | (refine Keeps.prj (by with_reducible assumption) ?_)
    | with_reducible apply Keeps.lit

theorem settleAccepted_keeps {s0 : State} {s : State} (h : Keeps s0 s) :
    Keeps s0 (settleAccepted s) := by
  unfold settleAccepted
  repeat' first
    | with_reducible assumption
    | with_reducible apply foldS_keeps
    | with_reducible apply selfAnswer_keeps
    | (intro _)
    | (refine Keeps.prj (by with_reducible assumption) ?_)
    | with_reducible apply Keeps.lit

theorem execPacketFetch_keeps {s0 : State} {a0} {a1} {s : State} (h : Keeps s0 s) :
    KeepsX s0 (execPacketFetch a0 a1 s) := by
  unfold execPacketFetch
  repeat' first
    | with_reducible assumption
    | with_reducible apply KeepsX.next
    | with_reducible apply acceptPacket_keeps
    | (intro _)
    | (extract_lets +onlyGivenNames x; try clear_value x)
    | split
    | (refine Keeps.prj (by with_reducible assumption) ?_)
    | with_reducible apply Keeps.lit

theorem mbxClaim_keeps {s0 : State} {a0} {s : State} (h : Keeps s0 s) :
    Keeps s0 (mbxClaim a0 s) := by
  unfold mbxClaim
  repeat' first
    | with_reducible assumption
    | (intro _)
    | (extract_lets +onlyGivenNames x; try clear_value x)
    | split
    | (refine Keeps.prj (by with_reducible assumption) ?_)
    | with_reducible apply Keeps.lit

theorem mbxRelease_keeps {s0 : State} {a0} {s : State} (h : Keeps s0 s) :
    Keeps s0 (mbxRelease a0 s) := by
  unfold mbxRelease
  repeat' first
    | with_reducible assumption
    | (intro _)
    | (extract_lets +onlyGivenNames x; try clear_value x)
    | split
    | (refine Keeps.prj (by with_reducible assumption) ?_)
    | with_reducible apply Keeps.lit

theorem execClaim_keeps {s0 : State} {a0} {s : State} (h : Keeps s0 s) :
    KeepsX s0 (execClaim a0 s) := by
  unfold execClaim
  repeat' first
    | with_reducible assumption
    | with_reducible apply KeepsX.next
    | with_reducible apply mbxClaim_keeps
    | (intro _)
    | split
    | (refine Keeps.prj (by with_reducible assumption) ?_)
    | with_reducible apply Keeps.lit

theorem execRelease_keeps {s0 : State} {a0} {s : State} (h : Keeps s0 s) :
    KeepsX s0 (execRelease a0 s) := by
  unfold execRelease
  repeat' first
    | with_reducible assumption
    | with_reducible apply KeepsX.next
    | with_reducible apply mbxRelease_keeps
    | (intro _)
    | split
    | (refine Keeps.prj (by with_reducible assumption) ?_)
    | with_reducible apply Keeps.lit

theorem mbxGo_keeps {s0 : State} {a0} {a1} {s : State} (h : Keeps s0 s) :
    Keeps s0 (mbxGo a0 a1 s) := by
  unfold mbxGo
  repeat' first
    | with_reducible assumption
    | with_reducible apply acceptPacket_keeps
    | (intro _)
    | (extract_lets +onlyGivenNames x; try clear_value x)
    | split
    | (refine Keeps.prj (by with_reducible assumption) ?_)
    | with_reducible apply Keeps.lit

theorem execGo_keeps {s0 : State} {a0} {a1} {s : State} (h : Keeps s0 s) :
    KeepsX s0 (execGo a0 a1 s) := by
  unfold execGo
  repeat' first
    | with_reducible assumption
    | with_reducible apply KeepsX.next
    | with_reducible apply mbxGo_keeps
    | (intro _)
    | (refine Keeps.prj (by with_reducible assumption) ?_)
    | with_reducible apply Keeps.lit

theorem execMailboxReleaseTimeout_keeps {s0 : State} {s : State} (h : Keeps s0 s) :
    KeepsX s0 (execMailboxReleaseTimeout s) := by
  unfold execMailboxReleaseTimeout
  repeat' first
    | with_reducible assumption
    | with_reducible apply KeepsX.next
    | (intro _)
    | (extract_lets +onlyGivenNames x; try clear_value x)
    | split
    | (refine Keeps.prj (by with_reducible assumption) ?_)
    | with_reducible apply Keeps.lit

theorem execTxnJournal_keeps {s0 : State} {a0} {s : State} (h : Keeps s0 s) :
    KeepsX s0 (execTxnJournal a0 s) := by
  unfold execTxnJournal
  repeat' first
    | with_reducible assumption
    | with_reducible apply KeepsX.next
    | with_reducible apply directPacket_keeps
    | (intro _)
    | split
    | (refine Keeps.prj (by with_reducible assumption) ?_)
    | with_reducible apply Keeps.lit

theorem actOfflineClear_keeps {s0 : State} {a0} {a1} {s : State} (h : Keeps s0 s) :
    Keeps s0 (actOfflineClear a0 a1 s).2 := by
  unfold actOfflineClear
  repeat' first
    | with_reducible assumption
    | with_reducible apply State.touch_keeps
    | (intro _)
    | split
    | (refine Keeps.prj (by with_reducible assumption) ?_)
    | with_reducible apply Keeps.lit

theorem execOfflineClear_keeps {s0 : State} {a0} {a1} {a2} {s : State} (h : Keeps s0 s) :
    KeepsX s0 (execOfflineClear a0 a1 a2 s) := by
  unfold execOfflineClear
  repeat' first
    | with_reducible assumption
    | with_reducible apply KeepsX.next
    | with_reducible apply directPacket_keeps
    | with_reducible apply actOfflineClear_keeps
    | (intro _)
    | (refine Keeps.snd (by with_reducible assumption) ?_)
    | (refine Keeps.prj (by with_reducible assumption) ?_)
    | with_reducible apply Keeps.lit

theorem grantOne_keeps {s0 : State} {a0} {a1} {a2} {a3} {s : State} (h : Keeps s0 s) :
    Keeps s0 (grantOne a0 a1 a2 a3 s).2 := by
  revert h
  fun_induction grantOne a0 a1 a2 a3 s
  all_goals intro h
  all_goals repeat' first
    | with_reducible assumption
    | (refine (show Keeps s0 _ → _ by with_reducible assumption) ?_)
    | (intro _)
    | split
    | (refine Keeps.snd (by with_reducible assumption) ?_)
    | (refine Keeps.prj (by with_reducible assumption) ?_)
    | with_reducible apply Keeps.lit

theorem withdrawOne_keeps {s0 : State} {a0} {a1} {a2} {a3} {s : State} (h : Keeps s0 s) :
    Keeps s0 (withdrawOne a0 a1 a2 a3 s).2 := by
  revert h
  fun_induction withdrawOne a0 a1 a2 a3 s
  all_goals intro h
  all_goals repeat' first
    | with_reducible assumption
    | (refine (show Keeps s0 _ → _ by with_reducible assumption) ?_)
    | (intro _)
    | split
    | (refine Keeps.snd (by with_reducible assumption) ?_)
    | (refine Keeps.prj (by with_reducible assumption) ?_)
    | with_reducible apply Keeps.lit

theorem actPool_keeps {s0 : State} {a0} {a1} {a2} {a3} {s : State} (h2 : ∀ b0 b1 b2 b3 s, Keeps s0 s → Keeps s0 (a2 b0 b1 b2 b3 s).2) (h : Keeps s0 s) :
    Keeps s0 (actPool a0 a1 a2 a3 s).2 := by
  unfold actPool
  repeat' first
    | with_reducible assumption
    | with_reducible apply h2
    | (intro _)
    | split
    | (refine Keeps.prj (by with_reducible assumption) ?_)
    | with_reducible apply Keeps.lit

theorem execAutotierPoolGrant_keeps {s0 : State} {a0} {a1} {a2} {s : State} (h : Keeps s0 s) :
    KeepsX s0 (execAutotierPoolGrant a0 a1 a2 s) := by
  unfold execAutotierPoolGrant
  repeat' first
    | with_reducible assumption
    | with_reducible apply KeepsX.next
    | with_reducible apply stagePacket_keeps
    | with_reducible apply actPool_keeps
    | with_reducible apply grantOne_keeps
    | with_reducible apply noPrep_keeps
    | (intro _)
    | (extract_lets +onlyGivenNames x; try clear_value x)
    | (refine Keeps.snd (by with_reducible assumption) ?_)
    | (refine Keeps.prj (by with_reducible assumption) ?_)
    | with_reducible apply Keeps.lit

theorem execAutotierPoolWithdraw_keeps {s0 : State} {a0} {a1} {a2} {s : State} (h : Keeps s0 s) :
    KeepsX s0 (execAutotierPoolWithdraw a0 a1 a2 s) := by
  unfold execAutotierPoolWithdraw
  repeat' first
    | with_reducible assumption
    | with_reducible apply KeepsX.next
    | with_reducible apply stagePacket_keeps
    | with_reducible apply actPool_keeps
    | with_reducible apply withdrawOne_keeps
    | with_reducible apply noPrep_keeps
    | (intro _)
    | (extract_lets +onlyGivenNames x; try clear_value x)
    | (refine Keeps.snd (by with_reducible assumption) ?_)
    | (refine Keeps.prj (by with_reducible assumption) ?_)
    | with_reducible apply Keeps.lit

/-! ### HostPort -/

theorem freeze_keeps {s0 : State} {a0} {s : State} (h : Keeps s0 s) :
    Keeps s0 (freeze a0 s) := by
  unfold freeze
  repeat' first
    | with_reducible assumption
    | with_reducible apply smbSet_keeps
    | with_reducible apply report_keeps
    | with_reducible apply foldl_keeps
    | with_reducible apply foldl_keeps_snd
    | (intro _)
    | (extract_lets +onlyGivenNames x; refine Keeps.cut (s0 := s0) (t := x) ?_ (fun hx => ?_) <;> first | (replace hx : Keeps s0 x := hx; clear_value x) | (dsimp only [x]; clear x))
    | (extract_lets +onlyGivenNames x; try clear_value x)
    | split
    | (refine Keeps.prj (by with_reducible assumption) ?_)
    | with_reducible apply Keeps.lit

theorem aerSet_keeps {s0 : State} {a0} {s : State} (h : Keeps s0 s) :
    Keeps s0 (aerSet a0 s) := by
  unfold aerSet
  repeat' first
    | with_reducible assumption
    | (intro _)
    | (extract_lets +onlyGivenNames x; try clear_value x)
    | (refine Keeps.prj (by with_reducible assumption) ?_)
    | with_reducible apply Keeps.lit

theorem hostFail_keeps {s0 : State} {a0} {a1} {a2} {s : State} (h : Keeps s0 s) :
    Keeps s0 (hostFail a0 a1 a2 s) := by
  unfold hostFail
  repeat' first
    | with_reducible assumption
    | with_reducible apply engineFault_keeps
    | (intro _)
    | (extract_lets +onlyGivenNames x; refine Keeps.cut (s0 := s0) (t := x) ?_ (fun hx => ?_) <;> first | (replace hx : Keeps s0 x := hx; clear_value x) | (dsimp only [x]; clear x))
    | (extract_lets +onlyGivenNames x; try clear_value x)
    | split
    | (refine Keeps.prj (by with_reducible assumption) ?_)
    | with_reducible apply Keeps.lit

theorem settleInval_keeps {s0 : State} {s : State} (h : Keeps s0 s) :
    Keeps s0 (settleInval s) := by
  unfold settleInval
  repeat' first
    | with_reducible assumption
    | with_reducible apply foldS_keeps
    | with_reducible apply emit_keeps
    | (intro _)
    | (extract_lets +onlyGivenNames x; refine Keeps.cut (s0 := s0) (t := x) ?_ (fun hx => ?_) <;> first | (replace hx : Keeps s0 x := hx; clear_value x) | (dsimp only [x]; clear x))
    | (extract_lets +onlyGivenNames x; try clear_value x)
    | split
    | (refine Keeps.prj (by with_reducible assumption) ?_)
    | with_reducible apply Keeps.lit

theorem execAtsInvalidationRequest_keeps {s0 : State} {a0} {a1} {a2} {a3} {s : State} (h : Keeps s0 s) :
    KeepsX s0 (execAtsInvalidationRequest a0 a1 a2 a3 s) := by
  unfold execAtsInvalidationRequest
  repeat' first
    | with_reducible assumption
    | with_reducible apply KeepsX.next
    | with_reducible apply settleInval_keeps
    | (intro _)
    | (extract_lets +onlyGivenNames x; try clear_value x)
    | (refine Keeps.prj (by with_reducible assumption) ?_)
    | with_reducible apply Keeps.lit

theorem execTranslationCompletion_keeps {s0 : State} {a0} {a1} {a2} {a3} {a4} {a5} {a6} {s : State} (h : Keeps s0 s) :
    KeepsX s0 (execTranslationCompletion a0 a1 a2 a3 a4 a5 a6 s) := by
  unfold execTranslationCompletion
  repeat' first
    | with_reducible assumption
    | with_reducible apply KeepsX.next
    | with_reducible apply releaseParked_keeps
    | with_reducible apply foldS_keeps
    | (intro _)
    | (extract_lets +onlyGivenNames x; refine Keeps.cut (s0 := s0) (t := x) ?_ (fun hx => ?_) <;> first | (replace hx : Keeps s0 x := hx; clear_value x) | (dsimp only [x]; clear x))
    | (extract_lets +onlyGivenNames x; try clear_value x)
    | split
    | (refine Keeps.prj (by with_reducible assumption) ?_)
    | with_reducible apply Keeps.lit

theorem bar4Err_keeps {s0 : State} {a0} {a1} {s : State} (h : Keeps s0 s) :
    Keeps s0 (bar4Err a0 a1 s) := by
  unfold bar4Err
  repeat' first
    | with_reducible assumption
    | (intro _)
    | (extract_lets +onlyGivenNames x; try clear_value x)
    | split
    | (refine Keeps.prj (by with_reducible assumption) ?_)
    | with_reducible apply Keeps.lit

theorem hostAnswer_keeps {s0 : State} {a0} {a1} {s : State} (h : Keeps s0 s) :
    Keeps s0 (hostAnswer a0 a1 s) := by
  unfold hostAnswer
  repeat' first
    | with_reducible assumption
    | with_reducible apply emit_keeps
    | (intro _)
    | split
    | (refine Keeps.prj (by with_reducible assumption) ?_)
    | with_reducible apply Keeps.lit

theorem bar4ReadLine_keeps {s0 : State} {a0} {a1} {s : State} (h : Keeps s0 s) :
    Keeps s0 (bar4ReadLine a0 a1 s).2 := by
  unfold bar4ReadLine
  repeat' first
    | with_reducible assumption
    | with_reducible apply hostAnswer_keeps
    | with_reducible apply bar4Err_keeps
    | with_reducible apply once_keeps
    | (intro _)
    | (extract_lets +onlyGivenNames x; try clear_value x)
    | split
    | (refine Keeps.snd (by with_reducible assumption) ?_)
    | (refine Keeps.prj (by with_reducible assumption) ?_)
    | with_reducible apply Keeps.lit

theorem bar4ReadLines_keeps {s0 : State} {a0} {s : State} (h : Keeps s0 s) :
    Keeps s0 (bar4ReadLines a0 s).2 := by
  revert h
  fun_induction bar4ReadLines a0 s
  all_goals intro h
  all_goals repeat' first
    | with_reducible assumption
    | with_reducible apply bar4ReadLine_keeps
    | (refine (show Keeps s0 _ → _ by with_reducible assumption) ?_)
    | (intro _)
    | split
    | (refine Keeps.snd (by with_reducible assumption) ?_)
    | (refine Keeps.prj (by with_reducible assumption) ?_)
    | with_reducible apply Keeps.lit

theorem bar4Undo_keeps {s0 : State} {a0} {s : State} (h : Keeps s0 s) :
    Keeps s0 (bar4Undo a0 s) := by
  unfold bar4Undo
  repeat' first
    | with_reducible assumption
    | with_reducible apply putBack_keeps
    | (intro _)
    | (extract_lets +onlyGivenNames x; try clear_value x)
    | split
    | (refine Keeps.prj (by with_reducible assumption) ?_)
    | with_reducible apply Keeps.lit

theorem bar4Run_keeps {s0 : State} {n : Nat} {s : State} (h : Keeps s0 s) : Keeps s0 (bar4Run n s) := by
  induction n generalizing s with
  | zero => exact h
  | succ n ih =>
    unfold bar4Run
    split
    · exact h
    · extract_lets next m key
      have hn : ∀ s, Keeps s0 s → Keeps s0 (next s) := fun _ k => ih (Keeps.lit k)
      clear_value next m key
      split
      · exact hn _ (bar4Err_keeps h)
      · split
        · exact Keeps.snd (by assumption) (once_keeps h)
        · have k := Keeps.snd (by assumption) (once_keeps h)
          repeat' first
            | split
            | exact hn _ (bar4Err_keeps k)
            | exact hn _ k

theorem settleWrites_keeps {s0 : State} {s : State} (h : Keeps s0 s) :
    Keeps s0 (settleWrites s) := by
  unfold settleWrites
  repeat' first
    | with_reducible assumption
    | with_reducible apply bar4Run_keeps
    | (intro _)
    | (refine Keeps.prj (by with_reducible assumption) ?_)
    | with_reducible apply Keeps.lit

theorem execBar4Write_keeps {s0 : State} {a0} {a1} {a2} {a3} {s : State} (h : Keeps s0 s) :
    KeepsX s0 (execBar4Write a0 a1 a2 a3 s) := by
  unfold execBar4Write
  repeat' first
    | with_reducible assumption
    | with_reducible apply KeepsX.next
    | with_reducible apply settleWrites_keeps
    | with_reducible apply foldS_keeps
    | with_reducible apply bar4Err_keeps
    | (intro _)
    | (extract_lets +onlyGivenNames x; refine Keeps.cut (s0 := s0) (t := x) ?_ (fun hx => ?_) <;> first | (replace hx : Keeps s0 x := hx; clear_value x) | (dsimp only [x]; clear x))
    | (extract_lets +onlyGivenNames x; try clear_value x)
    | split
    | (refine Keeps.prj (by with_reducible assumption) ?_)
    | with_reducible apply Keeps.lit

theorem execBar4Read_keeps {s0 : State} {a0} {a1} {a2} {s : State} (h : Keeps s0 s) :
    KeepsX s0 (execBar4Read a0 a1 a2 s) := by
  unfold execBar4Read
  repeat' first
    | with_reducible assumption
    | with_reducible apply KeepsX.next
    | with_reducible apply emit_keeps
    | with_reducible apply State.bump_keeps
    | with_reducible apply foldS_keeps
    | with_reducible apply bar4Err_keeps
    | with_reducible apply settleWrites_keeps
    | with_reducible apply bar4ReadLines_keeps
    | with_reducible apply bar4Undo_keeps
    | (intro _)
    | (extract_lets +onlyGivenNames x; refine Keeps.cut (s0 := s0) (t := x) ?_ (fun hx => ?_) <;> first | (replace hx : Keeps s0 x := hx; clear_value x) | (dsimp only [x]; clear x))
    | (extract_lets +onlyGivenNames x; try clear_value x)
    | split
    | (refine Keeps.snd (by with_reducible assumption) ?_)
    | (refine Keeps.prj (by with_reducible assumption) ?_)
    | with_reducible apply Keeps.lit

theorem execInboundAtomicop_keeps {s0 : State} {a0} {a1} {a2} {a3} {a4} {a5} {s : State} (h : Keeps s0 s) :
    KeepsX s0 (execInboundAtomicop a0 a1 a2 a3 a4 a5 s) := by
  unfold execInboundAtomicop
  repeat' first
    | with_reducible assumption
    | with_reducible apply KeepsX.next
    | with_reducible apply emit_keeps
    | with_reducible apply bar4Err_keeps
    | with_reducible apply settleWrites_keeps
    | with_reducible apply hostAnswer_keeps
    | with_reducible apply once_keeps
    | with_reducible apply State.bump_keeps
    | (intro _)
    | (extract_lets +onlyGivenNames x; refine Keeps.cut (s0 := s0) (t := x) ?_ (fun hx => ?_) <;> first | (replace hx : Keeps s0 x := hx; clear_value x) | (dsimp only [x]; clear x))
    | (extract_lets +onlyGivenNames x; try clear_value x)
    | split
    | (refine Keeps.snd (by with_reducible assumption) ?_)
    | (refine Keeps.prj (by with_reducible assumption) ?_)
    | with_reducible apply Keeps.lit

theorem bar2Write_keeps {s0 : State} {a0} {a1} {a2} {s : State} (h : Keeps s0 s) :
    Keeps s0 (bar2Write a0 a1 a2 s) := by
  unfold bar2Write
  repeat' first
    | with_reducible assumption
    | with_reducible apply doorbell_keeps
    | (intro _)
    | (extract_lets +onlyGivenNames x; refine Keeps.cut (s0 := s0) (t := x) ?_ (fun hx => ?_) <;> first | (replace hx : Keeps s0 x := hx; clear_value x) | (dsimp only [x]; clear x))
    | (extract_lets +onlyGivenNames x; try clear_value x)
    | split
    | (refine Keeps.prj (by with_reducible assumption) ?_)
    | with_reducible apply Keeps.lit

theorem execPciDbTail_keeps {s0 : State} {a0} {a1} {s : State} (h : Keeps s0 s) :
    KeepsX s0 (execPciDbTail a0 a1 s) := by
  unfold execPciDbTail
  repeat' first
    | with_reducible assumption
    | with_reducible apply KeepsX.next
    | with_reducible apply bar2Write_keeps
    | (intro _)
    | (refine Keeps.prj (by with_reducible assumption) ?_)
    | with_reducible apply Keeps.lit

theorem execHostReadCompletion_keeps {s0 : State} {a0} {a1} {a2} {a3} {s : State} (h : Keeps s0 s) :
    KeepsX s0 (execHostReadCompletion a0 a1 a2 a3 s) := by
  unfold execHostReadCompletion
  repeat' first
    | with_reducible assumption
    | with_reducible apply KeepsX.next
    | with_reducible apply settleInval_keeps
    | with_reducible apply hostFail_keeps
    | (intro _)
    | (extract_lets +onlyGivenNames x; try clear_value x)
    | split
    | (refine Keeps.prj (by with_reducible assumption) ?_)
    | with_reducible apply Keeps.lit

theorem execCompletionTimeout_keeps {s0 : State} {a0} {a1} {s : State} (h : Keeps s0 s) :
    KeepsX s0 (execCompletionTimeout a0 a1 s) := by
  unfold execCompletionTimeout
  repeat' first
    | with_reducible assumption
    | with_reducible apply KeepsX.next
    | with_reducible apply hostFail_keeps
    | with_reducible apply freeze_keeps
    | with_reducible apply aerSet_keeps
    | (intro _)
    | (extract_lets +onlyGivenNames x; try clear_value x)
    | split
    | (refine Keeps.prj (by with_reducible assumption) ?_)
    | with_reducible apply Keeps.lit

theorem setCommand_keeps {s0 : State} {a0} {s : State} (h : Keeps s0 s) :
    Keeps s0 (setCommand a0 s) := by
  unfold setCommand
  repeat' first
    | with_reducible assumption
    | (intro _)
    | (extract_lets +onlyGivenNames x; try clear_value x)
    | (refine Keeps.prj (by with_reducible assumption) ?_)
    | with_reducible apply Keeps.lit

theorem execInterruptDisable_keeps {s0 : State} {a0} {s : State} (h : Keeps s0 s) :
    KeepsX s0 (execInterruptDisable a0 s) := by
  unfold execInterruptDisable
  repeat' first
    | with_reducible assumption
    | with_reducible apply KeepsX.next
    | with_reducible apply intxEval_keeps
    | with_reducible apply setCommand_keeps
    | (intro _)
    | (extract_lets +onlyGivenNames x; try clear_value x)
    | split
    | (refine Keeps.prj (by with_reducible assumption) ?_)
    | with_reducible apply Keeps.lit

theorem execPciIntxStat_keeps {s0 : State} {s : State} (h : Keeps s0 s) :
    KeepsX s0 (execPciIntxStat s) := by
  unfold execPciIntxStat
  repeat' first
    | with_reducible assumption
    | with_reducible apply KeepsX.next
    | with_reducible apply emit_keeps
    | with_reducible apply intxEval_keeps
    | (intro _)
    | (extract_lets +onlyGivenNames x; refine Keeps.cut (s0 := s0) (t := x) ?_ (fun hx => ?_) <;> first | (replace hx : Keeps s0 x := hx; clear_value x) | (dsimp only [x]; clear x))
    | split
    | (refine Keeps.prj (by with_reducible assumption) ?_)
    | with_reducible apply Keeps.lit

theorem execUncorrectableError_keeps {s0 : State} {a0} {s : State} (h : Keeps s0 s) :
    KeepsX s0 (execUncorrectableError a0 s) := by
  unfold execUncorrectableError
  repeat' first
    | with_reducible assumption
    | with_reducible apply KeepsX.next
    | with_reducible apply freeze_keeps
    | with_reducible apply aerSet_keeps
    | (intro _)
    | split
    | (refine Keeps.prj (by with_reducible assumption) ?_)
    | with_reducible apply Keeps.lit

theorem execPoisonedTlp_keeps {s0 : State} {a0} {s : State} (h : Keeps s0 s) :
    KeepsX s0 (execPoisonedTlp a0 s) := by
  unfold execPoisonedTlp
  repeat' first
    | with_reducible assumption
    | with_reducible apply KeepsX.next
    | with_reducible apply freeze_keeps
    | with_reducible apply aerSet_keeps
    | with_reducible apply hostFail_keeps
    | (intro _)
    | (extract_lets +onlyGivenNames x; refine Keeps.cut (s0 := s0) (t := x) ?_ (fun hx => ?_) <;> first | (replace hx : Keeps s0 x := hx; clear_value x) | (dsimp only [x]; clear x))
    | (extract_lets +onlyGivenNames x; try clear_value x)
    | split
    | (refine Keeps.prj (by with_reducible assumption) ?_)
    | with_reducible apply Keeps.lit

theorem linkDown_keeps {s0 : State} {s : State} (h : Keeps s0 s) :
    Keeps s0 (linkDown s) := by
  unfold linkDown
  repeat' first
    | with_reducible assumption
    | (intro _)
    | (extract_lets +onlyGivenNames x; try clear_value x)
    | (refine Keeps.prj (by with_reducible assumption) ?_)
    | with_reducible apply Keeps.lit

theorem execSurpriseDown_keeps {s0 : State} {s : State} (h : Keeps s0 s) :
    KeepsX s0 (execSurpriseDown s) := by
  unfold execSurpriseDown
  repeat' first
    | with_reducible assumption
    | with_reducible apply KeepsX.next
    | with_reducible apply freeze_keeps
    | with_reducible apply linkDown_keeps
    | (intro _)
    | split
    | (refine Keeps.prj (by with_reducible assumption) ?_)
    | with_reducible apply Keeps.lit

theorem execPortReset_keeps {s0 : State} {s : State} (h : Keeps s0 s) :
    KeepsX s0 (execPortReset s) := by
  unfold execPortReset
  repeat' first
    | with_reducible assumption
    | with_reducible apply KeepsX.next
    | with_reducible apply freeze_keeps
    | with_reducible apply linkDown_keeps
    | (intro _)
    | (refine Keeps.prj (by with_reducible assumption) ?_)
    | with_reducible apply Keeps.lit

theorem execHotRemoval_keeps {s0 : State} {s : State} (h : Keeps s0 s) :
    KeepsX s0 (execHotRemoval s) := by
  unfold execHotRemoval
  repeat' first
    | with_reducible assumption
    | with_reducible apply KeepsX.next
    | with_reducible apply freeze_keeps
    | with_reducible apply linkDown_keeps
    | (intro _)
    | (extract_lets +onlyGivenNames x; refine Keeps.cut (s0 := s0) (t := x) ?_ (fun hx => ?_) <;> first | (replace hx : Keeps s0 x := hx; clear_value x) | (dsimp only [x]; clear x))
    | (extract_lets +onlyGivenNames x; try clear_value x)
    | split
    | (refine Keeps.prj (by with_reducible assumption) ?_)
    | with_reducible apply Keeps.lit

theorem execD3hot_keeps {s0 : State} {s : State} (h : Keeps s0 s) :
    KeepsX s0 (execD3hot s) := by
  unfold execD3hot
  repeat' first
    | with_reducible assumption
    | with_reducible apply KeepsX.next
    | with_reducible apply freeze_keeps
    | (intro _)
    | (extract_lets +onlyGivenNames x; try clear_value x)
    | (refine Keeps.prj (by with_reducible assumption) ?_)
    | with_reducible apply Keeps.lit

theorem freezeRelease_keeps {s0 : State} {a0} {a1} {s : State} (h : Keeps s0 s) :
    Keeps s0 (freezeRelease a0 a1 s) := by
  unfold freezeRelease
  repeat' first
    | with_reducible assumption
    | (intro _)
    | (extract_lets +onlyGivenNames x; try clear_value x)
    | split
    | (refine Keeps.prj (by with_reducible assumption) ?_)
    | with_reducible apply Keeps.lit

theorem releaseRun_keeps {s0 : State} {s : State} (h : Keeps s0 s) :
    Keeps s0 (releaseRun s) := by
  unfold releaseRun
  repeat' first
    | with_reducible assumption
    | with_reducible apply flushHeld_keeps
    | with_reducible apply settleInval_keeps
    | with_reducible apply intxEval_keeps
    | with_reducible apply releaseParked_keeps
    | (intro _)
    | (extract_lets +onlyGivenNames x; refine Keeps.cut (s0 := s0) (t := x) ?_ (fun hx => ?_) <;> first | (replace hx : Keeps s0 x := hx; clear_value x) | (dsimp only [x]; clear x))
    | (extract_lets +onlyGivenNames x; try clear_value x)
    | split
    | (refine Keeps.prj (by with_reducible assumption) ?_)
    | with_reducible apply Keeps.lit

theorem execFreezeRelease_keeps {s0 : State} {a0} {a1} {s : State} (h : Keeps s0 s) :
    KeepsX s0 (execFreezeRelease a0 a1 s) := by
  unfold execFreezeRelease
  repeat' first
    | with_reducible assumption
    | with_reducible apply KeepsX.next
    | with_reducible apply freezeRelease_keeps
    | (intro _)
    | (refine Keeps.prj (by with_reducible assumption) ?_)
    | with_reducible apply Keeps.lit

theorem execDlActive_keeps {s0 : State} {a0} {a1} {a2} {s : State} (h : Keeps s0 s) :
    KeepsX s0 (execDlActive a0 a1 a2 s) := by
  unfold execDlActive
  repeat' first
    | with_reducible assumption
    | with_reducible apply KeepsX.next
    | (intro _)
    | (extract_lets +onlyGivenNames x; refine Keeps.cut (s0 := s0) (t := x) ?_ (fun hx => ?_) <;> first | (replace hx : Keeps s0 x := hx; clear_value x) | (dsimp only [x]; clear x))
    | (extract_lets +onlyGivenNames x; try clear_value x)
    | split
    | (refine Keeps.prj (by with_reducible assumption) ?_)
    | with_reducible apply Keeps.lit

/-! ### Migrate -/

theorem migrateRun_keeps {s0 : State} {a0} {a1} {a2} {s : State} (h : Keeps s0 s) :
    Keeps s0 (migrateRun a0 a1 a2 s) := by
  unfold migrateRun
  repeat' first
    | with_reducible assumption
    | with_reducible apply flightDone_keeps
    | with_reducible apply settleMoves_keeps
    | with_reducible apply readRange_keeps
    | with_reducible apply agentEnds_keeps
    | with_reducible apply moveStart_keeps
    | (intro _)
    | (extract_lets +onlyGivenNames x; try clear_value x)
    | split
    | (refine Keeps.snd (by with_reducible assumption) ?_)
    | (refine Keeps.prj (by with_reducible assumption) ?_)
    | with_reducible apply Keeps.lit

theorem execMigrate_keeps {s0 : State} {a0} {a1} {a2} {s : State} (h : Keeps s0 s) :
    KeepsX s0 (execMigrate a0 a1 a2 s) := by
  unfold execMigrate
  repeat' first
    | with_reducible assumption
    | with_reducible apply KeepsX.next
    | with_reducible apply descriptorRow_keeps
    | with_reducible apply migrateRun_keeps
    | with_reducible apply agentReads_keeps
    | (intro _)
    | (extract_lets +onlyGivenNames x; refine Keeps.cut (s0 := s0) (t := x) ?_ (fun hx => ?_) <;> first | (replace hx : Keeps s0 x := hx; clear_value x) | (dsimp only [x]; clear x))
    | (extract_lets +onlyGivenNames x; try clear_value x)
    | split
    | (refine Keeps.prj (by with_reducible assumption) ?_)
    | with_reducible apply Keeps.lit

/-! ### Coherence -/

theorem arrive_keeps {s0 : State} {a0} {a1} {s : State} (h : Keeps s0 s) :
    Keeps s0 (arrive a0 a1 s) := by
  unfold arrive
  repeat' first
    | with_reducible assumption
    | with_reducible apply settleMoves_keeps
    | with_reducible apply settlePosted_keeps
    | with_reducible apply deliver_keeps
    | (intro _)
    | (extract_lets +onlyGivenNames x; refine Keeps.cut (s0 := s0) (t := x) ?_ (fun hx => ?_) <;> first | (replace hx : Keeps s0 x := hx; clear_value x) | (dsimp only [x]; clear x))
    | (refine Keeps.prj (by with_reducible assumption) ?_)
    | with_reducible apply Keeps.lit

theorem newRequest_keeps {s0 : State} {a0} {s : State} (h : Keeps s0 s) :
    KeepsO s0 (newRequest a0 s) := by
  unfold newRequest
  repeat' first
    | with_reducible assumption
    | with_reducible apply KeepsO.some
    | exact KeepsO.none
    | with_reducible apply State.setCluster_keeps
    | (intro _)
    | (extract_lets +onlyGivenNames x; refine Keeps.cut (s0 := s0) (t := x) ?_ (fun hx => ?_) <;> first | (replace hx : Keeps s0 x := hx; clear_value x) | (dsimp only [x]; clear x))
    | (extract_lets +onlyGivenNames x; try clear_value x)
    | split
    | (refine Keeps.prj (by with_reducible assumption) ?_)
    | with_reducible apply Keeps.lit

theorem msgRow_keeps {s0 : State} {a0} {a1} {a2} {s : State} (h : Keeps s0 s) :
    Keeps s0 (msgRow a0 a1 a2 s) := by
  unfold msgRow
  repeat' first
    | with_reducible assumption
    | with_reducible apply arrive_keeps
    | (intro _)
    | (extract_lets +onlyGivenNames x; try clear_value x)
    | split
    | (refine Keeps.prj (by with_reducible assumption) ?_)
    | with_reducible apply Keeps.lit

theorem reqRow_keeps {s0 : State} {a0} {a1} {a2} {s : State} (h : Keeps s0 s) :
    Keeps s0 (reqRow a0 a1 a2 s) := by
  unfold reqRow
  repeat' first
    | with_reducible assumption
    | with_reducible apply msgRow_keeps
    | with_reducible apply newRequest_keeps
    | with_reducible apply arrive_keeps
    | (intro _)
    | (extract_lets +onlyGivenNames x; try clear_value x)
    | split
    | (refine Keeps.opt (by with_reducible assumption) ?_)
    | (refine Keeps.prj (by with_reducible assumption) ?_)
    | with_reducible apply Keeps.lit

theorem execRdShared_keeps {s0 : State} {a0} {a1} {a2} {s : State} (h : Keeps s0 s) :
    KeepsX s0 (execRdShared a0 a1 a2 s) := by
  unfold execRdShared
  repeat' first
    | with_reducible assumption
    | with_reducible apply KeepsX.next
    | with_reducible apply reqRow_keeps
    | (intro _)
    | (refine Keeps.prj (by with_reducible assumption) ?_)
    | with_reducible apply Keeps.lit

theorem execRdUnique_keeps {s0 : State} {a0} {a1} {a2} {s : State} (h : Keeps s0 s) :
    KeepsX s0 (execRdUnique a0 a1 a2 s) := by
  unfold execRdUnique
  repeat' first
    | with_reducible assumption
    | with_reducible apply KeepsX.next
    | with_reducible apply reqRow_keeps
    | (intro _)
    | (refine Keeps.prj (by with_reducible assumption) ?_)
    | with_reducible apply Keeps.lit

theorem execUpgrade_keeps {s0 : State} {a0} {a1} {a2} {s : State} (h : Keeps s0 s) :
    KeepsX s0 (execUpgrade a0 a1 a2 s) := by
  unfold execUpgrade
  repeat' first
    | with_reducible assumption
    | with_reducible apply KeepsX.next
    | with_reducible apply reqRow_keeps
    | (intro _)
    | (refine Keeps.prj (by with_reducible assumption) ?_)
    | with_reducible apply Keeps.lit

theorem execRdOnce_keeps {s0 : State} {a0} {a1} {s : State} (h : Keeps s0 s) :
    KeepsX s0 (execRdOnce a0 a1 s) := by
  unfold execRdOnce
  repeat' first
    | with_reducible assumption
    | with_reducible apply KeepsX.next
    | with_reducible apply reqRow_keeps
    | (intro _)
    | (refine Keeps.prj (by with_reducible assumption) ?_)
    | with_reducible apply Keeps.lit

theorem execWrFull_keeps {s0 : State} {a0} {a1} {s : State} (h : Keeps s0 s) :
    KeepsX s0 (execWrFull a0 a1 s) := by
  unfold execWrFull
  repeat' first
    | with_reducible assumption
    | with_reducible apply KeepsX.next
    | with_reducible apply reqRow_keeps
    | (intro _)
    | (refine Keeps.prj (by with_reducible assumption) ?_)
    | with_reducible apply Keeps.lit

theorem execWrPartial_keeps {s0 : State} {a0} {a1} {s : State} (h : Keeps s0 s) :
    KeepsX s0 (execWrPartial a0 a1 s) := by
  unfold execWrPartial
  repeat' first
    | with_reducible assumption
    | with_reducible apply KeepsX.next
    | with_reducible apply reqRow_keeps
    | (intro _)
    | (refine Keeps.prj (by with_reducible assumption) ?_)
    | with_reducible apply Keeps.lit

theorem execWbDirty_keeps {s0 : State} {a0} {a1} {s : State} (h : Keeps s0 s) :
    KeepsX s0 (execWbDirty a0 a1 s) := by
  unfold execWbDirty
  repeat' first
    | with_reducible assumption
    | with_reducible apply KeepsX.next
    | with_reducible apply reqRow_keeps
    | (intro _)
    | (refine Keeps.prj (by with_reducible assumption) ?_)
    | with_reducible apply Keeps.lit

theorem execEvictClean_keeps {s0 : State} {a0} {a1} {s : State} (h : Keeps s0 s) :
    KeepsX s0 (execEvictClean a0 a1 s) := by
  unfold execEvictClean
  repeat' first
    | with_reducible assumption
    | with_reducible apply KeepsX.next
    | with_reducible apply reqRow_keeps
    | (intro _)
    | (refine Keeps.prj (by with_reducible assumption) ?_)
    | with_reducible apply Keeps.lit

theorem execAtomic_keeps {s0 : State} {a0} {a1} {s : State} (h : Keeps s0 s) :
    KeepsX s0 (execAtomic a0 a1 s) := by
  unfold execAtomic
  repeat' first
    | with_reducible assumption
    | with_reducible apply KeepsX.next
    | with_reducible apply reqRow_keeps
    | (intro _)
    | (refine Keeps.prj (by with_reducible assumption) ?_)
    | with_reducible apply Keeps.lit

theorem execSnpShared_keeps {s0 : State} {a0} {s : State} (h : Keeps s0 s) :
    KeepsX s0 (execSnpShared a0 s) := by
  unfold execSnpShared
  repeat' first
    | with_reducible assumption
    | with_reducible apply KeepsX.next
    | with_reducible apply msgRow_keeps
    | (intro _)
    | (refine Keeps.prj (by with_reducible assumption) ?_)
    | with_reducible apply Keeps.lit

theorem execSnpUnique_keeps {s0 : State} {a0} {s : State} (h : Keeps s0 s) :
    KeepsX s0 (execSnpUnique a0 s) := by
  unfold execSnpUnique
  repeat' first
    | with_reducible assumption
    | with_reducible apply KeepsX.next
    | with_reducible apply msgRow_keeps
    | (intro _)
    | (refine Keeps.prj (by with_reducible assumption) ?_)
    | with_reducible apply Keeps.lit

theorem execSnpInv_keeps {s0 : State} {a0} {s : State} (h : Keeps s0 s) :
    KeepsX s0 (execSnpInv a0 s) := by
  unfold execSnpInv
  repeat' first
    | with_reducible assumption
    | with_reducible apply KeepsX.next
    | with_reducible apply msgRow_keeps
    | (intro _)
    | (refine Keeps.prj (by with_reducible assumption) ?_)
    | with_reducible apply Keeps.lit

theorem execSnpCurrent_keeps {s0 : State} {a0} {s : State} (h : Keeps s0 s) :
    KeepsX s0 (execSnpCurrent a0 s) := by
  unfold execSnpCurrent
  repeat' first
    | with_reducible assumption
    | with_reducible apply KeepsX.next
    | with_reducible apply msgRow_keeps
    | (intro _)
    | (refine Keeps.prj (by with_reducible assumption) ?_)
    | with_reducible apply Keeps.lit

theorem execSnpRecall_keeps {s0 : State} {a0} {s : State} (h : Keeps s0 s) :
    KeepsX s0 (execSnpRecall a0 s) := by
  unfold execSnpRecall
  repeat' first
    | with_reducible assumption
    | with_reducible apply KeepsX.next
    | with_reducible apply msgRow_keeps
    | (intro _)
    | (refine Keeps.prj (by with_reducible assumption) ?_)
    | with_reducible apply Keeps.lit

theorem execSnpRsp_keeps {s0 : State} {a0} {a1} {s : State} (h : Keeps s0 s) :
    KeepsX s0 (execSnpRsp a0 a1 s) := by
  unfold execSnpRsp
  repeat' first
    | with_reducible assumption
    | with_reducible apply KeepsX.next
    | with_reducible apply msgRow_keeps
    | (intro _)
    | (refine Keeps.prj (by with_reducible assumption) ?_)
    | with_reducible apply Keeps.lit

theorem execSnpData_keeps {s0 : State} {a0} {a1} {s : State} (h : Keeps s0 s) :
    KeepsX s0 (execSnpData a0 a1 s) := by
  unfold execSnpData
  repeat' first
    | with_reducible assumption
    | with_reducible apply KeepsX.next
    | with_reducible apply msgRow_keeps
    | (intro _)
    | (refine Keeps.prj (by with_reducible assumption) ?_)
    | with_reducible apply Keeps.lit

theorem execGrant_keeps {s0 : State} {a0} {s : State} (h : Keeps s0 s) :
    KeepsX s0 (execGrant a0 s) := by
  unfold execGrant
  repeat' first
    | with_reducible assumption
    | with_reducible apply KeepsX.next
    | with_reducible apply msgRow_keeps
    | (intro _)
    | (refine Keeps.prj (by with_reducible assumption) ?_)
    | with_reducible apply Keeps.lit

theorem answerRow_keeps {s0 : State} {a0} {a1} {s : State} (h : Keeps s0 s) :
    Keeps s0 (answerRow a0 a1 s) := by
  unfold answerRow
  repeat' first
    | with_reducible assumption
    | with_reducible apply apAnswer_keeps
    | with_reducible apply msgRow_keeps
    | (intro _)
    | (extract_lets +onlyGivenNames x; try clear_value x)
    | split
    | (refine Keeps.snd (by with_reducible assumption) ?_)
    | (refine Keeps.prj (by with_reducible assumption) ?_)
    | with_reducible apply Keeps.lit

theorem execCmp_keeps {s0 : State} {a0} {s : State} (h : Keeps s0 s) :
    KeepsX s0 (execCmp a0 s) := by
  unfold execCmp
  repeat' first
    | with_reducible assumption
    | with_reducible apply KeepsX.next
    | with_reducible apply answerRow_keeps
    | (intro _)
    | (refine Keeps.prj (by with_reducible assumption) ?_)
    | with_reducible apply Keeps.lit

theorem execAck_keeps {s0 : State} {a0} {a1} {s : State} (h : Keeps s0 s) :
    KeepsX s0 (execAck a0 a1 s) := by
  unfold execAck
  repeat' first
    | with_reducible assumption
    | with_reducible apply KeepsX.next
    | with_reducible apply msgRow_keeps
    | (intro _)
    | (refine Keeps.prj (by with_reducible assumption) ?_)
    | with_reducible apply Keeps.lit

theorem execData_keeps {s0 : State} {a0} {s : State} (h : Keeps s0 s) :
    KeepsX s0 (execData a0 s) := by
  unfold execData
  repeat' first
    | with_reducible assumption
    | with_reducible apply KeepsX.next
    | with_reducible apply answerRow_keeps
    | (intro _)
    | (refine Keeps.prj (by with_reducible assumption) ?_)
    | with_reducible apply Keeps.lit

theorem execHoldTimeEnd_keeps {s0 : State} {a0} {a1} {s : State} (h : Keeps s0 s) :
    KeepsX s0 (execHoldTimeEnd a0 a1 s) := by
  unfold execHoldTimeEnd
  repeat' first
    | with_reducible assumption
    | with_reducible apply KeepsX.next
    | with_reducible apply State.setCluster_keeps
    | with_reducible apply agentSnoop_keeps
    | (intro _)
    | (extract_lets +onlyGivenNames x; refine Keeps.cut (s0 := s0) (t := x) ?_ (fun hx => ?_) <;> first | (replace hx : Keeps s0 x := hx; clear_value x) | (dsimp only [x]; clear x))
    | (extract_lets +onlyGivenNames x; try clear_value x)
    | split
    | (refine Keeps.prj (by with_reducible assumption) ?_)
    | with_reducible apply Keeps.lit

/-! ### Tiers -/

theorem execPatrol_keeps {s0 : State} {a0} {a1} {s : State} (h : Keeps s0 s) :
    KeepsX s0 (execPatrol a0 a1 s) := by
  unfold execPatrol
  repeat' first
    | with_reducible assumption
    | with_reducible apply KeepsX.next
    | with_reducible apply lineBad_keeps
    | with_reducible apply corrected_keeps
    | (intro _)
    | (extract_lets +onlyGivenNames x; try clear_value x)
    | split
    | (refine Keeps.prj (by with_reducible assumption) ?_)
    | with_reducible apply Keeps.lit

theorem execStackTemperatureReport_keeps {s0 : State} {a0} {a1} {a2} {s : State} (h : Keeps s0 s) :
    KeepsX s0 (execStackTemperatureReport a0 a1 a2 s) := by
  unfold execStackTemperatureReport
  repeat' first
    | with_reducible assumption
    | with_reducible apply KeepsX.next
    | with_reducible apply State.setCtl_keeps
    | (intro _)
    | (extract_lets +onlyGivenNames x; try clear_value x)
    | (refine Keeps.prj (by with_reducible assumption) ?_)
    | with_reducible apply Keeps.lit

theorem execThrottleStepDown_keeps {s0 : State} {a0} {s : State} (h : Keeps s0 s) :
    KeepsX s0 (execThrottleStepDown a0 s) := by
  unfold execThrottleStepDown
  repeat' first
    | with_reducible assumption
    | with_reducible apply KeepsX.next
    | with_reducible apply State.setCtl_keeps
    | (intro _)
    | (extract_lets +onlyGivenNames x; try clear_value x)
    | split
    | (refine Keeps.prj (by with_reducible assumption) ?_)
    | with_reducible apply Keeps.lit

theorem thermalEvent_keeps {s0 : State} {a0} {a1} {a2} {a3} {s : State} (h : Keeps s0 s) :
    Keeps s0 (thermalEvent a0 a1 a2 a3 s) := by
  unfold thermalEvent
  repeat' first
    | with_reducible assumption
    | with_reducible apply smbSet_keeps
    | with_reducible apply hubEvent_keeps
    | (intro _)
    | (refine Keeps.prj (by with_reducible assumption) ?_)
    | with_reducible apply Keeps.lit

theorem execStackCritical_keeps {s0 : State} {a0} {s : State} (h : Keeps s0 s) :
    KeepsX s0 (execStackCritical a0 s) := by
  unfold execStackCritical
  repeat' first
    | with_reducible assumption
    | with_reducible apply KeepsX.next
    | with_reducible apply thermalEvent_keeps
    | (intro _)
    | (extract_lets +onlyGivenNames x; try clear_value x)
    | split
    | (refine Keeps.prj (by with_reducible assumption) ?_)
    | with_reducible apply Keeps.lit

theorem countRt_keeps {s0 : State} {a0} {s : State} (h : Keeps s0 s) :
    Keeps s0 (countRt a0 s) := by
  unfold countRt
  repeat' first
    | with_reducible assumption
    | with_reducible apply statAdd_keeps
    | (intro _)
    | (extract_lets +onlyGivenNames x; refine Keeps.cut (s0 := s0) (t := x) ?_ (fun hx => ?_) <;> first | (replace hx : Keeps s0 x := hx; clear_value x) | (dsimp only [x]; clear x))
    | (extract_lets +onlyGivenNames x; try clear_value x)
    | split
    | (refine Keeps.prj (by with_reducible assumption) ?_)
    | with_reducible apply Keeps.lit

theorem execControllerSlot_keeps {s0 : State} {a0} {a1} {a2} {a3} {a4} {s : State} (h : Keeps s0 s) :
    KeepsX s0 (execControllerSlot a0 a1 a2 a3 a4 s) := by
  unfold execControllerSlot
  repeat' first
    | with_reducible assumption
    | with_reducible apply KeepsX.next
    | with_reducible apply foldS_keeps
    | with_reducible apply countRt_keeps
    | with_reducible apply State.setCtl_keeps
    | with_reducible apply emit_keeps
    | (intro _)
    | (extract_lets +onlyGivenNames x; refine Keeps.cut (s0 := s0) (t := x) ?_ (fun hx => ?_) <;> first | (replace hx : Keeps s0 x := hx; clear_value x) | (dsimp only [x]; clear x))
    | (extract_lets +onlyGivenNames x; try clear_value x)
    | split
    | (refine Keeps.prj (by with_reducible assumption) ?_)
    | with_reducible apply Keeps.lit

theorem missRecord_keeps {s0 : State} {a0} {a1} {s : State} (h : Keeps s0 s) :
    Keeps s0 (missRecord a0 a1 s) := by
  unfold missRecord
  repeat' first
    | with_reducible assumption
    | with_reducible apply raiseIn_keeps
    | (intro _)
    | split
    | (refine Keeps.prj (by with_reducible assumption) ?_)
    | with_reducible apply Keeps.lit

theorem missWindow_keeps {s0 : State} {a0} {a1} {s : State} (h : Keeps s0 s) :
    Keeps s0 (missWindow a0 a1 s) := by
  unfold missWindow
  repeat' first
    | with_reducible assumption
    | with_reducible apply statAdd_keeps
    | with_reducible apply missRecord_keeps
    | with_reducible apply foldl_keeps
    | with_reducible apply foldl_keeps_snd
    | (intro _)
    | (extract_lets +onlyGivenNames x; refine Keeps.cut (s0 := s0) (t := x) ?_ (fun hx => ?_) <;> first | (replace hx : Keeps s0 x := hx; clear_value x) | (dsimp only [x]; clear x))
    | (extract_lets +onlyGivenNames x; try clear_value x)
    | split
    | (refine Keeps.prj (by with_reducible assumption) ?_)
    | with_reducible apply Keeps.lit

theorem execMissWindowEnd_keeps {s0 : State} {s : State} (h : Keeps s0 s) :
    KeepsX s0 (execMissWindowEnd s) := by
  unfold execMissWindowEnd
  repeat' first
    | with_reducible assumption
    | with_reducible apply KeepsX.next
    | with_reducible apply foldS_keeps
    | with_reducible apply missWindow_keeps
    | (intro _)
    | (extract_lets +onlyGivenNames x; refine Keeps.cut (s0 := s0) (t := x) ?_ (fun hx => ?_) <;> first | (replace hx : Keeps s0 x := hx; clear_value x) | (dsimp only [x]; clear x))
    | (extract_lets +onlyGivenNames x; try clear_value x)
    | (refine Keeps.prj (by with_reducible assumption) ?_)
    | with_reducible apply Keeps.lit

theorem autoMove_keeps {s0 : State} {a0} {a1} {a2} {s : State} (h : Keeps s0 s) :
    Keeps s0 (autoMove a0 a1 a2 s).2 := by
  unfold autoMove
  repeat' first
    | with_reducible assumption
    | with_reducible apply moveStart_keeps
    | (intro _)
    | (extract_lets +onlyGivenNames x; refine Keeps.cut (s0 := s0) (t := x) ?_ (fun hx => ?_) <;> first | (replace hx : Keeps s0 x := hx; clear_value x) | (dsimp only [x]; clear x))
    | (extract_lets +onlyGivenNames x; try clear_value x)
    | split
    | (refine Keeps.prj (by with_reducible assumption) ?_)
    | with_reducible apply Keeps.lit

theorem autoNext_keeps {s0 : State} {p : Nat} {r : Auto} {s : State} (h : Keeps s0 s) : Keeps s0 (autoNext p r s).2.2 := by
  unfold autoNext
  extract_lets heat hotter colder start
  have hs : ∀ f d n s, Keeps s0 s → Keeps s0 (start f d n s).2.2 := by
    intro f d n t ht
    dsimp only [start]
    have := autoMove_keeps (a0 := p) (a1 := f) (a2 := d) ht
    split <;> exact Keeps.snd (by assumption) this
  clear_value start heat hotter colder
  repeat' first
    | exact h
    | exact hs _ _ _ _ h
    | split
    | extract_lets

theorem autoRun_keeps {s0 : State} {a0} {a1} {s : State} (h : Keeps s0 s) :
    Keeps s0 (autoRun a0 a1 s) := by
  revert h
  fun_induction autoRun a0 a1 s
  all_goals intro h
  all_goals repeat' first
    | with_reducible assumption
    | with_reducible apply autoNext_keeps
    | (refine (show Keeps s0 _ → _ by with_reducible assumption) ?_)
    | (intro _)
    | split
    | (refine Keeps.snd2 (by with_reducible assumption) ?_)
    | (refine Keeps.prj (by with_reducible assumption) ?_)
    | with_reducible apply Keeps.lit

theorem settleAutos_keeps {s0 : State} {s : State} (h : Keeps s0 s) :
    Keeps s0 (settleAutos s) := by
  unfold settleAutos
  repeat' first
    | with_reducible assumption
    | with_reducible apply foldS_keeps
    | with_reducible apply autoRun_keeps
    | (intro _)
    | split
    | (refine Keeps.prj (by with_reducible assumption) ?_)
    | with_reducible apply Keeps.lit

theorem execHeatIntervalEnd_keeps {s0 : State} {s : State} (h : Keeps s0 s) :
    KeepsX s0 (execHeatIntervalEnd s) := by
  unfold execHeatIntervalEnd
  repeat' first
    | with_reducible assumption
    | with_reducible apply KeepsX.next
    | with_reducible apply settleAutos_keeps
    | with_reducible apply foldS_keeps
    | with_reducible apply foldl_keeps
    | with_reducible apply foldl_keeps_snd
    | (intro _)
    | (extract_lets +onlyGivenNames x; refine Keeps.cut (s0 := s0) (t := x) ?_ (fun hx => ?_) <;> first | (replace hx : Keeps s0 x := hx; clear_value x) | (dsimp only [x]; clear x))
    | (extract_lets +onlyGivenNames x; try clear_value x)
    | split
    | (refine Keeps.prj (by with_reducible assumption) ?_)
    | with_reducible apply Keeps.lit

end Sys2Proof.Machine
end

