-- ==== Sys2Proof/Laws/KeepsCores.lean ====
section
/-!
SUPPORT. Keeps for the engines of a core and the repairs.
-/
set_option linter.all false

namespace Sys2Proof.Machine

/-! ### Operands -/

theorem retire_keeps {s0 : State} {a0} {a1} {s : State} (h : Keeps s0 s) :
    Keeps s0 (retire a0 a1 s) := by
  unfold retire
  repeat' first
    | with_reducible assumption
    | with_reducible apply State.setCore_keeps
    | (intro _)
    | (refine Keeps.prj (by with_reducible assumption) ?_)
    | with_reducible apply Keeps.lit

theorem fetchIllegal_keeps {s0 : State} {a0} {s : State} (h : Keeps s0 s) :
    Keeps s0 (fetchIllegal a0 s) := by
  unfold fetchIllegal
  repeat' first
    | with_reducible assumption
    | with_reducible apply engineFault_keeps
    | (intro _)
    | split
    | (refine Keeps.prj (by with_reducible assumption) ?_)
    | with_reducible apply Keeps.lit

theorem scalarRow_keeps {s0 : State} {a0} {a1} {a2} {s : State} (h2 : ∀ b0 b1 s, Keeps s0 s → Keeps s0 (a2 b0 b1 s)) (h : Keeps s0 s) :
    Keeps s0 (scalarRow a0 a1 a2 s) := by
  unfold scalarRow
  repeat' first
    | with_reducible assumption
    | with_reducible apply engineFault_keeps
    | with_reducible apply h2
    | (intro _)
    | (extract_lets +onlyGivenNames x; try clear_value x)
    | split
    | (refine Keeps.prj (by with_reducible assumption) ?_)
    | with_reducible apply Keeps.lit

theorem rowErrors_keeps {s0 : State} {a0} {a1} {a2} {s : State} (h : Keeps s0 s) :
    Keeps s0 (rowErrors a0 a1 a2 s) := by
  unfold rowErrors
  repeat' first
    | with_reducible assumption
    | with_reducible apply addDue_keeps
    | (intro _)
    | (extract_lets +onlyGivenNames x; try clear_value x)
    | split
    | (refine Keeps.prj (by with_reducible assumption) ?_)
    | with_reducible apply Keeps.lit

theorem countErrors_keeps {s0 : State} {a0} {a1} {s : State} (h : Keeps s0 s) :
    Keeps s0 (countErrors a0 a1 s) := by
  unfold countErrors
  repeat' first
    | with_reducible assumption
    | with_reducible apply foldS_keeps
    | with_reducible apply rowErrors_keeps
    | with_reducible apply State.setCore_keeps
    | (intro _)
    | (refine Keeps.prj (by with_reducible assumption) ?_)
    | with_reducible apply Keeps.lit

theorem withEcc_keeps {s0 : State} {a0} {a1} {a2} {s : State} {a4} (h4 : ∀ s, Keeps s0 s → Keeps s0 (a4 s)) (h : Keeps s0 s) :
    Keeps s0 (withEcc a0 a1 a2 s a4) := by
  unfold withEcc
  repeat' first
    | with_reducible assumption
    | with_reducible apply countErrors_keeps
    | with_reducible apply engineFault_keeps
    | with_reducible apply h4
    | (intro _)
    | split
    | (refine Keeps.prj (by with_reducible assumption) ?_)
    | with_reducible apply Keeps.lit

theorem loadThrough_keeps {s0 : State} {a0} {a1} {a2} {a3} {a4} {s : State} (h : Keeps s0 s) :
    Keeps s0 (loadThrough a0 a1 a2 a3 a4 s).2 := by
  unfold loadThrough
  repeat' first
    | with_reducible assumption
    | with_reducible apply readPiece_keeps
    | with_reducible apply State.setCore_keeps
    | with_reducible apply readLine_keeps
    | with_reducible apply State.bump_keeps
    | (intro _)
    | (extract_lets +onlyGivenNames x; refine Keeps.cut (s0 := s0) (t := x) ?_ (fun hx => ?_) <;> first | (replace hx : Keeps s0 x := hx; clear_value x) | (dsimp only [x]; clear x))
    | (extract_lets +onlyGivenNames x; try clear_value x)
    | split
    | (refine Keeps.snd (by with_reducible assumption) ?_)
    | (refine Keeps.prj (by with_reducible assumption) ?_)
    | with_reducible apply Keeps.lit

theorem ctxAccess_keeps {s0 : State} {a0} {a1} {a2} {a3} {a4} {a5} {s : State} (h4 : ∀ b0 b1 s, Keeps s0 s → Keeps s0 (a4 b0 b1 s).2) (h5 : ∀ b0 s, Keeps s0 s → Keeps s0 (a5 b0 s)) (h : Keeps s0 s) :
    Keeps s0 (ctxAccess a0 a1 a2 a3 a4 a5 s) := by
  unfold ctxAccess
  repeat' first
    | with_reducible assumption
    | with_reducible apply engineFault_keeps
    | with_reducible apply seen_keeps
    | with_reducible apply putBack_keeps
    | with_reducible apply h4
    | with_reducible apply h5
    | (intro _)
    | (extract_lets +onlyGivenNames x; try clear_value x)
    | split
    | (refine Keeps.prj (by with_reducible assumption) ?_)
    | with_reducible apply Keeps.lit

/-! ### Scalar -/

theorem aluReg_keeps {s0 : State} {a0} {a1} {a2} {a3} {a4} {a5} {s : State} (h : Keeps s0 s) :
    Keeps s0 (aluReg a0 a1 a2 a3 a4 a5 s) := by
  unfold aluReg
  repeat' first
    | with_reducible assumption
    | with_reducible apply scalarRow_keeps
    | with_reducible apply retire_keeps
    | (intro _)
    | (refine Keeps.prj (by with_reducible assumption) ?_)
    | with_reducible apply Keeps.lit

theorem aluImm_keeps {s0 : State} {a0} {a1} {a2} {a3} {a4} {s : State} (h : Keeps s0 s) :
    Keeps s0 (aluImm a0 a1 a2 a3 a4 s) := by
  unfold aluImm
  repeat' first
    | with_reducible assumption
    | with_reducible apply scalarRow_keeps
    | with_reducible apply retire_keeps
    | (intro _)
    | (refine Keeps.prj (by with_reducible assumption) ?_)
    | with_reducible apply Keeps.lit

theorem aluShift_keeps {s0 : State} {a0} {a1} {a2} {a3} {a4} {s : State} (h : Keeps s0 s) :
    Keeps s0 (aluShift a0 a1 a2 a3 a4 s) := by
  unfold aluShift
  repeat' first
    | with_reducible assumption
    | with_reducible apply scalarRow_keeps
    | with_reducible apply retire_keeps
    | (intro _)
    | (refine Keeps.prj (by with_reducible assumption) ?_)
    | with_reducible apply Keeps.lit

theorem execAdd_keeps {s0 : State} {a0} {a1} {a2} {a3} {a4} {s : State} (h : Keeps s0 s) :
    KeepsX s0 (execAdd a0 a1 a2 a3 a4 s) := by
  unfold execAdd
  repeat' first
    | with_reducible assumption
    | with_reducible apply KeepsX.next
    | with_reducible apply aluReg_keeps
    | (intro _)
    | (refine Keeps.prj (by with_reducible assumption) ?_)
    | with_reducible apply Keeps.lit

theorem execSub_keeps {s0 : State} {a0} {a1} {a2} {a3} {a4} {s : State} (h : Keeps s0 s) :
    KeepsX s0 (execSub a0 a1 a2 a3 a4 s) := by
  unfold execSub
  repeat' first
    | with_reducible assumption
    | with_reducible apply KeepsX.next
    | with_reducible apply aluReg_keeps
    | (intro _)
    | (refine Keeps.prj (by with_reducible assumption) ?_)
    | with_reducible apply Keeps.lit

theorem execAnd_keeps {s0 : State} {a0} {a1} {a2} {a3} {a4} {s : State} (h : Keeps s0 s) :
    KeepsX s0 (execAnd a0 a1 a2 a3 a4 s) := by
  unfold execAnd
  repeat' first
    | with_reducible assumption
    | with_reducible apply KeepsX.next
    | with_reducible apply aluReg_keeps
    | (intro _)
    | (refine Keeps.prj (by with_reducible assumption) ?_)
    | with_reducible apply Keeps.lit

theorem execOr_keeps {s0 : State} {a0} {a1} {a2} {a3} {a4} {s : State} (h : Keeps s0 s) :
    KeepsX s0 (execOr a0 a1 a2 a3 a4 s) := by
  unfold execOr
  repeat' first
    | with_reducible assumption
    | with_reducible apply KeepsX.next
    | with_reducible apply aluReg_keeps
    | (intro _)
    | (refine Keeps.prj (by with_reducible assumption) ?_)
    | with_reducible apply Keeps.lit

theorem execXor_keeps {s0 : State} {a0} {a1} {a2} {a3} {a4} {s : State} (h : Keeps s0 s) :
    KeepsX s0 (execXor a0 a1 a2 a3 a4 s) := by
  unfold execXor
  repeat' first
    | with_reducible assumption
    | with_reducible apply KeepsX.next
    | with_reducible apply aluReg_keeps
    | (intro _)
    | (refine Keeps.prj (by with_reducible assumption) ?_)
    | with_reducible apply Keeps.lit

theorem execSll_keeps {s0 : State} {a0} {a1} {a2} {a3} {a4} {s : State} (h : Keeps s0 s) :
    KeepsX s0 (execSll a0 a1 a2 a3 a4 s) := by
  unfold execSll
  repeat' first
    | with_reducible assumption
    | with_reducible apply KeepsX.next
    | with_reducible apply aluReg_keeps
    | (intro _)
    | (refine Keeps.prj (by with_reducible assumption) ?_)
    | with_reducible apply Keeps.lit

theorem execSrl_keeps {s0 : State} {a0} {a1} {a2} {a3} {a4} {s : State} (h : Keeps s0 s) :
    KeepsX s0 (execSrl a0 a1 a2 a3 a4 s) := by
  unfold execSrl
  repeat' first
    | with_reducible assumption
    | with_reducible apply KeepsX.next
    | with_reducible apply aluReg_keeps
    | (intro _)
    | (refine Keeps.prj (by with_reducible assumption) ?_)
    | with_reducible apply Keeps.lit

theorem execSra_keeps {s0 : State} {a0} {a1} {a2} {a3} {a4} {s : State} (h : Keeps s0 s) :
    KeepsX s0 (execSra a0 a1 a2 a3 a4 s) := by
  unfold execSra
  repeat' first
    | with_reducible assumption
    | with_reducible apply KeepsX.next
    | with_reducible apply aluReg_keeps
    | (intro _)
    | (refine Keeps.prj (by with_reducible assumption) ?_)
    | with_reducible apply Keeps.lit

theorem execSlt_keeps {s0 : State} {a0} {a1} {a2} {a3} {a4} {s : State} (h : Keeps s0 s) :
    KeepsX s0 (execSlt a0 a1 a2 a3 a4 s) := by
  unfold execSlt
  repeat' first
    | with_reducible assumption
    | with_reducible apply KeepsX.next
    | with_reducible apply aluReg_keeps
    | (intro _)
    | split
    | (refine Keeps.prj (by with_reducible assumption) ?_)
    | with_reducible apply Keeps.lit

theorem execSltu_keeps {s0 : State} {a0} {a1} {a2} {a3} {a4} {s : State} (h : Keeps s0 s) :
    KeepsX s0 (execSltu a0 a1 a2 a3 a4 s) := by
  unfold execSltu
  repeat' first
    | with_reducible assumption
    | with_reducible apply KeepsX.next
    | with_reducible apply aluReg_keeps
    | (intro _)
    | split
    | (refine Keeps.prj (by with_reducible assumption) ?_)
    | with_reducible apply Keeps.lit

theorem execMin_keeps {s0 : State} {a0} {a1} {a2} {a3} {a4} {s : State} (h : Keeps s0 s) :
    KeepsX s0 (execMin a0 a1 a2 a3 a4 s) := by
  unfold execMin
  repeat' first
    | with_reducible assumption
    | with_reducible apply KeepsX.next
    | with_reducible apply aluReg_keeps
    | (intro _)
    | split
    | (refine Keeps.prj (by with_reducible assumption) ?_)
    | with_reducible apply Keeps.lit

theorem execMax_keeps {s0 : State} {a0} {a1} {a2} {a3} {a4} {s : State} (h : Keeps s0 s) :
    KeepsX s0 (execMax a0 a1 a2 a3 a4 s) := by
  unfold execMax
  repeat' first
    | with_reducible assumption
    | with_reducible apply KeepsX.next
    | with_reducible apply aluReg_keeps
    | (intro _)
    | split
    | (refine Keeps.prj (by with_reducible assumption) ?_)
    | with_reducible apply Keeps.lit

theorem execMinu_keeps {s0 : State} {a0} {a1} {a2} {a3} {a4} {s : State} (h : Keeps s0 s) :
    KeepsX s0 (execMinu a0 a1 a2 a3 a4 s) := by
  unfold execMinu
  repeat' first
    | with_reducible assumption
    | with_reducible apply KeepsX.next
    | with_reducible apply aluReg_keeps
    | (intro _)
    | split
    | (refine Keeps.prj (by with_reducible assumption) ?_)
    | with_reducible apply Keeps.lit

theorem execMaxu_keeps {s0 : State} {a0} {a1} {a2} {a3} {a4} {s : State} (h : Keeps s0 s) :
    KeepsX s0 (execMaxu a0 a1 a2 a3 a4 s) := by
  unfold execMaxu
  repeat' first
    | with_reducible assumption
    | with_reducible apply KeepsX.next
    | with_reducible apply aluReg_keeps
    | (intro _)
    | split
    | (refine Keeps.prj (by with_reducible assumption) ?_)
    | with_reducible apply Keeps.lit

theorem execMul_keeps {s0 : State} {a0} {a1} {a2} {a3} {a4} {s : State} (h : Keeps s0 s) :
    KeepsX s0 (execMul a0 a1 a2 a3 a4 s) := by
  unfold execMul
  repeat' first
    | with_reducible assumption
    | with_reducible apply KeepsX.next
    | with_reducible apply aluReg_keeps
    | (intro _)
    | (refine Keeps.prj (by with_reducible assumption) ?_)
    | with_reducible apply Keeps.lit

theorem execMulhs_keeps {s0 : State} {a0} {a1} {a2} {a3} {a4} {s : State} (h : Keeps s0 s) :
    KeepsX s0 (execMulhs a0 a1 a2 a3 a4 s) := by
  unfold execMulhs
  repeat' first
    | with_reducible assumption
    | with_reducible apply KeepsX.next
    | with_reducible apply aluReg_keeps
    | (intro _)
    | (refine Keeps.prj (by with_reducible assumption) ?_)
    | with_reducible apply Keeps.lit

theorem execMulhu_keeps {s0 : State} {a0} {a1} {a2} {a3} {a4} {s : State} (h : Keeps s0 s) :
    KeepsX s0 (execMulhu a0 a1 a2 a3 a4 s) := by
  unfold execMulhu
  repeat' first
    | with_reducible assumption
    | with_reducible apply KeepsX.next
    | with_reducible apply aluReg_keeps
    | (intro _)
    | (refine Keeps.prj (by with_reducible assumption) ?_)
    | with_reducible apply Keeps.lit

theorem execDivs_keeps {s0 : State} {a0} {a1} {a2} {a3} {a4} {s : State} (h : Keeps s0 s) :
    KeepsX s0 (execDivs a0 a1 a2 a3 a4 s) := by
  unfold execDivs
  repeat' first
    | with_reducible assumption
    | with_reducible apply KeepsX.next
    | with_reducible apply aluReg_keeps
    | (intro _)
    | (refine Keeps.prj (by with_reducible assumption) ?_)
    | with_reducible apply Keeps.lit

theorem execDivu_keeps {s0 : State} {a0} {a1} {a2} {a3} {a4} {s : State} (h : Keeps s0 s) :
    KeepsX s0 (execDivu a0 a1 a2 a3 a4 s) := by
  unfold execDivu
  repeat' first
    | with_reducible assumption
    | with_reducible apply KeepsX.next
    | with_reducible apply aluReg_keeps
    | (intro _)
    | (refine Keeps.prj (by with_reducible assumption) ?_)
    | with_reducible apply Keeps.lit

theorem execRems_keeps {s0 : State} {a0} {a1} {a2} {a3} {a4} {s : State} (h : Keeps s0 s) :
    KeepsX s0 (execRems a0 a1 a2 a3 a4 s) := by
  unfold execRems
  repeat' first
    | with_reducible assumption
    | with_reducible apply KeepsX.next
    | with_reducible apply aluReg_keeps
    | (intro _)
    | (refine Keeps.prj (by with_reducible assumption) ?_)
    | with_reducible apply Keeps.lit

theorem execRemu_keeps {s0 : State} {a0} {a1} {a2} {a3} {a4} {s : State} (h : Keeps s0 s) :
    KeepsX s0 (execRemu a0 a1 a2 a3 a4 s) := by
  unfold execRemu
  repeat' first
    | with_reducible assumption
    | with_reducible apply KeepsX.next
    | with_reducible apply aluReg_keeps
    | (intro _)
    | (refine Keeps.prj (by with_reducible assumption) ?_)
    | with_reducible apply Keeps.lit

theorem execAddi_keeps {s0 : State} {a0} {a1} {a2} {a3} {s : State} (h : Keeps s0 s) :
    KeepsX s0 (execAddi a0 a1 a2 a3 s) := by
  unfold execAddi
  repeat' first
    | with_reducible assumption
    | with_reducible apply KeepsX.next
    | with_reducible apply aluImm_keeps
    | (intro _)
    | (refine Keeps.prj (by with_reducible assumption) ?_)
    | with_reducible apply Keeps.lit

theorem execAndi_keeps {s0 : State} {a0} {a1} {a2} {a3} {s : State} (h : Keeps s0 s) :
    KeepsX s0 (execAndi a0 a1 a2 a3 s) := by
  unfold execAndi
  repeat' first
    | with_reducible assumption
    | with_reducible apply KeepsX.next
    | with_reducible apply aluImm_keeps
    | (intro _)
    | (refine Keeps.prj (by with_reducible assumption) ?_)
    | with_reducible apply Keeps.lit

theorem execOri_keeps {s0 : State} {a0} {a1} {a2} {a3} {s : State} (h : Keeps s0 s) :
    KeepsX s0 (execOri a0 a1 a2 a3 s) := by
  unfold execOri
  repeat' first
    | with_reducible assumption
    | with_reducible apply KeepsX.next
    | with_reducible apply aluImm_keeps
    | (intro _)
    | (refine Keeps.prj (by with_reducible assumption) ?_)
    | with_reducible apply Keeps.lit

theorem execXori_keeps {s0 : State} {a0} {a1} {a2} {a3} {s : State} (h : Keeps s0 s) :
    KeepsX s0 (execXori a0 a1 a2 a3 s) := by
  unfold execXori
  repeat' first
    | with_reducible assumption
    | with_reducible apply KeepsX.next
    | with_reducible apply aluImm_keeps
    | (intro _)
    | (refine Keeps.prj (by with_reducible assumption) ?_)
    | with_reducible apply Keeps.lit

theorem execSlli_keeps {s0 : State} {a0} {a1} {a2} {a3} {s : State} (h : Keeps s0 s) :
    KeepsX s0 (execSlli a0 a1 a2 a3 s) := by
  unfold execSlli
  repeat' first
    | with_reducible assumption
    | with_reducible apply KeepsX.next
    | with_reducible apply aluShift_keeps
    | (intro _)
    | (refine Keeps.prj (by with_reducible assumption) ?_)
    | with_reducible apply Keeps.lit

theorem execSrli_keeps {s0 : State} {a0} {a1} {a2} {a3} {s : State} (h : Keeps s0 s) :
    KeepsX s0 (execSrli a0 a1 a2 a3 s) := by
  unfold execSrli
  repeat' first
    | with_reducible assumption
    | with_reducible apply KeepsX.next
    | with_reducible apply aluShift_keeps
    | (intro _)
    | (refine Keeps.prj (by with_reducible assumption) ?_)
    | with_reducible apply Keeps.lit

theorem execSrai_keeps {s0 : State} {a0} {a1} {a2} {a3} {s : State} (h : Keeps s0 s) :
    KeepsX s0 (execSrai a0 a1 a2 a3 s) := by
  unfold execSrai
  repeat' first
    | with_reducible assumption
    | with_reducible apply KeepsX.next
    | with_reducible apply aluShift_keeps
    | (intro _)
    | (refine Keeps.prj (by with_reducible assumption) ?_)
    | with_reducible apply Keeps.lit

theorem execSlti_keeps {s0 : State} {a0} {a1} {a2} {a3} {s : State} (h : Keeps s0 s) :
    KeepsX s0 (execSlti a0 a1 a2 a3 s) := by
  unfold execSlti
  repeat' first
    | with_reducible assumption
    | with_reducible apply KeepsX.next
    | with_reducible apply aluImm_keeps
    | (intro _)
    | split
    | (refine Keeps.prj (by with_reducible assumption) ?_)
    | with_reducible apply Keeps.lit

theorem execSltui_keeps {s0 : State} {a0} {a1} {a2} {a3} {s : State} (h : Keeps s0 s) :
    KeepsX s0 (execSltui a0 a1 a2 a3 s) := by
  unfold execSltui
  repeat' first
    | with_reducible assumption
    | with_reducible apply KeepsX.next
    | with_reducible apply aluImm_keeps
    | (intro _)
    | split
    | (refine Keeps.prj (by with_reducible assumption) ?_)
    | with_reducible apply Keeps.lit

theorem execSeti_keeps {s0 : State} {a0} {a1} {a2} {a3} {a4} {s : State} (h : Keeps s0 s) :
    KeepsX s0 (execSeti a0 a1 a2 a3 a4 s) := by
  unfold execSeti
  repeat' first
    | with_reducible assumption
    | with_reducible apply KeepsX.next
    | with_reducible apply scalarRow_keeps
    | with_reducible apply retire_keeps
    | (intro _)
    | (refine Keeps.prj (by with_reducible assumption) ?_)
    | with_reducible apply Keeps.lit

theorem execInsi_keeps {s0 : State} {a0} {a1} {a2} {a3} {a4} {s : State} (h : Keeps s0 s) :
    KeepsX s0 (execInsi a0 a1 a2 a3 a4 s) := by
  unfold execInsi
  repeat' first
    | with_reducible assumption
    | with_reducible apply KeepsX.next
    | with_reducible apply scalarRow_keeps
    | with_reducible apply retire_keeps
    | (intro _)
    | (extract_lets +onlyGivenNames x; try clear_value x)
    | (refine Keeps.prj (by with_reducible assumption) ?_)
    | with_reducible apply Keeps.lit

theorem execLoad_keeps {s0 : State} {a0} {a1} {a2} {a3} {a4} {a5} {a6} {a7} {a8} {a9} {s : State} (h : Keeps s0 s) :
    KeepsX s0 (execLoad a0 a1 a2 a3 a4 a5 a6 a7 a8 a9 s) := by
  unfold execLoad
  repeat' first
    | with_reducible assumption
    | with_reducible apply KeepsX.next
    | with_reducible apply scalarRow_keeps
    | with_reducible apply retire_keeps
    | with_reducible apply engineFault_keeps
    | with_reducible apply withEcc_keeps
    | with_reducible apply ctxAccess_keeps
    | with_reducible apply loadThrough_keeps
    | with_reducible apply hf
    | (intro _)
    | (extract_lets +onlyGivenNames x; refine Keeps.cut (s0 := s0) (t := x) ?_ (fun hx => ?_) <;> first | (replace hx : Keeps s0 x := hx; clear_value x) | (dsimp only [x]; clear x))
    | (extract_lets +onlyGivenNames f; refine Keeps.cutS1 (s0 := s0) (f := f) ?_ (fun hf => ?_) <;> first | (replace hf : ∀ a s, Keeps s0 s → Keeps s0 (f a s) := hf; clear_value f) | (dsimp only [f]; clear f))
    | (extract_lets +onlyGivenNames x; try clear_value x)
    | split
    | (refine Keeps.snd (by with_reducible assumption) ?_)
    | (refine Keeps.prj (by with_reducible assumption) ?_)
    | with_reducible apply Keeps.lit

theorem execStore_keeps {s0 : State} {a0} {a1} {a2} {a3} {a4} {a5} {a6} {a7} {s : State} (h : Keeps s0 s) :
    KeepsX s0 (execStore a0 a1 a2 a3 a4 a5 a6 a7 s) := by
  unfold execStore
  repeat' first
    | with_reducible assumption
    | with_reducible apply KeepsX.next
    | with_reducible apply scalarRow_keeps
    | with_reducible apply engineFault_keeps
    | with_reducible apply retire_keeps
    | with_reducible apply ctxAccess_keeps
    | with_reducible apply writePiece_keeps
    | with_reducible apply State.setCore_keeps
    | (intro _)
    | (extract_lets +onlyGivenNames x; refine Keeps.cut (s0 := s0) (t := x) ?_ (fun hx => ?_) <;> first | (replace hx : Keeps s0 x := hx; clear_value x) | (dsimp only [x]; clear x))
    | (extract_lets +onlyGivenNames x; try clear_value x)
    | split
    | (refine Keeps.snd (by with_reducible assumption) ?_)
    | (refine Keeps.prj (by with_reducible assumption) ?_)
    | with_reducible apply Keeps.lit

theorem branch_keeps {s0 : State} {a0} {a1} {a2} {a3} {a4} {a5} {s : State} (h : Keeps s0 s) :
    Keeps s0 (branch a0 a1 a2 a3 a4 a5 s) := by
  unfold branch
  repeat' first
    | with_reducible assumption
    | with_reducible apply scalarRow_keeps
    | with_reducible apply State.setCore_keeps
    | (intro _)
    | split
    | (refine Keeps.prj (by with_reducible assumption) ?_)
    | with_reducible apply Keeps.lit

theorem execBranchEq_keeps {s0 : State} {a0} {a1} {a2} {a3} {a4} {s : State} (h : Keeps s0 s) :
    KeepsX s0 (execBranchEq a0 a1 a2 a3 a4 s) := by
  unfold execBranchEq
  repeat' first
    | with_reducible assumption
    | with_reducible apply KeepsX.next
    | with_reducible apply branch_keeps
    | (intro _)
    | (refine Keeps.prj (by with_reducible assumption) ?_)
    | with_reducible apply Keeps.lit

theorem execBranchNe_keeps {s0 : State} {a0} {a1} {a2} {a3} {a4} {s : State} (h : Keeps s0 s) :
    KeepsX s0 (execBranchNe a0 a1 a2 a3 a4 s) := by
  unfold execBranchNe
  repeat' first
    | with_reducible assumption
    | with_reducible apply KeepsX.next
    | with_reducible apply branch_keeps
    | (intro _)
    | (refine Keeps.prj (by with_reducible assumption) ?_)
    | with_reducible apply Keeps.lit

theorem execBranchLt_keeps {s0 : State} {a0} {a1} {a2} {a3} {a4} {s : State} (h : Keeps s0 s) :
    KeepsX s0 (execBranchLt a0 a1 a2 a3 a4 s) := by
  unfold execBranchLt
  repeat' first
    | with_reducible assumption
    | with_reducible apply KeepsX.next
    | with_reducible apply branch_keeps
    | (intro _)
    | (refine Keeps.prj (by with_reducible assumption) ?_)
    | with_reducible apply Keeps.lit

theorem execBranchGe_keeps {s0 : State} {a0} {a1} {a2} {a3} {a4} {s : State} (h : Keeps s0 s) :
    KeepsX s0 (execBranchGe a0 a1 a2 a3 a4 s) := by
  unfold execBranchGe
  repeat' first
    | with_reducible assumption
    | with_reducible apply KeepsX.next
    | with_reducible apply branch_keeps
    | (intro _)
    | (refine Keeps.prj (by with_reducible assumption) ?_)
    | with_reducible apply Keeps.lit

theorem execBranchLtu_keeps {s0 : State} {a0} {a1} {a2} {a3} {a4} {s : State} (h : Keeps s0 s) :
    KeepsX s0 (execBranchLtu a0 a1 a2 a3 a4 s) := by
  unfold execBranchLtu
  repeat' first
    | with_reducible assumption
    | with_reducible apply KeepsX.next
    | with_reducible apply branch_keeps
    | (intro _)
    | (refine Keeps.prj (by with_reducible assumption) ?_)
    | with_reducible apply Keeps.lit

theorem execBranchGeu_keeps {s0 : State} {a0} {a1} {a2} {a3} {a4} {s : State} (h : Keeps s0 s) :
    KeepsX s0 (execBranchGeu a0 a1 a2 a3 a4 s) := by
  unfold execBranchGeu
  repeat' first
    | with_reducible assumption
    | with_reducible apply KeepsX.next
    | with_reducible apply branch_keeps
    | (intro _)
    | (refine Keeps.prj (by with_reducible assumption) ?_)
    | with_reducible apply Keeps.lit

theorem execJump_keeps {s0 : State} {a0} {a1} {a2} {a3} {s : State} (h : Keeps s0 s) :
    KeepsX s0 (execJump a0 a1 a2 a3 s) := by
  unfold execJump
  repeat' first
    | with_reducible assumption
    | with_reducible apply KeepsX.next
    | with_reducible apply scalarRow_keeps
    | with_reducible apply engineFault_keeps
    | with_reducible apply State.setCore_keeps
    | (intro _)
    | (extract_lets +onlyGivenNames x; try clear_value x)
    | split
    | (refine Keeps.prj (by with_reducible assumption) ?_)
    | with_reducible apply Keeps.lit

theorem cacheAtomic_keeps {s0 : State} {a0} {a1} {a2} {a3} {a4} {a5} {a6} {s : State} (h : Keeps s0 s) :
    Keeps s0 (cacheAtomic a0 a1 a2 a3 a4 a5 a6 s).2 := by
  unfold cacheAtomic
  repeat' first
    | with_reducible assumption
    | with_reducible apply acquire_keeps
    | with_reducible apply State.setCluster_keeps
    | (intro _)
    | (extract_lets +onlyGivenNames x; try clear_value x)
    | split
    | (refine Keeps.snd (by with_reducible assumption) ?_)
    | (refine Keeps.prj (by with_reducible assumption) ?_)
    | with_reducible apply Keeps.lit

theorem homeAtomic_keeps {s0 : State} {a0} {a1} {a2} {a3} {a4} {a5} {a6} {s : State} (h : Keeps s0 s) :
    Keeps s0 (homeAtomic a0 a1 a2 a3 a4 a5 a6 s).2 := by
  unfold homeAtomic
  repeat' first
    | with_reducible assumption
    | with_reducible apply once_keeps
    | (intro _)
    | split
    | (refine Keeps.snd (by with_reducible assumption) ?_)
    | (refine Keeps.prj (by with_reducible assumption) ?_)
    | with_reducible apply Keeps.lit

theorem hostAtomic_keeps {s0 : State} {a0} {a1} {a2} {a3} {a4} {a5} {s : State} (h : Keeps s0 s) :
    Keeps s0 (hostAtomic a0 a1 a2 a3 a4 a5 s).2 := by
  unfold hostAtomic
  repeat' first
    | with_reducible assumption
    | with_reducible apply takeAns_keeps
    | with_reducible apply atcLook_keeps
    | with_reducible apply emit_keeps
    | (intro _)
    | (extract_lets +onlyGivenNames x; try clear_value x)
    | split
    | (refine Keeps.snd (by with_reducible assumption) ?_)
    | (refine Keeps.prj (by with_reducible assumption) ?_)
    | with_reducible apply Keeps.lit

theorem atomicAt_keeps {s0 : State} {a0} {a1} {a2} {a3} {a4} {a5} {a6} {a7} {s : State} (h : Keeps s0 s) :
    Keeps s0 (atomicAt a0 a1 a2 a3 a4 a5 a6 a7 s).2 := by
  unfold atomicAt
  repeat' first
    | with_reducible assumption
    | with_reducible apply homeAtomic_keeps
    | with_reducible apply State.setCluster_keeps
    | with_reducible apply cacheAtomic_keeps
    | with_reducible apply hostAtomic_keeps
    | with_reducible apply windowOnce_keeps
    | with_reducible apply apertureOnce_keeps
    | (intro _)
    | (extract_lets +onlyGivenNames x; try clear_value x)
    | split
    | (refine Keeps.snd (by with_reducible assumption) ?_)
    | (refine Keeps.prj (by with_reducible assumption) ?_)
    | with_reducible apply Keeps.lit

theorem atomicRow_keeps {s0 : State} {a0} {a1} {a2} {a3} {a4} {a5} {a6} {a7} {a8} {s : State} (h : Keeps s0 s) :
    Keeps s0 (atomicRow a0 a1 a2 a3 a4 a5 a6 a7 a8 s) := by
  unfold atomicRow
  repeat' first
    | with_reducible assumption
    | with_reducible apply scalarRow_keeps
    | with_reducible apply engineFault_keeps
    | with_reducible apply ctxAccess_keeps
    | with_reducible apply atomicAt_keeps
    | with_reducible apply State.setCore_keeps
    | with_reducible apply retire_keeps
    | (intro _)
    | (extract_lets +onlyGivenNames x; refine Keeps.cut (s0 := s0) (t := x) ?_ (fun hx => ?_) <;> first | (replace hx : Keeps s0 x := hx; clear_value x) | (dsimp only [x]; clear x))
    | (extract_lets +onlyGivenNames x; try clear_value x)
    | split
    | (refine Keeps.snd (by with_reducible assumption) ?_)
    | (refine Keeps.prj (by with_reducible assumption) ?_)
    | with_reducible apply Keeps.lit

theorem execAtomicSwap_keeps {s0 : State} {a0} {a1} {a2} {a3} {a4} {a5} {a6} {a7} {s : State} (h : Keeps s0 s) :
    KeepsX s0 (execAtomicSwap a0 a1 a2 a3 a4 a5 a6 a7 s) := by
  unfold execAtomicSwap
  repeat' first
    | with_reducible assumption
    | with_reducible apply KeepsX.next
    | with_reducible apply atomicRow_keeps
    | (intro _)
    | (refine Keeps.prj (by with_reducible assumption) ?_)
    | with_reducible apply Keeps.lit

theorem execAtomicAdd_keeps {s0 : State} {a0} {a1} {a2} {a3} {a4} {a5} {a6} {a7} {s : State} (h : Keeps s0 s) :
    KeepsX s0 (execAtomicAdd a0 a1 a2 a3 a4 a5 a6 a7 s) := by
  unfold execAtomicAdd
  repeat' first
    | with_reducible assumption
    | with_reducible apply KeepsX.next
    | with_reducible apply atomicRow_keeps
    | (intro _)
    | (refine Keeps.prj (by with_reducible assumption) ?_)
    | with_reducible apply Keeps.lit

theorem execAtomicAnd_keeps {s0 : State} {a0} {a1} {a2} {a3} {a4} {a5} {a6} {a7} {s : State} (h : Keeps s0 s) :
    KeepsX s0 (execAtomicAnd a0 a1 a2 a3 a4 a5 a6 a7 s) := by
  unfold execAtomicAnd
  repeat' first
    | with_reducible assumption
    | with_reducible apply KeepsX.next
    | with_reducible apply atomicRow_keeps
    | (intro _)
    | (refine Keeps.prj (by with_reducible assumption) ?_)
    | with_reducible apply Keeps.lit

theorem execAtomicOr_keeps {s0 : State} {a0} {a1} {a2} {a3} {a4} {a5} {a6} {a7} {s : State} (h : Keeps s0 s) :
    KeepsX s0 (execAtomicOr a0 a1 a2 a3 a4 a5 a6 a7 s) := by
  unfold execAtomicOr
  repeat' first
    | with_reducible assumption
    | with_reducible apply KeepsX.next
    | with_reducible apply atomicRow_keeps
    | (intro _)
    | (refine Keeps.prj (by with_reducible assumption) ?_)
    | with_reducible apply Keeps.lit

theorem execAtomicXor_keeps {s0 : State} {a0} {a1} {a2} {a3} {a4} {a5} {a6} {a7} {s : State} (h : Keeps s0 s) :
    KeepsX s0 (execAtomicXor a0 a1 a2 a3 a4 a5 a6 a7 s) := by
  unfold execAtomicXor
  repeat' first
    | with_reducible assumption
    | with_reducible apply KeepsX.next
    | with_reducible apply atomicRow_keeps
    | (intro _)
    | (refine Keeps.prj (by with_reducible assumption) ?_)
    | with_reducible apply Keeps.lit

theorem execMins_keeps {s0 : State} {a0} {a1} {a2} {a3} {a4} {a5} {a6} {a7} {s : State} (h : Keeps s0 s) :
    KeepsX s0 (execMins a0 a1 a2 a3 a4 a5 a6 a7 s) := by
  unfold execMins
  repeat' first
    | with_reducible assumption
    | with_reducible apply KeepsX.next
    | with_reducible apply atomicRow_keeps
    | (intro _)
    | (refine Keeps.prj (by with_reducible assumption) ?_)
    | with_reducible apply Keeps.lit

theorem execMaxs_keeps {s0 : State} {a0} {a1} {a2} {a3} {a4} {a5} {a6} {a7} {s : State} (h : Keeps s0 s) :
    KeepsX s0 (execMaxs a0 a1 a2 a3 a4 a5 a6 a7 s) := by
  unfold execMaxs
  repeat' first
    | with_reducible assumption
    | with_reducible apply KeepsX.next
    | with_reducible apply atomicRow_keeps
    | (intro _)
    | (refine Keeps.prj (by with_reducible assumption) ?_)
    | with_reducible apply Keeps.lit

theorem execAtomicMinu_keeps {s0 : State} {a0} {a1} {a2} {a3} {a4} {a5} {a6} {a7} {s : State} (h : Keeps s0 s) :
    KeepsX s0 (execAtomicMinu a0 a1 a2 a3 a4 a5 a6 a7 s) := by
  unfold execAtomicMinu
  repeat' first
    | with_reducible assumption
    | with_reducible apply KeepsX.next
    | with_reducible apply atomicRow_keeps
    | (intro _)
    | (refine Keeps.prj (by with_reducible assumption) ?_)
    | with_reducible apply Keeps.lit

theorem execAtomicMaxu_keeps {s0 : State} {a0} {a1} {a2} {a3} {a4} {a5} {a6} {a7} {s : State} (h : Keeps s0 s) :
    KeepsX s0 (execAtomicMaxu a0 a1 a2 a3 a4 a5 a6 a7 s) := by
  unfold execAtomicMaxu
  repeat' first
    | with_reducible assumption
    | with_reducible apply KeepsX.next
    | with_reducible apply atomicRow_keeps
    | (intro _)
    | (refine Keeps.prj (by with_reducible assumption) ?_)
    | with_reducible apply Keeps.lit

theorem execCas_keeps {s0 : State} {a0} {a1} {a2} {a3} {a4} {a5} {a6} {a7} {s : State} (h : Keeps s0 s) :
    KeepsX s0 (execCas a0 a1 a2 a3 a4 a5 a6 a7 s) := by
  unfold execCas
  repeat' first
    | with_reducible assumption
    | with_reducible apply KeepsX.next
    | with_reducible apply atomicRow_keeps
    | (intro _)
    | (refine Keeps.prj (by with_reducible assumption) ?_)
    | with_reducible apply Keeps.lit

/-! ### Engines -/

theorem headCheck_keeps {s0 : State} {a0} {a1} {s : State} (h : Keeps s0 s) :
    Keeps s0 (headCheck a0 a1 s) := by
  unfold headCheck
  repeat' first
    | with_reducible assumption
    | with_reducible apply engineFault_keeps
    | with_reducible apply State.setCore_keeps
    | (intro _)
    | (extract_lets +onlyGivenNames x; try clear_value x)
    | split
    | (refine Keeps.prj (by with_reducible assumption) ?_)
    | with_reducible apply Keeps.lit

theorem semSignal_keeps {s0 : State} {a0} {a1} {a2} {a3} {s : State} (h : Keeps s0 s) :
    Keeps s0 (semSignal a0 a1 a2 a3 s) := by
  unfold semSignal
  repeat' first
    | with_reducible assumption
    | with_reducible apply engineFault_keeps
    | with_reducible apply State.setCore_keeps
    | (intro _)
    | (extract_lets +onlyGivenNames x; try clear_value x)
    | split
    | (refine Keeps.prj (by with_reducible assumption) ?_)
    | with_reducible apply Keeps.lit

theorem grantEngine_keeps {s0 : State} {a0} {a1} {s : State} (h : Keeps s0 s) :
    Keeps s0 (grantEngine a0 a1 s) := by
  unfold grantEngine
  repeat' first
    | with_reducible assumption
    | with_reducible apply headCheck_keeps
    | with_reducible apply State.setCore_keeps
    | (intro _)
    | (extract_lets +onlyGivenNames x; refine Keeps.cut (s0 := s0) (t := x) ?_ (fun hx => ?_) <;> first | (replace hx : Keeps s0 x := hx; clear_value x) | (dsimp only [x]; clear x))
    | (extract_lets +onlyGivenNames x; try clear_value x)
    | split
    | (refine Keeps.prj (by with_reducible assumption) ?_)
    | with_reducible apply Keeps.lit

theorem grantScalar_keeps {s0 : State} {a0} {s : State} (h : Keeps s0 s) :
    Keeps s0 (grantScalar a0 s) := by
  unfold grantScalar
  repeat' first
    | with_reducible assumption
    | with_reducible apply State.setCore_keeps
    | (intro _)
    | (extract_lets +onlyGivenNames x; try clear_value x)
    | split
    | (refine Keeps.prj (by with_reducible assumption) ?_)
    | with_reducible apply Keeps.lit

theorem haltCore_keeps {s0 : State} {a0} {s : State} (h : Keeps s0 s) :
    Keeps s0 (haltCore a0 s) := by
  unfold haltCore
  repeat' first
    | with_reducible assumption
    | with_reducible apply settleLaunches_keeps
    | with_reducible apply stopCore_keeps
    | (intro _)
    | (refine Keeps.prj (by with_reducible assumption) ?_)
    | with_reducible apply Keeps.lit

theorem unblock_keeps {s0 : State} {a0} {s : State} (h : Keeps s0 s) :
    Keeps s0 (unblock a0 s) := by
  unfold unblock
  repeat' first
    | with_reducible assumption
    | with_reducible apply State.setCore_keeps
    | (intro _)
    | (extract_lets +onlyGivenNames x; try clear_value x)
    | split
    | (refine Keeps.prj (by with_reducible assumption) ?_)
    | with_reducible apply Keeps.lit

theorem settleCore_keeps {s0 : State} {a0} {s : State} (h : Keeps s0 s) :
    Keeps s0 (settleCore a0 s) := by
  unfold settleCore
  repeat' first
    | with_reducible assumption
    | with_reducible apply haltCore_keeps
    | with_reducible apply unblock_keeps
    | with_reducible apply engineFault_keeps
    | (intro _)
    | (extract_lets +onlyGivenNames x; refine Keeps.cut (s0 := s0) (t := x) ?_ (fun hx => ?_) <;> first | (replace hx : Keeps s0 x := hx; clear_value x) | (dsimp only [x]; clear x))
    | split
    | (refine Keeps.prj (by with_reducible assumption) ?_)
    | with_reducible apply Keeps.lit

theorem engineRow_keeps {s0 : State} {a0} {a1} {a2} {a3} {s : State} (h3 : ∀ b0 s, Keeps s0 s → Keeps s0 (a3 b0 s)) (h : Keeps s0 s) :
    Keeps s0 (engineRow a0 a1 a2 a3 s) := by
  unfold engineRow
  repeat' first
    | with_reducible assumption
    | with_reducible apply h3
    | (intro _)
    | (extract_lets +onlyGivenNames x; try clear_value x)
    | split
    | (refine Keeps.prj (by with_reducible assumption) ?_)
    | with_reducible apply Keeps.lit

theorem engineDone_keeps {s0 : State} {a0} {a1} {s : State} (h : Keeps s0 s) :
    Keeps s0 (engineDone a0 a1 s) := by
  unfold engineDone
  repeat' first
    | with_reducible assumption
    | with_reducible apply settleCore_keeps
    | with_reducible apply headCheck_keeps
    | with_reducible apply State.setCore_keeps
    | (intro _)
    | (extract_lets +onlyGivenNames x; try clear_value x)
    | split
    | (refine Keeps.prj (by with_reducible assumption) ?_)
    | with_reducible apply Keeps.lit

theorem execEnq_keeps {s0 : State} {a0} {a1} {a2} {a3} {a4} {s : State} (h : Keeps s0 s) :
    KeepsX s0 (execEnq a0 a1 a2 a3 a4 s) := by
  unfold execEnq
  repeat' first
    | with_reducible assumption
    | with_reducible apply KeepsX.next
    | with_reducible apply scalarRow_keeps
    | with_reducible apply settleCore_keeps
    | with_reducible apply State.setCore_keeps
    | with_reducible apply headCheck_keeps
    | with_reducible apply retire_keeps
    | (intro _)
    | (extract_lets +onlyGivenNames x; try clear_value x)
    | split
    | (refine Keeps.prj (by with_reducible assumption) ?_)
    | with_reducible apply Keeps.lit

theorem execSwait_keeps {s0 : State} {a0} {a1} {a2} {a3} {a4} {s : State} (h : Keeps s0 s) :
    KeepsX s0 (execSwait a0 a1 a2 a3 a4 s) := by
  unfold execSwait
  repeat' first
    | with_reducible assumption
    | with_reducible apply KeepsX.next
    | with_reducible apply scalarRow_keeps
    | with_reducible apply settleCore_keeps
    | with_reducible apply grantScalar_keeps
    | with_reducible apply State.setCore_keeps
    | (intro _)
    | (refine Keeps.prj (by with_reducible assumption) ?_)
    | with_reducible apply Keeps.lit

theorem execSsig_keeps {s0 : State} {a0} {a1} {a2} {a3} {a4} {s : State} (h : Keeps s0 s) :
    KeepsX s0 (execSsig a0 a1 a2 a3 a4 s) := by
  unfold execSsig
  repeat' first
    | with_reducible assumption
    | with_reducible apply KeepsX.next
    | with_reducible apply scalarRow_keeps
    | with_reducible apply semSignal_keeps
    | with_reducible apply retire_keeps
    | (intro _)
    | (extract_lets +onlyGivenNames x; refine Keeps.cut (s0 := s0) (t := x) ?_ (fun hx => ?_) <;> first | (replace hx : Keeps s0 x := hx; clear_value x) | (dsimp only [x]; clear x))
    | split
    | (refine Keeps.prj (by with_reducible assumption) ?_)
    | with_reducible apply Keeps.lit

theorem execSread_keeps {s0 : State} {a0} {a1} {a2} {a3} {a4} {s : State} (h : Keeps s0 s) :
    KeepsX s0 (execSread a0 a1 a2 a3 a4 s) := by
  unfold execSread
  repeat' first
    | with_reducible assumption
    | with_reducible apply KeepsX.next
    | with_reducible apply scalarRow_keeps
    | with_reducible apply retire_keeps
    | (intro _)
    | (refine Keeps.prj (by with_reducible assumption) ?_)
    | with_reducible apply Keeps.lit

theorem execSemaphoreGrant_keeps {s0 : State} {a0} {s : State} (h : Keeps s0 s) :
    KeepsX s0 (execSemaphoreGrant a0 s) := by
  unfold execSemaphoreGrant
  repeat' first
    | with_reducible assumption
    | with_reducible apply KeepsX.next
    | with_reducible apply settleCore_keeps
    | with_reducible apply grantEngine_keeps
    | with_reducible apply grantScalar_keeps
    | (intro _)
    | (extract_lets +onlyGivenNames x; try clear_value x)
    | split
    | (refine Keeps.prj (by with_reducible assumption) ?_)
    | with_reducible apply Keeps.lit

theorem execEngineCommandComplete_keeps {s0 : State} {a0} {a1} {s : State} (h : Keeps s0 s) :
    KeepsX s0 (execEngineCommandComplete a0 a1 s) := by
  unfold execEngineCommandComplete
  repeat' first
    | with_reducible assumption
    | with_reducible apply KeepsX.next
    | with_reducible apply sysRelease_keeps
    | with_reducible apply State.setCore_keeps
    | with_reducible apply settleCore_keeps
    | with_reducible apply semSignal_keeps
    | (intro _)
    | (extract_lets +onlyGivenNames x; refine Keeps.cut (s0 := s0) (t := x) ?_ (fun hx => ?_) <;> first | (replace hx : Keeps s0 x := hx; clear_value x) | (dsimp only [x]; clear x))
    | (extract_lets +onlyGivenNames x; try clear_value x)
    | split
    | (refine Keeps.snd (by with_reducible assumption) ?_)
    | (refine Keeps.prj (by with_reducible assumption) ?_)
    | with_reducible apply Keeps.lit

/-! ### System -/

theorem execNop_keeps {s0 : State} {a0} {a1} {a2} {a3} {s : State} (h : Keeps s0 s) :
    KeepsX s0 (execNop a0 a1 a2 a3 s) := by
  unfold execNop
  repeat' first
    | with_reducible assumption
    | with_reducible apply KeepsX.next
    | with_reducible apply scalarRow_keeps
    | with_reducible apply retire_keeps
    | (intro _)
    | (refine Keeps.prj (by with_reducible assumption) ?_)
    | with_reducible apply Keeps.lit

theorem execHalt_keeps {s0 : State} {a0} {a1} {a2} {a3} {s : State} (h : Keeps s0 s) :
    KeepsX s0 (execHalt a0 a1 a2 a3 s) := by
  unfold execHalt
  repeat' first
    | with_reducible assumption
    | with_reducible apply KeepsX.next
    | with_reducible apply scalarRow_keeps
    | with_reducible apply settleCore_keeps
    | with_reducible apply State.setCore_keeps
    | (intro _)
    | (refine Keeps.prj (by with_reducible assumption) ?_)
    | with_reducible apply Keeps.lit

theorem execFence_keeps {s0 : State} {a0} {a1} {a2} {a3} {s : State} (h : Keeps s0 s) :
    KeepsX s0 (execFence a0 a1 a2 a3 s) := by
  unfold execFence
  repeat' first
    | with_reducible assumption
    | with_reducible apply KeepsX.next
    | with_reducible apply scalarRow_keeps
    | with_reducible apply sysRelease_keeps
    | with_reducible apply State.setCore_keeps
    | with_reducible apply epochAdvance_keeps
    | with_reducible apply retire_keeps
    | (intro _)
    | (extract_lets +onlyGivenNames x; refine Keeps.cut (s0 := s0) (t := x) ?_ (fun hx => ?_) <;> first | (replace hx : Keeps s0 x := hx; clear_value x) | (dsimp only [x]; clear x))
    | (extract_lets +onlyGivenNames x; try clear_value x)
    | split
    | (refine Keeps.snd (by with_reducible assumption) ?_)
    | (refine Keeps.prj (by with_reducible assumption) ?_)
    | with_reducible apply Keeps.lit

theorem execL1inv_keeps {s0 : State} {a0} {a1} {a2} {a3} {s : State} (h : Keeps s0 s) :
    KeepsX s0 (execL1inv a0 a1 a2 a3 s) := by
  unfold execL1inv
  repeat' first
    | with_reducible assumption
    | with_reducible apply KeepsX.next
    | with_reducible apply scalarRow_keeps
    | with_reducible apply retire_keeps
    | (intro _)
    | (refine Keeps.prj (by with_reducible assumption) ?_)
    | with_reducible apply Keeps.lit

theorem execCsrr_keeps {s0 : State} {a0} {a1} {a2} {a3} {s : State} (h : Keeps s0 s) :
    KeepsX s0 (execCsrr a0 a1 a2 a3 s) := by
  unfold execCsrr
  repeat' first
    | with_reducible assumption
    | with_reducible apply KeepsX.next
    | with_reducible apply scalarRow_keeps
    | with_reducible apply retire_keeps
    | (intro _)
    | (refine Keeps.prj (by with_reducible assumption) ?_)
    | with_reducible apply Keeps.lit

theorem execCsrw_keeps {s0 : State} {a0} {a1} {a2} {a3} {s : State} (h : Keeps s0 s) :
    KeepsX s0 (execCsrw a0 a1 a2 a3 s) := by
  unfold execCsrw
  repeat' first
    | with_reducible assumption
    | with_reducible apply KeepsX.next
    | with_reducible apply scalarRow_keeps
    | with_reducible apply retire_keeps
    | (intro _)
    | (extract_lets +onlyGivenNames x; try clear_value x)
    | split
    | (refine Keeps.prj (by with_reducible assumption) ?_)
    | with_reducible apply Keeps.lit

theorem execTrap_keeps {s0 : State} {a0} {a1} {a2} {a3} {s : State} (h : Keeps s0 s) :
    KeepsX s0 (execTrap a0 a1 a2 a3 s) := by
  unfold execTrap
  repeat' first
    | with_reducible assumption
    | with_reducible apply KeepsX.next
    | with_reducible apply scalarRow_keeps
    | with_reducible apply engineFault_keeps
    | (intro _)
    | (refine Keeps.prj (by with_reducible assumption) ?_)
    | with_reducible apply Keeps.lit

theorem execWaite_keeps {s0 : State} {a0} {a1} {a2} {a3} {s : State} (h : Keeps s0 s) :
    KeepsX s0 (execWaite a0 a1 a2 a3 s) := by
  unfold execWaite
  repeat' first
    | with_reducible assumption
    | with_reducible apply KeepsX.next
    | with_reducible apply scalarRow_keeps
    | with_reducible apply settleCore_keeps
    | with_reducible apply State.setCore_keeps
    | (intro _)
    | (refine Keeps.prj (by with_reducible assumption) ?_)
    | with_reducible apply Keeps.lit

/-! ### Vector -/

theorem vectorRow_keeps {s0 : State} {a0} {a1} {a2} {a3} {a4} {s : State} (h : Keeps s0 s) :
    Keeps s0 (vectorRow a0 a1 a2 a3 a4 s) := by
  unfold vectorRow
  repeat' first
    | with_reducible assumption
    | with_reducible apply engineRow_keeps
    | with_reducible apply engineDone_keeps
    | with_reducible apply engineFault_keeps
    | with_reducible apply withEcc_keeps
    | with_reducible apply State.setCore_keeps
    | with_reducible apply foldl_keeps
    | with_reducible apply foldl_keeps_snd
    | (intro _)
    | (extract_lets +onlyGivenNames x; refine Keeps.cut (s0 := s0) (t := x) ?_ (fun hx => ?_) <;> first | (replace hx : Keeps s0 x := hx; clear_value x) | (dsimp only [x]; clear x))
    | (extract_lets +onlyGivenNames x; try clear_value x)
    | split
    | (refine Keeps.prj (by with_reducible assumption) ?_)
    | with_reducible apply Keeps.lit

theorem execVfadd_keeps {s0 : State} {a0} {a1} {s : State} (h : Keeps s0 s) :
    KeepsX s0 (execVfadd a0 a1 s) := by
  unfold execVfadd
  repeat' first
    | with_reducible assumption
    | with_reducible apply KeepsX.next
    | with_reducible apply vectorRow_keeps
    | (intro _)
    | (refine Keeps.prj (by with_reducible assumption) ?_)
    | with_reducible apply Keeps.lit

theorem execVfsub_keeps {s0 : State} {a0} {a1} {s : State} (h : Keeps s0 s) :
    KeepsX s0 (execVfsub a0 a1 s) := by
  unfold execVfsub
  repeat' first
    | with_reducible assumption
    | with_reducible apply KeepsX.next
    | with_reducible apply vectorRow_keeps
    | (intro _)
    | (refine Keeps.prj (by with_reducible assumption) ?_)
    | with_reducible apply Keeps.lit

theorem execVfmul_keeps {s0 : State} {a0} {a1} {s : State} (h : Keeps s0 s) :
    KeepsX s0 (execVfmul a0 a1 s) := by
  unfold execVfmul
  repeat' first
    | with_reducible assumption
    | with_reducible apply KeepsX.next
    | with_reducible apply vectorRow_keeps
    | (intro _)
    | (refine Keeps.prj (by with_reducible assumption) ?_)
    | with_reducible apply Keeps.lit

theorem execVfma_keeps {s0 : State} {a0} {a1} {s : State} (h : Keeps s0 s) :
    KeepsX s0 (execVfma a0 a1 s) := by
  unfold execVfma
  repeat' first
    | with_reducible assumption
    | with_reducible apply KeepsX.next
    | with_reducible apply vectorRow_keeps
    | (intro _)
    | (refine Keeps.prj (by with_reducible assumption) ?_)
    | with_reducible apply Keeps.lit

theorem execVfmin_keeps {s0 : State} {a0} {a1} {s : State} (h : Keeps s0 s) :
    KeepsX s0 (execVfmin a0 a1 s) := by
  unfold execVfmin
  repeat' first
    | with_reducible assumption
    | with_reducible apply KeepsX.next
    | with_reducible apply vectorRow_keeps
    | (intro _)
    | (refine Keeps.prj (by with_reducible assumption) ?_)
    | with_reducible apply Keeps.lit

theorem execVfmax_keeps {s0 : State} {a0} {a1} {s : State} (h : Keeps s0 s) :
    KeepsX s0 (execVfmax a0 a1 s) := by
  unfold execVfmax
  repeat' first
    | with_reducible assumption
    | with_reducible apply KeepsX.next
    | with_reducible apply vectorRow_keeps
    | (intro _)
    | (refine Keeps.prj (by with_reducible assumption) ?_)
    | with_reducible apply Keeps.lit

theorem execVmov_keeps {s0 : State} {a0} {a1} {s : State} (h : Keeps s0 s) :
    KeepsX s0 (execVmov a0 a1 s) := by
  unfold execVmov
  repeat' first
    | with_reducible assumption
    | with_reducible apply KeepsX.next
    | with_reducible apply vectorRow_keeps
    | (intro _)
    | (refine Keeps.prj (by with_reducible assumption) ?_)
    | with_reducible apply Keeps.lit

theorem execViadd_keeps {s0 : State} {a0} {a1} {s : State} (h : Keeps s0 s) :
    KeepsX s0 (execViadd a0 a1 s) := by
  unfold execViadd
  repeat' first
    | with_reducible assumption
    | with_reducible apply KeepsX.next
    | with_reducible apply vectorRow_keeps
    | (intro _)
    | (refine Keeps.prj (by with_reducible assumption) ?_)
    | with_reducible apply Keeps.lit

theorem execVisub_keeps {s0 : State} {a0} {a1} {s : State} (h : Keeps s0 s) :
    KeepsX s0 (execVisub a0 a1 s) := by
  unfold execVisub
  repeat' first
    | with_reducible assumption
    | with_reducible apply KeepsX.next
    | with_reducible apply vectorRow_keeps
    | (intro _)
    | (refine Keeps.prj (by with_reducible assumption) ?_)
    | with_reducible apply Keeps.lit

theorem execVimul_keeps {s0 : State} {a0} {a1} {s : State} (h : Keeps s0 s) :
    KeepsX s0 (execVimul a0 a1 s) := by
  unfold execVimul
  repeat' first
    | with_reducible assumption
    | with_reducible apply KeepsX.next
    | with_reducible apply vectorRow_keeps
    | (intro _)
    | (refine Keeps.prj (by with_reducible assumption) ?_)
    | with_reducible apply Keeps.lit

theorem execVimin_keeps {s0 : State} {a0} {a1} {s : State} (h : Keeps s0 s) :
    KeepsX s0 (execVimin a0 a1 s) := by
  unfold execVimin
  repeat' first
    | with_reducible assumption
    | with_reducible apply KeepsX.next
    | with_reducible apply vectorRow_keeps
    | (intro _)
    | split
    | (refine Keeps.prj (by with_reducible assumption) ?_)
    | with_reducible apply Keeps.lit

theorem execVimax_keeps {s0 : State} {a0} {a1} {s : State} (h : Keeps s0 s) :
    KeepsX s0 (execVimax a0 a1 s) := by
  unfold execVimax
  repeat' first
    | with_reducible assumption
    | with_reducible apply KeepsX.next
    | with_reducible apply vectorRow_keeps
    | (intro _)
    | split
    | (refine Keeps.prj (by with_reducible assumption) ?_)
    | with_reducible apply Keeps.lit

theorem execVand_keeps {s0 : State} {a0} {a1} {s : State} (h : Keeps s0 s) :
    KeepsX s0 (execVand a0 a1 s) := by
  unfold execVand
  repeat' first
    | with_reducible assumption
    | with_reducible apply KeepsX.next
    | with_reducible apply vectorRow_keeps
    | (intro _)
    | (refine Keeps.prj (by with_reducible assumption) ?_)
    | with_reducible apply Keeps.lit

theorem execVor_keeps {s0 : State} {a0} {a1} {s : State} (h : Keeps s0 s) :
    KeepsX s0 (execVor a0 a1 s) := by
  unfold execVor
  repeat' first
    | with_reducible assumption
    | with_reducible apply KeepsX.next
    | with_reducible apply vectorRow_keeps
    | (intro _)
    | (refine Keeps.prj (by with_reducible assumption) ?_)
    | with_reducible apply Keeps.lit

theorem execVxor_keeps {s0 : State} {a0} {a1} {s : State} (h : Keeps s0 s) :
    KeepsX s0 (execVxor a0 a1 s) := by
  unfold execVxor
  repeat' first
    | with_reducible assumption
    | with_reducible apply KeepsX.next
    | with_reducible apply vectorRow_keeps
    | (intro _)
    | (refine Keeps.prj (by with_reducible assumption) ?_)
    | with_reducible apply Keeps.lit

theorem execVshl_keeps {s0 : State} {a0} {a1} {s : State} (h : Keeps s0 s) :
    KeepsX s0 (execVshl a0 a1 s) := by
  unfold execVshl
  repeat' first
    | with_reducible assumption
    | with_reducible apply KeepsX.next
    | with_reducible apply vectorRow_keeps
    | (intro _)
    | (refine Keeps.prj (by with_reducible assumption) ?_)
    | with_reducible apply Keeps.lit

theorem execVshr_keeps {s0 : State} {a0} {a1} {s : State} (h : Keeps s0 s) :
    KeepsX s0 (execVshr a0 a1 s) := by
  unfold execVshr
  repeat' first
    | with_reducible assumption
    | with_reducible apply KeepsX.next
    | with_reducible apply vectorRow_keeps
    | (intro _)
    | (refine Keeps.prj (by with_reducible assumption) ?_)
    | with_reducible apply Keeps.lit

theorem execVsra_keeps {s0 : State} {a0} {a1} {s : State} (h : Keeps s0 s) :
    KeepsX s0 (execVsra a0 a1 s) := by
  unfold execVsra
  repeat' first
    | with_reducible assumption
    | with_reducible apply KeepsX.next
    | with_reducible apply vectorRow_keeps
    | (intro _)
    | (refine Keeps.prj (by with_reducible assumption) ?_)
    | with_reducible apply Keeps.lit

theorem execVsel_keeps {s0 : State} {a0} {a1} {s : State} (h : Keeps s0 s) :
    KeepsX s0 (execVsel a0 a1 s) := by
  unfold execVsel
  repeat' first
    | with_reducible assumption
    | with_reducible apply KeepsX.next
    | with_reducible apply vectorRow_keeps
    | (intro _)
    | split
    | (refine Keeps.prj (by with_reducible assumption) ?_)
    | with_reducible apply Keeps.lit

theorem execVcvt_keeps {s0 : State} {a0} {a1} {s : State} (h : Keeps s0 s) :
    KeepsX s0 (execVcvt a0 a1 s) := by
  unfold execVcvt
  repeat' first
    | with_reducible assumption
    | with_reducible apply KeepsX.next
    | with_reducible apply vectorRow_keeps
    | (intro _)
    | (extract_lets +onlyGivenNames x; try clear_value x)
    | (refine Keeps.prj (by with_reducible assumption) ?_)
    | with_reducible apply Keeps.lit

theorem execRecip_keeps {s0 : State} {a0} {a1} {s : State} (h : Keeps s0 s) :
    KeepsX s0 (execRecip a0 a1 s) := by
  unfold execRecip
  repeat' first
    | with_reducible assumption
    | with_reducible apply KeepsX.next
    | with_reducible apply vectorRow_keeps
    | (intro _)
    | (refine Keeps.prj (by with_reducible assumption) ?_)
    | with_reducible apply Keeps.lit

theorem execRsqrt_keeps {s0 : State} {a0} {a1} {s : State} (h : Keeps s0 s) :
    KeepsX s0 (execRsqrt a0 a1 s) := by
  unfold execRsqrt
  repeat' first
    | with_reducible assumption
    | with_reducible apply KeepsX.next
    | with_reducible apply vectorRow_keeps
    | (intro _)
    | (refine Keeps.prj (by with_reducible assumption) ?_)
    | with_reducible apply Keeps.lit

theorem execSqrt_keeps {s0 : State} {a0} {a1} {s : State} (h : Keeps s0 s) :
    KeepsX s0 (execSqrt a0 a1 s) := by
  unfold execSqrt
  repeat' first
    | with_reducible assumption
    | with_reducible apply KeepsX.next
    | with_reducible apply vectorRow_keeps
    | (intro _)
    | (refine Keeps.prj (by with_reducible assumption) ?_)
    | with_reducible apply Keeps.lit

theorem execExp2_keeps {s0 : State} {a0} {a1} {s : State} (h : Keeps s0 s) :
    KeepsX s0 (execExp2 a0 a1 s) := by
  unfold execExp2
  repeat' first
    | with_reducible assumption
    | with_reducible apply KeepsX.next
    | with_reducible apply vectorRow_keeps
    | (intro _)
    | (refine Keeps.prj (by with_reducible assumption) ?_)
    | with_reducible apply Keeps.lit

theorem execLog2_keeps {s0 : State} {a0} {a1} {s : State} (h : Keeps s0 s) :
    KeepsX s0 (execLog2 a0 a1 s) := by
  unfold execLog2
  repeat' first
    | with_reducible assumption
    | with_reducible apply KeepsX.next
    | with_reducible apply vectorRow_keeps
    | (intro _)
    | (refine Keeps.prj (by with_reducible assumption) ?_)
    | with_reducible apply Keeps.lit

theorem execExp_keeps {s0 : State} {a0} {a1} {s : State} (h : Keeps s0 s) :
    KeepsX s0 (execExp a0 a1 s) := by
  unfold execExp
  repeat' first
    | with_reducible assumption
    | with_reducible apply KeepsX.next
    | with_reducible apply vectorRow_keeps
    | (intro _)
    | (refine Keeps.prj (by with_reducible assumption) ?_)
    | with_reducible apply Keeps.lit

theorem execLn_keeps {s0 : State} {a0} {a1} {s : State} (h : Keeps s0 s) :
    KeepsX s0 (execLn a0 a1 s) := by
  unfold execLn
  repeat' first
    | with_reducible assumption
    | with_reducible apply KeepsX.next
    | with_reducible apply vectorRow_keeps
    | (intro _)
    | (refine Keeps.prj (by with_reducible assumption) ?_)
    | with_reducible apply Keeps.lit

theorem execTanh_keeps {s0 : State} {a0} {a1} {s : State} (h : Keeps s0 s) :
    KeepsX s0 (execTanh a0 a1 s) := by
  unfold execTanh
  repeat' first
    | with_reducible assumption
    | with_reducible apply KeepsX.next
    | with_reducible apply vectorRow_keeps
    | (intro _)
    | (refine Keeps.prj (by with_reducible assumption) ?_)
    | with_reducible apply Keeps.lit

theorem execSigmoid_keeps {s0 : State} {a0} {a1} {s : State} (h : Keeps s0 s) :
    KeepsX s0 (execSigmoid a0 a1 s) := by
  unfold execSigmoid
  repeat' first
    | with_reducible assumption
    | with_reducible apply KeepsX.next
    | with_reducible apply vectorRow_keeps
    | (intro _)
    | (refine Keeps.prj (by with_reducible assumption) ?_)
    | with_reducible apply Keeps.lit

theorem execGelu_keeps {s0 : State} {a0} {a1} {s : State} (h : Keeps s0 s) :
    KeepsX s0 (execGelu a0 a1 s) := by
  unfold execGelu
  repeat' first
    | with_reducible assumption
    | with_reducible apply KeepsX.next
    | with_reducible apply vectorRow_keeps
    | (intro _)
    | (refine Keeps.prj (by with_reducible assumption) ?_)
    | with_reducible apply Keeps.lit

theorem execSin_keeps {s0 : State} {a0} {a1} {s : State} (h : Keeps s0 s) :
    KeepsX s0 (execSin a0 a1 s) := by
  unfold execSin
  repeat' first
    | with_reducible assumption
    | with_reducible apply KeepsX.next
    | with_reducible apply vectorRow_keeps
    | (intro _)
    | (refine Keeps.prj (by with_reducible assumption) ?_)
    | with_reducible apply Keeps.lit

theorem execCos_keeps {s0 : State} {a0} {a1} {s : State} (h : Keeps s0 s) :
    KeepsX s0 (execCos a0 a1 s) := by
  unfold execCos
  repeat' first
    | with_reducible assumption
    | with_reducible apply KeepsX.next
    | with_reducible apply vectorRow_keeps
    | (intro _)
    | (refine Keeps.prj (by with_reducible assumption) ?_)
    | with_reducible apply Keeps.lit

theorem execVrsum_keeps {s0 : State} {a0} {a1} {s : State} (h : Keeps s0 s) :
    KeepsX s0 (execVrsum a0 a1 s) := by
  unfold execVrsum
  repeat' first
    | with_reducible assumption
    | with_reducible apply KeepsX.next
    | with_reducible apply vectorRow_keeps
    | (intro _)
    | (refine Keeps.prj (by with_reducible assumption) ?_)
    | with_reducible apply Keeps.lit

theorem execVrmax_keeps {s0 : State} {a0} {a1} {s : State} (h : Keeps s0 s) :
    KeepsX s0 (execVrmax a0 a1 s) := by
  unfold execVrmax
  repeat' first
    | with_reducible assumption
    | with_reducible apply KeepsX.next
    | with_reducible apply vectorRow_keeps
    | (intro _)
    | (refine Keeps.prj (by with_reducible assumption) ?_)
    | with_reducible apply Keeps.lit

theorem execVhsum_keeps {s0 : State} {a0} {a1} {s : State} (h : Keeps s0 s) :
    KeepsX s0 (execVhsum a0 a1 s) := by
  unfold execVhsum
  repeat' first
    | with_reducible assumption
    | with_reducible apply KeepsX.next
    | with_reducible apply vectorRow_keeps
    | (intro _)
    | split
    | (refine Keeps.prj (by with_reducible assumption) ?_)
    | with_reducible apply Keeps.lit

/-! ### Repair -/

theorem setSegments_keeps {s0 : State} {a0} {s : State} (h : Keeps s0 s) :
    Keeps s0 (setSegments a0 s) := by
  unfold setSegments
  repeat' first
    | with_reducible assumption
    | (intro _)
    | (extract_lets +onlyGivenNames x; try clear_value x)
    | split
    | (refine Keeps.prj (by with_reducible assumption) ?_)
    | with_reducible apply Keeps.lit

theorem serviceEvent_keeps {s0 : State} {a0} {a1} {a2} {a3} {s : State} (h : Keeps s0 s) :
    Keeps s0 (serviceEvent a0 a1 a2 a3 s) := by
  unfold serviceEvent
  repeat' first
    | with_reducible assumption
    | with_reducible apply hubEvent_keeps
    | (intro _)
    | (refine Keeps.prj (by with_reducible assumption) ?_)
    | with_reducible apply Keeps.lit

theorem addRecord_keeps {s0 : State} {a0} {s : State} (h : Keeps s0 s) :
    Keeps s0 (addRecord a0 s) := by
  unfold addRecord
  repeat' first
    | with_reducible assumption
    | (intro _)
    | (extract_lets +onlyGivenNames x; try clear_value x)
    | split
    | (refine Keeps.prj (by with_reducible assumption) ?_)
    | with_reducible apply Keeps.lit

theorem noSpare_keeps {s0 : State} {a0} {s : State} (h : Keeps s0 s) :
    Keeps s0 (noSpare a0 s) := by
  unfold noSpare
  repeat' first
    | with_reducible assumption
    | with_reducible apply serviceEvent_keeps
    | (intro _)
    | (extract_lets +onlyGivenNames x; try clear_value x)
    | (refine Keeps.prj (by with_reducible assumption) ?_)
    | with_reducible apply Keeps.lit

theorem freshSpare_keeps {s0 : State} {a0} {s : State} (h : Keeps s0 s) :
    Keeps s0 (freshSpare a0 s) := by
  unfold freshSpare
  repeat' first
    | with_reducible assumption
    | with_reducible apply State.setCore_keeps
    | (intro _)
    | (extract_lets +onlyGivenNames x; refine Keeps.cut (s0 := s0) (t := x) ?_ (fun hx => ?_) <;> first | (replace hx : Keeps s0 x := hx; clear_value x) | (dsimp only [x]; clear x))
    | (extract_lets +onlyGivenNames x; try clear_value x)
    | (refine Keeps.prj (by with_reducible assumption) ?_)
    | with_reducible apply Keeps.lit

theorem retireCore_keeps {s0 : State} {a0} {a1} {s : State} (h : Keeps s0 s) :
    Keeps s0 (retireCore a0 a1 s) := by
  unfold retireCore
  repeat' first
    | with_reducible assumption
    | with_reducible apply noSpare_keeps
    | with_reducible apply addRecord_keeps
    | with_reducible apply setSegments_keeps
    | with_reducible apply freshSpare_keeps
    | with_reducible apply serviceEvent_keeps
    | (intro _)
    | (extract_lets +onlyGivenNames x; refine Keeps.cut (s0 := s0) (t := x) ?_ (fun hx => ?_) <;> first | (replace hx : Keeps s0 x := hx; clear_value x) | (dsimp only [x]; clear x))
    | (extract_lets +onlyGivenNames x; try clear_value x)
    | split
    | (refine Keeps.prj (by with_reducible assumption) ?_)
    | with_reducible apply Keeps.lit

theorem evictLines_keeps {s0 : State} {a0} {a1} {s : State} (h : Keeps s0 s) :
    Keeps s0 (evictLines a0 a1 s) := by
  unfold evictLines
  repeat' first
    | with_reducible assumption
    | with_reducible apply homeWrite_keeps
    | with_reducible apply State.setCluster_keeps
    | with_reducible apply foldl_keeps
    | with_reducible apply foldl_keeps_snd
    | (intro _)
    | (extract_lets +onlyGivenNames x; refine Keeps.cut (s0 := s0) (t := x) ?_ (fun hx => ?_) <;> first | (replace hx : Keeps s0 x := hx; clear_value x) | (dsimp only [x]; clear x))
    | (extract_lets +onlyGivenNames x; try clear_value x)
    | split
    | (refine Keeps.prj (by with_reducible assumption) ?_)
    | with_reducible apply Keeps.lit

theorem makeRepair_keeps {s0 : State} {a0} {s : State} (h : Keeps s0 s) :
    Keeps s0 (makeRepair a0 s) := by
  unfold makeRepair
  repeat' first
    | with_reducible assumption
    | with_reducible apply serviceEvent_keeps
    | with_reducible apply addRecord_keeps
    | with_reducible apply retireCore_keeps
    | with_reducible apply setSegments_keeps
    | with_reducible apply evictLines_keeps
    | with_reducible apply foldS_keeps
    | with_reducible apply hf
    | (intro _)
    | (extract_lets +onlyGivenNames x; refine Keeps.cut (s0 := s0) (t := x) ?_ (fun hx => ?_) <;> first | (replace hx : Keeps s0 x := hx; clear_value x) | (dsimp only [x]; clear x))
    | (extract_lets +onlyGivenNames f; refine Keeps.cutS (s0 := s0) (f := f) ?_ (fun hf => ?_) <;> first | (replace hf : ∀ s, Keeps s0 s → Keeps s0 (f s) := hf; clear_value f) | (dsimp only [f]; clear f))
    | split
    | (refine Keeps.prj (by with_reducible assumption) ?_)
    | with_reducible apply Keeps.lit

theorem dueRetire_keeps {s0 : State} {a0} {a1} {s : State} (h : Keeps s0 s) :
    Keeps s0 (dueRetire a0 a1 s) := by
  unfold dueRetire
  repeat' first
    | with_reducible assumption
    | with_reducible apply noSpare_keeps
    | with_reducible apply addDue_keeps
    | (intro _)
    | split
    | (refine Keeps.prj (by with_reducible assumption) ?_)
    | with_reducible apply Keeps.lit

theorem makeIdle_keeps {s0 : State} {a0} {s : State} (h : Keeps s0 s) :
    Keeps s0 (makeIdle a0 s).2 := by
  unfold makeIdle
  repeat' first
    | with_reducible assumption
    | with_reducible apply makeRepair_keeps
    | with_reducible apply foldl_keeps
    | with_reducible apply foldl_keeps_snd
    | (intro _)
    | (extract_lets +onlyGivenNames x; refine Keeps.cut (s0 := s0) (t := x) ?_ (fun hx => ?_) <;> first | (replace hx : Keeps s0 x := hx; clear_value x) | (dsimp only [x]; clear x))
    | (extract_lets +onlyGivenNames x; try clear_value x)
    | split
    | (refine Keeps.prj (by with_reducible assumption) ?_)
    | with_reducible apply Keeps.lit

theorem execRepair_keeps {s0 : State} {a0} {a1} {a2} {a3} {a4} {a5} {s : State} (h : Keeps s0 s) :
    KeepsX s0 (execRepair a0 a1 a2 a3 a4 a5 s) := by
  unfold execRepair
  repeat' first
    | with_reducible assumption
    | with_reducible apply KeepsX.next
    | with_reducible apply addDue_keeps
    | with_reducible apply makeIdle_keeps
    | (intro _)
    | (extract_lets +onlyGivenNames x; refine Keeps.cut (s0 := s0) (t := x) ?_ (fun hx => ?_) <;> first | (replace hx : Keeps s0 x := hx; clear_value x) | (dsimp only [x]; clear x))
    | (extract_lets +onlyGivenNames x; try clear_value x)
    | split
    | (refine Keeps.snd (by with_reducible assumption) ?_)
    | (refine Keeps.prj (by with_reducible assumption) ?_)
    | with_reducible apply Keeps.lit

theorem execRepairPending_keeps {s0 : State} {a0} {s : State} (h : Keeps s0 s) :
    KeepsX s0 (execRepairPending a0 s) := by
  unfold execRepairPending
  repeat' first
    | with_reducible assumption
    | with_reducible apply KeepsX.next
    | with_reducible apply serviceEvent_keeps
    | with_reducible apply Keeps.later
    | (intro _)
    | (extract_lets +onlyGivenNames x; refine Keeps.cut (s0 := s0) (t := x) ?_ (fun hx => ?_) <;> first | (replace hx : Keeps s0 x := hx; clear_value x) | (dsimp only [x]; clear x))
    | (extract_lets +onlyGivenNames x; try clear_value x)
    | split
    | (refine Keeps.prj (by with_reducible assumption) ?_)
    | with_reducible apply Keeps.lit

theorem execMarginSample_keeps {s0 : State} {a0} {a1} {s : State} (h : Keeps s0 s) :
    KeepsX s0 (execMarginSample a0 a1 s) := by
  unfold execMarginSample
  repeat' first
    | with_reducible assumption
    | with_reducible apply KeepsX.next
    | with_reducible apply dueRetire_keeps
    | with_reducible apply serviceEvent_keeps
    | (intro _)
    | (extract_lets +onlyGivenNames x; refine Keeps.cut (s0 := s0) (t := x) ?_ (fun hx => ?_) <;> first | (replace hx : Keeps s0 x := hx; clear_value x) | (dsimp only [x]; clear x))
    | (extract_lets +onlyGivenNames x; try clear_value x)
    | split
    | (refine Keeps.prj (by with_reducible assumption) ?_)
    | with_reducible apply Keeps.lit

theorem quiesceReply_keeps {s0 : State} {a0} {a1} {a2} {s : State} (h : Keeps s0 s) :
    Keeps s0 (quiesceReply a0 a1 a2 s) := by
  unfold quiesceReply
  repeat' first
    | with_reducible assumption
    | with_reducible apply reply_keeps
    | (intro _)
    | (refine Keeps.prj (by with_reducible assumption) ?_)
    | with_reducible apply Keeps.lit

theorem quiesceSettle_keeps {s0 : State} {s : State} (h : Keeps s0 s) :
    Keeps s0 (quiesceSettle s) := by
  unfold quiesceSettle
  repeat' first
    | with_reducible assumption
    | with_reducible apply makeIdle_keeps
    | with_reducible apply quiesceReply_keeps
    | (intro _)
    | (extract_lets +onlyGivenNames x; try clear_value x)
    | split
    | (refine Keeps.snd (by with_reducible assumption) ?_)
    | (refine Keeps.prj (by with_reducible assumption) ?_)
    | with_reducible apply Keeps.lit

theorem execRepairQuiesceRun_keeps {s0 : State} {a0} {a1} {s : State} (h : Keeps s0 s) :
    KeepsX s0 (execRepairQuiesceRun a0 a1 s) := by
  unfold execRepairQuiesceRun
  repeat' first
    | with_reducible assumption
    | with_reducible apply KeepsX.next
    | with_reducible apply reply_keeps
    | with_reducible apply makeIdle_keeps
    | with_reducible apply quiesceReply_keeps
    | with_reducible apply quiesceSettle_keeps
    | (intro _)
    | (extract_lets +onlyGivenNames x; try clear_value x)
    | split
    | (refine Keeps.snd (by with_reducible assumption) ?_)
    | (refine Keeps.prj (by with_reducible assumption) ?_)
    | with_reducible apply Keeps.lit

theorem execRepairQuiesceQuery_keeps {s0 : State} {a0} {a1} {s : State} (h : Keeps s0 s) :
    KeepsX s0 (execRepairQuiesceQuery a0 a1 s) := by
  unfold execRepairQuiesceQuery
  repeat' first
    | with_reducible assumption
    | with_reducible apply KeepsX.next
    | with_reducible apply reply_keeps
    | with_reducible apply quiesceReply_keeps
    | (intro _)
    | (extract_lets +onlyGivenNames x; try clear_value x)
    | split
    | (refine Keeps.prj (by with_reducible assumption) ?_)
    | with_reducible apply Keeps.lit

theorem execStrikeWindowExpiry_keeps {s0 : State} {a0} {s : State} (h : Keeps s0 s) :
    KeepsX s0 (execStrikeWindowExpiry a0 s) := by
  unfold execStrikeWindowExpiry
  repeat' first
    | with_reducible assumption
    | with_reducible apply KeepsX.next
    | with_reducible apply Keeps.later
    | (intro _)
    | split
    | (refine Keeps.prj (by with_reducible assumption) ?_)
    | with_reducible apply Keeps.lit

/-! ### Matrix -/

theorem swatchPick_keeps {s0 : State} {a0} {a1} {s : State} (h : Keeps s0 s) :
    Keeps s0 (swatchPick a0 a1 s) := by
  unfold swatchPick
  repeat' first
    | with_reducible assumption
    | with_reducible apply State.setCore_keeps
    | (intro _)
    | (extract_lets +onlyGivenNames x; refine Keeps.cut (s0 := s0) (t := x) ?_ (fun hx => ?_) <;> first | (replace hx : Keeps s0 x := hx; clear_value x) | (dsimp only [x]; clear x))
    | (extract_lets +onlyGivenNames x; try clear_value x)
    | split
    | (refine Keeps.prj (by with_reducible assumption) ?_)
    | with_reducible apply Keeps.lit

theorem execMloadw_keeps {s0 : State} {a0} {a1} {s : State} (h : Keeps s0 s) :
    KeepsX s0 (execMloadw a0 a1 s) := by
  unfold execMloadw
  repeat' first
    | with_reducible assumption
    | with_reducible apply KeepsX.next
    | with_reducible apply engineRow_keeps
    | with_reducible apply engineDone_keeps
    | with_reducible apply withEcc_keeps
    | with_reducible apply State.setCore_keeps
    | (intro _)
    | (extract_lets +onlyGivenNames x; try clear_value x)
    | split
    | (refine Keeps.prj (by with_reducible assumption) ?_)
    | with_reducible apply Keeps.lit

theorem execMmac_keeps {s0 : State} {a0} {a1} {s : State} (h : Keeps s0 s) :
    KeepsX s0 (execMmac a0 a1 s) := by
  unfold execMmac
  repeat' first
    | with_reducible assumption
    | with_reducible apply KeepsX.next
    | with_reducible apply engineRow_keeps
    | with_reducible apply engineDone_keeps
    | with_reducible apply withEcc_keeps
    | with_reducible apply swatchPick_keeps
    | with_reducible apply State.setCore_keeps
    | with_reducible apply foldl_keeps
    | with_reducible apply foldl_keeps_snd
    | (intro _)
    | (extract_lets +onlyGivenNames x; refine Keeps.cut (s0 := s0) (t := x) ?_ (fun hx => ?_) <;> first | (replace hx : Keeps s0 x := hx; clear_value x) | (dsimp only [x]; clear x))
    | (extract_lets +onlyGivenNames x; try clear_value x)
    | split
    | (refine Keeps.prj (by with_reducible assumption) ?_)
    | with_reducible apply Keeps.lit

theorem swatchCount_keeps {s0 : State} {a0} {a1} {s : State} (h : Keeps s0 s) :
    Keeps s0 (swatchCount a0 a1 s) := by
  unfold swatchCount
  repeat' first
    | with_reducible assumption
    | with_reducible apply State.setCore_keeps
    | (intro _)
    | (extract_lets +onlyGivenNames x; refine Keeps.cut (s0 := s0) (t := x) ?_ (fun hx => ?_) <;> first | (replace hx : Keeps s0 x := hx; clear_value x) | (dsimp only [x]; clear x))
    | (extract_lets +onlyGivenNames x; try clear_value x)
    | split
    | (refine Keeps.prj (by with_reducible assumption) ?_)
    | with_reducible apply Keeps.lit

theorem swatchMismatch_keeps {s0 : State} {a0} {a1} {a2} {a3} {s : State} (h : Keeps s0 s) :
    Keeps s0 (swatchMismatch a0 a1 a2 a3 s) := by
  unfold swatchMismatch
  repeat' first
    | with_reducible assumption
    | with_reducible apply engineFault_keeps
    | with_reducible apply addRecord_keeps
    | with_reducible apply dueRetire_keeps
    | (intro _)
    | (extract_lets +onlyGivenNames x; refine Keeps.cut (s0 := s0) (t := x) ?_ (fun hx => ?_) <;> first | (replace hx : Keeps s0 x := hx; clear_value x) | (dsimp only [x]; clear x))
    | split
    | (refine Keeps.prj (by with_reducible assumption) ?_)
    | with_reducible apply Keeps.lit

theorem execSwatchCheck_keeps {s0 : State} {a0} {a1} {s : State} (h : Keeps s0 s) :
    KeepsX s0 (execSwatchCheck a0 a1 s) := by
  unfold execSwatchCheck
  repeat' first
    | with_reducible assumption
    | with_reducible apply KeepsX.next
    | with_reducible apply swatchCount_keeps
    | with_reducible apply swatchMismatch_keeps
    | (intro _)
    | (extract_lets +onlyGivenNames x; refine Keeps.cut (s0 := s0) (t := x) ?_ (fun hx => ?_) <;> first | (replace hx : Keeps s0 x := hx; clear_value x) | (dsimp only [x]; clear x))
    | (extract_lets +onlyGivenNames x; try clear_value x)
    | split
    | (refine Keeps.prj (by with_reducible assumption) ?_)
    | with_reducible apply Keeps.lit

/-! ### Dma -/

theorem setCarry_keeps {s0 : State} {a0} {a1} {s : State} (h : Keeps s0 s) :
    Keeps s0 (setCarry a0 a1 s) := by
  unfold setCarry
  repeat' first
    | with_reducible assumption
    | with_reducible apply State.setCore_keeps
    | (intro _)
    | (extract_lets +onlyGivenNames x; try clear_value x)
    | split
    | (refine Keeps.prj (by with_reducible assumption) ?_)
    | with_reducible apply Keeps.lit

theorem dmaRead_keeps {s0 : State} {a0} {a1} {a2} {a3} {a4} {s : State} (h : Keeps s0 s) :
    Keeps s0 (dmaRead a0 a1 a2 a3 a4 s).2.2 := by
  unfold dmaRead
  repeat' first
    | with_reducible assumption
    | with_reducible apply readRange_keeps
    | (intro _)
    | (extract_lets +onlyGivenNames x; try clear_value x)
    | split
    | (refine Keeps.snd (by with_reducible assumption) ?_)
    | (refine Keeps.prj (by with_reducible assumption) ?_)
    | with_reducible apply Keeps.lit

theorem dmaWrite_keeps {s0 : State} {a0} {a1} {a2} {a3} {a4} {a5} {s : State} (h : Keeps s0 s) :
    Keeps s0 (dmaWrite a0 a1 a2 a3 a4 a5 s).2 := by
  unfold dmaWrite
  repeat' first
    | with_reducible assumption
    | with_reducible apply State.setCore_keeps
    | with_reducible apply seen_keeps
    | with_reducible apply writePiece_keeps
    | with_reducible apply postWrite_keeps
    | (intro _)
    | (extract_lets +onlyGivenNames x; refine Keeps.cut (s0 := s0) (t := x) ?_ (fun hx => ?_) <;> first | (replace hx : Keeps s0 x := hx; clear_value x) | (dsimp only [x]; clear x))
    | (extract_lets +onlyGivenNames x; refine Keeps.cut (s0 := s0) (t := x.2) ?_ (fun hx => ?_) <;> first | (replace hx : Keeps s0 x.2 := hx; clear_value x) | (dsimp only [x]; clear x))
    | (extract_lets +onlyGivenNames x; try clear_value x)
    | split
    | (refine Keeps.snd (by with_reducible assumption) ?_)
    | (refine Keeps.prj (by with_reducible assumption) ?_)
    | with_reducible apply Keeps.lit

theorem dmaRun_keeps {s0 : State} {a0} {a1} {a2} {a3} {a4} {a5} {s : State} (h : Keeps s0 s) :
    Keeps s0 (dmaRun a0 a1 a2 a3 a4 a5 s).2 := by
  revert h
  fun_induction dmaRun a0 a1 a2 a3 a4 a5 s
  all_goals intro h
  all_goals repeat' first
    | with_reducible assumption
    | with_reducible apply dmaRead_keeps
    | with_reducible apply dmaWrite_keeps
    | with_reducible apply State.bump_keeps
    | with_reducible apply putBack_keeps
    | with_reducible apply setCarry_keeps
    | (refine (show Keeps s0 _ → _ by with_reducible assumption) ?_)
    | (intro _)
    | split
    | (refine Keeps.snd (by with_reducible assumption) ?_)
    | (refine Keeps.snd2 (by with_reducible assumption) ?_)
    | (refine Keeps.prj (by with_reducible assumption) ?_)
    | with_reducible apply Keeps.lit

theorem dmaRow_keeps {s0 : State} {a0} {a1} {a2} {a3} {s : State} (h : Keeps s0 s) :
    Keeps s0 (dmaRow a0 a1 a2 a3 s) := by
  unfold dmaRow
  repeat' first
    | with_reducible assumption
    | with_reducible apply engineRow_keeps
    | with_reducible apply engineDone_keeps
    | with_reducible apply engineFault_keeps
    | with_reducible apply withEcc_keeps
    | with_reducible apply dmaRun_keeps
    | with_reducible apply State.setCore_keeps
    | (intro _)
    | (extract_lets +onlyGivenNames x; refine Keeps.cut (s0 := s0) (t := x) ?_ (fun hx => ?_) <;> first | (replace hx : Keeps s0 x := hx; clear_value x) | (dsimp only [x]; clear x))
    | (extract_lets +onlyGivenNames x; try clear_value x)
    | split
    | (refine Keeps.snd (by with_reducible assumption) ?_)
    | (refine Keeps.prj (by with_reducible assumption) ?_)
    | with_reducible apply Keeps.lit

theorem execCopy_keeps {s0 : State} {a0} {a1} {a2} {s : State} (h : Keeps s0 s) :
    KeepsX s0 (execCopy a0 a1 a2 s) := by
  unfold execCopy
  repeat' first
    | with_reducible assumption
    | with_reducible apply KeepsX.next
    | with_reducible apply dmaRow_keeps
    | (intro _)
    | (refine Keeps.prj (by with_reducible assumption) ?_)
    | with_reducible apply Keeps.lit

theorem execCopyFill_keeps {s0 : State} {a0} {a1} {a2} {s : State} (h : Keeps s0 s) :
    KeepsX s0 (execCopyFill a0 a1 a2 s) := by
  unfold execCopyFill
  repeat' first
    | with_reducible assumption
    | with_reducible apply KeepsX.next
    | with_reducible apply dmaRow_keeps
    | (intro _)
    | (refine Keeps.prj (by with_reducible assumption) ?_)
    | with_reducible apply Keeps.lit

theorem execWriteRefusal_keeps {s0 : State} {a0} {a1} {a2} {a3} {s : State} (h : Keeps s0 s) :
    KeepsX s0 (execWriteRefusal a0 a1 a2 a3 s) := by
  unfold execWriteRefusal
  repeat' first
    | with_reducible assumption
    | with_reducible apply KeepsX.next
    | with_reducible apply settleLaunches_keeps
    | with_reducible apply postedFail_keeps
    | with_reducible apply postedDrop_keeps
    | with_reducible apply engineFault_keeps
    | (intro _)
    | (extract_lets +onlyGivenNames x; try clear_value x)
    | split
    | (refine Keeps.prj (by with_reducible assumption) ?_)
    | with_reducible apply Keeps.lit

/-! ### Quant -/

theorem censusPut_keeps {s0 : State} {a0} {a1} {s : State} (h : Keeps s0 s) :
    Keeps s0 (censusPut a0 a1 s) := by
  unfold censusPut
  repeat' first
    | with_reducible assumption
    | with_reducible apply ctxWrite_keeps
    | with_reducible apply vaFault_keeps
    | (intro _)
    | (extract_lets +onlyGivenNames x; try clear_value x)
    | split
    | (refine Keeps.snd (by with_reducible assumption) ?_)
    | (refine Keeps.prj (by with_reducible assumption) ?_)
    | with_reducible apply Keeps.lit

theorem quantTile_keeps {s0 : State} {a0} {a1} {a2} {a3} {a4} {a5} {s : State} (h : Keeps s0 s) :
    Keeps s0 (quantTile a0 a1 a2 a3 a4 a5 s) := by
  unfold quantTile
  repeat' first
    | with_reducible assumption
    | with_reducible apply censusPut_keeps
    | with_reducible apply State.setCore_keeps
    | (intro _)
    | (extract_lets +onlyGivenNames x; try clear_value x)
    | split
    | (refine Keeps.prj (by with_reducible assumption) ?_)
    | with_reducible apply Keeps.lit

theorem execVquant_keeps {s0 : State} {a0} {a1} {s : State} (h : Keeps s0 s) :
    KeepsX s0 (execVquant a0 a1 s) := by
  unfold execVquant
  repeat' first
    | with_reducible assumption
    | with_reducible apply KeepsX.next
    | with_reducible apply engineRow_keeps
    | with_reducible apply engineFault_keeps
    | with_reducible apply engineDone_keeps
    | with_reducible apply withEcc_keeps
    | with_reducible apply foldS_keeps
    | with_reducible apply quantTile_keeps
    | (intro _)
    | (extract_lets +onlyGivenNames x; refine Keeps.cut (s0 := s0) (t := x) ?_ (fun hx => ?_) <;> first | (replace hx : Keeps s0 x := hx; clear_value x) | (dsimp only [x]; clear x))
    | (extract_lets +onlyGivenNames x; try clear_value x)
    | split
    | (refine Keeps.prj (by with_reducible assumption) ?_)
    | with_reducible apply Keeps.lit

theorem deqRun_keeps {s0 : State} {a0} {a1} {a2} {a3} {a4} {s : State} (h : Keeps s0 s) :
    Keeps s0 (deqRun a0 a1 a2 a3 a4 s) := by
  revert h
  fun_induction deqRun a0 a1 a2 a3 a4 s
  all_goals intro h
  all_goals repeat' first
    | with_reducible assumption
    | with_reducible apply engineDone_keeps
    | with_reducible apply engineFault_keeps
    | with_reducible apply State.setCore_keeps
    | (refine (show Keeps s0 _ → _ by with_reducible assumption) ?_)
    | (intro _)
    | split
    | (refine Keeps.prj (by with_reducible assumption) ?_)
    | with_reducible apply Keeps.lit

theorem execVdeq_keeps {s0 : State} {a0} {a1} {s : State} (h : Keeps s0 s) :
    KeepsX s0 (execVdeq a0 a1 s) := by
  unfold execVdeq
  repeat' first
    | with_reducible assumption
    | with_reducible apply KeepsX.next
    | with_reducible apply engineRow_keeps
    | with_reducible apply engineDone_keeps
    | with_reducible apply withEcc_keeps
    | with_reducible apply deqRun_keeps
    | (intro _)
    | (extract_lets +onlyGivenNames x; try clear_value x)
    | split
    | (refine Keeps.prj (by with_reducible assumption) ?_)
    | with_reducible apply Keeps.lit

end Sys2Proof.Machine
end

