-- ==== Sys2Proof/Laws/KeepsSites.lean ====
section
/-!
SUPPORT. Keeps for partitions, partner sites and Sloyth.
-/
set_option linter.all false

namespace Sys2Proof.Machine

/-! ### Partitions -/

theorem execPartitionReset_keeps {s0 : State} {a0} {s : State} (h : Keeps s0 s) :
    KeepsX s0 (execPartitionReset a0 s) := by
  unfold execPartitionReset
  repeat' first
    | with_reducible assumption
    | with_reducible apply KeepsX.next
    | with_reducible apply reply_keeps
    | with_reducible apply partResetStart_keeps
    | (intro _)
    | split
    | (refine Keeps.prj (by with_reducible assumption) ?_)
    | with_reducible apply Keeps.lit

theorem actLayout_keeps {s0 : State} {a0} {a1} {a2} {a3} {a4} {s : State} (h : Keeps s0 s) :
    Keeps s0 (actLayout a0 a1 a2 a3 a4 s).2 := by
  unfold actLayout
  repeat' first
    | with_reducible assumption
    | with_reducible apply State.setPart_keeps
    | (intro _)
    | (extract_lets +onlyGivenNames x; try clear_value x)
    | split
    | (refine Keeps.prj (by with_reducible assumption) ?_)
    | with_reducible apply Keeps.lit

theorem actLayoutDirect_keeps {s0 : State} {a0} {a1} {a2} {a3} {a4} {s : State} (h : Keeps s0 s) :
    Keeps s0 (actLayoutDirect a0 a1 a2 a3 a4 s).2 := by
  unfold actLayoutDirect
  repeat' first
    | with_reducible assumption
    | with_reducible apply actLayout_keeps
    | (intro _)
    | split
    | (refine Keeps.snd (by with_reducible assumption) ?_)
    | (refine Keeps.prj (by with_reducible assumption) ?_)
    | with_reducible apply Keeps.lit

theorem execPartitionLayout_keeps {s0 : State} {a0} {a1} {a2} {a3} {a4} {s : State} (h : Keeps s0 s) :
    KeepsX s0 (execPartitionLayout a0 a1 a2 a3 a4 s) := by
  unfold execPartitionLayout
  repeat' first
    | with_reducible assumption
    | with_reducible apply KeepsX.next
    | with_reducible apply stagePacket_keeps
    | with_reducible apply actLayoutDirect_keeps
    | with_reducible apply noPrep_keeps
    | (intro _)
    | (refine Keeps.snd (by with_reducible assumption) ?_)
    | (refine Keeps.prj (by with_reducible assumption) ?_)
    | with_reducible apply Keeps.lit

theorem takeCtxs_keeps {s0 : State} {a0} {a1} {a2} {a3} {s : State} (h : Keeps s0 s) :
    Keeps s0 (takeCtxs a0 a1 a2 a3 s).2 := by
  revert h
  fun_induction takeCtxs a0 a1 a2 a3 s
  all_goals intro h
  all_goals repeat' first
    | with_reducible assumption
    | with_reducible apply State.setCtx_keeps
    | (refine (show Keeps s0 _ → _ by with_reducible assumption) ?_)
    | (intro _)
    | split
    | (refine Keeps.snd (by with_reducible assumption) ?_)
    | (refine Keeps.prj (by with_reducible assumption) ?_)
    | with_reducible apply Keeps.lit

theorem actInstCreate_keeps {s0 : State} {a0} {a1} {a2} {a3} {s : State} (h : Keeps s0 s) :
    Keeps s0 (actInstCreate a0 a1 a2 a3 s).2 := by
  unfold actInstCreate
  repeat' first
    | with_reducible assumption
    | with_reducible apply takeCtxs_keeps
    | (intro _)
    | split
    | (refine Keeps.snd (by with_reducible assumption) ?_)
    | (refine Keeps.prj (by with_reducible assumption) ?_)
    | with_reducible apply Keeps.lit

theorem execInstanceCreate_keeps {s0 : State} {a0} {a1} {a2} {s : State} (h : Keeps s0 s) :
    KeepsX s0 (execInstanceCreate a0 a1 a2 s) := by
  unfold execInstanceCreate
  repeat' first
    | with_reducible assumption
    | with_reducible apply KeepsX.next
    | with_reducible apply stagePacket_keeps
    | with_reducible apply actInstCreate_keeps
    | with_reducible apply noPrep_keeps
    | (intro _)
    | (extract_lets +onlyGivenNames x; try clear_value x)
    | split
    | (refine Keeps.snd (by with_reducible assumption) ?_)
    | (refine Keeps.prj (by with_reducible assumption) ?_)
    | with_reducible apply Keeps.lit

theorem actInstDestroy_keeps {s0 : State} {a0} {a1} {s : State} (h : Keeps s0 s) :
    Keeps s0 (actInstDestroy a0 a1 s).2 := by
  unfold actInstDestroy
  repeat' first
    | with_reducible assumption
    | with_reducible apply foldS_keeps
    | with_reducible apply State.setCtx_keeps
    | (intro _)
    | split
    | (refine Keeps.prj (by with_reducible assumption) ?_)
    | with_reducible apply Keeps.lit

theorem execInstanceDestroy_keeps {s0 : State} {a0} {a1} {s : State} (h : Keeps s0 s) :
    KeepsX s0 (execInstanceDestroy a0 a1 s) := by
  unfold execInstanceDestroy
  repeat' first
    | with_reducible assumption
    | with_reducible apply KeepsX.next
    | with_reducible apply stagePacket_keeps
    | with_reducible apply actInstDestroy_keeps
    | with_reducible apply noPrep_keeps
    | (intro _)
    | (refine Keeps.snd (by with_reducible assumption) ?_)
    | (refine Keeps.prj (by with_reducible assumption) ?_)
    | with_reducible apply Keeps.lit

theorem execInstanceFreeze_keeps {s0 : State} {a0} {a1} {a2} {s : State} (h : Keeps s0 s) :
    KeepsX s0 (execInstanceFreeze a0 a1 a2 s) := by
  unfold execInstanceFreeze
  repeat' first
    | with_reducible assumption
    | with_reducible apply KeepsX.next
    | with_reducible apply reply_keeps
    | with_reducible apply State.touch_keeps
    | (intro _)
    | (extract_lets +onlyGivenNames x; refine Keeps.cut (s0 := s0) (t := x) ?_ (fun hx => ?_) <;> first | (replace hx : Keeps s0 x := hx; clear_value x) | (dsimp only [x]; clear x))
    | (extract_lets +onlyGivenNames x; try clear_value x)
    | split
    | (refine Keeps.prj (by with_reducible assumption) ?_)
    | with_reducible apply Keeps.lit

theorem execInstanceThaw_keeps {s0 : State} {a0} {a1} {a2} {s : State} (h : Keeps s0 s) :
    KeepsX s0 (execInstanceThaw a0 a1 a2 s) := by
  unfold execInstanceThaw
  repeat' first
    | with_reducible assumption
    | with_reducible apply KeepsX.next
    | with_reducible apply directPacket_keeps
    | with_reducible apply State.touch_keeps
    | (intro _)
    | (extract_lets +onlyGivenNames x; try clear_value x)
    | split
    | (refine Keeps.prj (by with_reducible assumption) ?_)
    | with_reducible apply Keeps.lit

theorem unfetch_keeps {s0 : State} {a0} {s : State} (h : Keeps s0 s) :
    Keeps s0 (unfetch a0 s) := by
  unfold unfetch
  repeat' first
    | with_reducible assumption
    | with_reducible apply State.setQueue_keeps
    | (intro _)
    | split
    | (refine Keeps.prj (by with_reducible assumption) ?_)
    | with_reducible apply Keeps.lit

theorem execInstanceFrozen_keeps {s0 : State} {a0} {s : State} (h : Keeps s0 s) :
    KeepsX s0 (execInstanceFrozen a0 s) := by
  unfold execInstanceFrozen
  repeat' first
    | with_reducible assumption
    | with_reducible apply KeepsX.next
    | with_reducible apply foldS_keeps
    | with_reducible apply unfetch_keeps
    | with_reducible apply reply_keeps
    | with_reducible apply State.touch_keeps
    | (intro _)
    | (extract_lets +onlyGivenNames x; refine Keeps.cut (s0 := s0) (t := x) ?_ (fun hx => ?_) <;> first | (replace hx : Keeps s0 x := hx; clear_value x) | (dsimp only [x]; clear x))
    | (extract_lets +onlyGivenNames x; try clear_value x)
    | split
    | (refine Keeps.prj (by with_reducible assumption) ?_)
    | with_reducible apply Keeps.lit

theorem execInstanceFreezeTimeout_keeps {s0 : State} {a0} {a1} {s : State} (h : Keeps s0 s) :
    KeepsX s0 (execInstanceFreezeTimeout a0 a1 s) := by
  unfold execInstanceFreezeTimeout
  repeat' first
    | with_reducible assumption
    | with_reducible apply KeepsX.next
    | with_reducible apply reply_keeps
    | (intro _)
    | (extract_lets +onlyGivenNames x; try clear_value x)
    | split
    | (refine Keeps.prj (by with_reducible assumption) ?_)
    | with_reducible apply Keeps.lit

theorem actInstSave_keeps {s0 : State} {a0} {a1} {a2} {a3} {s : State} (h : Keeps s0 s) :
    Keeps s0 (actInstSave a0 a1 a2 a3 s).2 := by
  unfold actInstSave
  repeat' first
    | with_reducible assumption
    | with_reducible apply emit_keeps
    | (intro _)
    | (extract_lets +onlyGivenNames x; try clear_value x)
    | split
    | (refine Keeps.prj (by with_reducible assumption) ?_)
    | with_reducible apply Keeps.lit

theorem execInstanceSave_keeps {s0 : State} {a0} {a1} {a2} {a3} {s : State} (h : Keeps s0 s) :
    KeepsX s0 (execInstanceSave a0 a1 a2 a3 s) := by
  unfold execInstanceSave
  repeat' first
    | with_reducible assumption
    | with_reducible apply KeepsX.next
    | with_reducible apply directPacket_keeps
    | with_reducible apply actInstSave_keeps
    | (intro _)
    | (refine Keeps.snd (by with_reducible assumption) ?_)
    | (refine Keeps.prj (by with_reducible assumption) ?_)
    | with_reducible apply Keeps.lit

theorem restoreCtx_keeps {s0 : State} {a0} {a1} {a2} {a3} {s : State} (h : Keeps s0 s) :
    KeepsV s0 (restoreCtx a0 a1 a2 a3 s) := by
  unfold restoreCtx
  repeat' first
    | with_reducible assumption
    | with_reducible apply KeepsV.ok
    | exact KeepsV.error
    | with_reducible apply actCtxCreate_keeps
    | with_reducible apply State.setCtx_keeps
    | (intro _)
    | (extract_lets +onlyGivenNames x; try clear_value x)
    | split
    | (refine Keeps.snd (by with_reducible assumption) ?_)
    | (refine Keeps.prj (by with_reducible assumption) ?_)
    | with_reducible apply Keeps.lit

theorem restoreSeg_keeps {s0 : State} {a0} {a1} {a2} {s : State} (h : Keeps s0 s) :
    KeepsV s0 (restoreSeg a0 a1 a2 s) := by
  unfold restoreSeg
  repeat' first
    | with_reducible assumption
    | with_reducible apply KeepsV.ok
    | exact KeepsV.error
    | with_reducible apply State.setCtx_keeps
    | with_reducible apply alloc_keeps
    | (intro _)
    | (extract_lets +onlyGivenNames x; try clear_value x)
    | split
    | (refine Keeps.opt (by with_reducible assumption) ?_)
    | (refine Keeps.prj (by with_reducible assumption) ?_)
    | with_reducible apply Keeps.lit

theorem restoreFrame_keeps {s0 : State} {a0} {a1} {a2} {a3} {s : State} (h : Keeps s0 s) :
    KeepsV s0 (restoreFrame a0 a1 a2 a3 s) := by
  unfold restoreFrame
  repeat' first
    | with_reducible assumption
    | with_reducible apply KeepsV.ok
    | exact KeepsV.error
    | with_reducible apply mapCount_keeps
    | with_reducible apply State.setCtx_keeps
    | (intro _)
    | (extract_lets +onlyGivenNames x; try clear_value x)
    | split
    | (refine Keeps.prj (by with_reducible assumption) ?_)
    | with_reducible apply Keeps.lit

theorem restoreQueue_keeps {s0 : State} {a0} {a1} {a2} {s : State} (h : Keeps s0 s) :
    KeepsV s0 (restoreQueue a0 a1 a2 s) := by
  unfold restoreQueue
  repeat' first
    | with_reducible assumption
    | with_reducible apply KeepsV.ok
    | exact KeepsV.error
    | with_reducible apply alloc_keeps
    | with_reducible apply ctxRef_keeps
    | with_reducible apply State.setQueue_keeps
    | with_reducible apply segRef_keeps
    | with_reducible apply State.touch_keeps
    | (intro _)
    | (extract_lets +onlyGivenNames x; refine Keeps.cut (s0 := s0) (t := x) ?_ (fun hx => ?_) <;> first | (replace hx : Keeps s0 x := hx; clear_value x) | (dsimp only [x]; clear x))
    | (extract_lets +onlyGivenNames x; try clear_value x)
    | split
    | (refine Keeps.opt (by with_reducible assumption) ?_)
    | (refine Keeps.prj (by with_reducible assumption) ?_)
    | with_reducible apply Keeps.lit

theorem restoreFence_keeps {s0 : State} {a0} {a1} {a2} {s : State} (h : Keeps s0 s) :
    KeepsV s0 (restoreFence a0 a1 a2 s) := by
  unfold restoreFence
  repeat' first
    | with_reducible assumption
    | with_reducible apply KeepsV.ok
    | exact KeepsV.error
    | with_reducible apply takeBlock_keeps
    | with_reducible apply ctxRef_keeps
    | with_reducible apply State.setFence_keeps
    | with_reducible apply segRef_keeps
    | with_reducible apply State.touch_keeps
    | (intro _)
    | (extract_lets +onlyGivenNames x; refine Keeps.cut (s0 := s0) (t := x) ?_ (fun hx => ?_) <;> first | (replace hx : Keeps s0 x := hx; clear_value x) | (dsimp only [x]; clear x))
    | (extract_lets +onlyGivenNames x; try clear_value x)
    | split
    | (refine Keeps.optN (by with_reducible assumption) ?_)
    | (refine Keeps.prj (by with_reducible assumption) ?_)
    | with_reducible apply Keeps.lit

theorem restoreRecs_keeps {s0 : State} {a0} {a1} {a2} {a3} {a4} {s : State} (h : Keeps s0 s) :
    KeepsV s0 (restoreRecs a0 a1 a2 a3 a4 s) := by
  revert h
  fun_induction restoreRecs a0 a1 a2 a3 a4 s
  all_goals intro h
  all_goals repeat' first
    | with_reducible assumption
    | with_reducible apply KeepsV.ok
    | exact KeepsV.error
    | with_reducible apply restoreCtx_keeps
    | with_reducible apply restoreSeg_keeps
    | with_reducible apply restoreFrame_keeps
    | with_reducible apply restoreQueue_keeps
    | with_reducible apply restoreFence_keeps
    | (refine (show Keeps s0 _ → _ by with_reducible assumption) ?_)
    | (intro _)
    | split
    | (refine Keeps.val (by with_reducible assumption) ?_)
    | (refine Keeps.prj (by with_reducible assumption) ?_)
    | with_reducible apply Keeps.lit

theorem actInstRestore_keeps {s0 : State} {a0} {a1} {a2} {a3} {s : State} (h : Keeps s0 s) :
    Keeps s0 (actInstRestore a0 a1 a2 a3 s).2 := by
  unfold actInstRestore
  repeat' first
    | with_reducible assumption
    | with_reducible apply restoreRecs_keeps
    | with_reducible apply foldS_keeps
    | with_reducible apply emit_keeps
    | with_reducible apply State.touch_keeps
    | (intro _)
    | (extract_lets +onlyGivenNames x; refine Keeps.cut (s0 := s0) (t := x) ?_ (fun hx => ?_) <;> first | (replace hx : Keeps s0 x := hx; clear_value x) | (dsimp only [x]; clear x))
    | (extract_lets +onlyGivenNames x; try clear_value x)
    | split
    | (refine Keeps.val (by with_reducible assumption) ?_)
    | (refine Keeps.prj (by with_reducible assumption) ?_)
    | with_reducible apply Keeps.lit

theorem execInstanceRestore_keeps {s0 : State} {a0} {a1} {a2} {a3} {a4} {a5} {a6} {s : State} (h : Keeps s0 s) :
    KeepsX s0 (execInstanceRestore a0 a1 a2 a3 a4 a5 a6 s) := by
  unfold execInstanceRestore
  repeat' first
    | with_reducible assumption
    | with_reducible apply KeepsX.next
    | with_reducible apply directPacket_keeps
    | with_reducible apply actInstRestore_keeps
    | (intro _)
    | (extract_lets +onlyGivenNames x; try clear_value x)
    | (refine Keeps.snd (by with_reducible assumption) ?_)
    | (refine Keeps.prj (by with_reducible assumption) ?_)
    | with_reducible apply Keeps.lit

/-! ### SiteOps -/

theorem siteEvent_keeps {s0 : State} {a0} {a1} {a2} {s : State} (h : Keeps s0 s) :
    Keeps s0 (siteEvent a0 a1 a2 s) := by
  unfold siteEvent
  repeat' first
    | with_reducible assumption
    | with_reducible apply hubEvent_keeps
    | (intro _)
    | (refine Keeps.prj (by with_reducible assumption) ?_)
    | with_reducible apply Keeps.lit

theorem recallFrom_keeps {s0 : State} {a0} {a1} {s : State} (h : Keeps s0 s) :
    Keeps s0 (recallFrom a0 a1 s) := by
  unfold recallFrom
  repeat' first
    | with_reducible assumption
    | with_reducible apply foldS_keeps
    | with_reducible apply homeBegin_keeps
    | (intro _)
    | (extract_lets +onlyGivenNames x; try clear_value x)
    | (refine Keeps.prj (by with_reducible assumption) ?_)
    | with_reducible apply Keeps.lit

theorem recallGo_keeps {s0 : State} {a0} {s : State} (h : Keeps s0 s) :
    Keeps s0 (recallGo a0 s) := by
  unfold recallGo
  repeat' first
    | with_reducible assumption
    | with_reducible apply State.setSite_keeps
    | with_reducible apply foldS_keeps
    | with_reducible apply homeBegin_keeps
    | (intro _)
    | (extract_lets +onlyGivenNames x; refine Keeps.cut (s0 := s0) (t := x) ?_ (fun hx => ?_) <;> first | (replace hx : Keeps s0 x := hx; clear_value x) | (dsimp only [x]; clear x))
    | (extract_lets +onlyGivenNames x; try clear_value x)
    | (refine Keeps.prj (by with_reducible assumption) ?_)
    | with_reducible apply Keeps.lit

theorem recallStart_keeps {s0 : State} {a0} {s : State} (h : Keeps s0 s) :
    Keeps s0 (recallStart a0 s) := by
  unfold recallStart
  repeat' first
    | with_reducible assumption
    | with_reducible apply recallGo_keeps
    | with_reducible apply State.setSite_keeps
    | (intro _)
    | (extract_lets +onlyGivenNames x; try clear_value x)
    | (refine Keeps.prj (by with_reducible assumption) ?_)
    | with_reducible apply Keeps.lit

theorem recallOwned_keeps {s0 : State} {s : State} (h : Keeps s0 s) :
    Keeps s0 (recallOwned s) := by
  unfold recallOwned
  repeat' first
    | with_reducible assumption
    | with_reducible apply foldS_keeps
    | with_reducible apply recallFrom_keeps
    | (intro _)
    | (refine Keeps.prj (by with_reducible assumption) ?_)
    | with_reducible apply Keeps.lit

theorem failAps_keeps {s0 : State} {a0} {s : State} (h : Keeps s0 s) :
    Keeps s0 (failAps a0 s) := by
  unfold failAps
  repeat' first
    | with_reducible assumption
    | with_reducible apply State.setSite_keeps
    | with_reducible apply apDone_keeps
    | with_reducible apply foldl_keeps
    | with_reducible apply foldl_keeps_snd
    | (intro _)
    | (extract_lets +onlyGivenNames x; refine Keeps.cut (s0 := s0) (t := x) ?_ (fun hx => ?_) <;> first | (replace hx : Keeps s0 x := hx; clear_value x) | (dsimp only [x]; clear x))
    | (extract_lets +onlyGivenNames x; try clear_value x)
    | (refine Keeps.prj (by with_reducible assumption) ?_)
    | with_reducible apply Keeps.lit

theorem siteFail_keeps {s0 : State} {a0} {a1} {s : State} (h : Keeps s0 s) :
    Keeps s0 (siteFail a0 a1 s) := by
  unfold siteFail
  repeat' first
    | with_reducible assumption
    | with_reducible apply failAps_keeps
    | with_reducible apply State.setSite_keeps
    | with_reducible apply siteEvent_keeps
    | with_reducible apply emit_keeps
    | (intro _)
    | (extract_lets +onlyGivenNames x; refine Keeps.cut (s0 := s0) (t := x) ?_ (fun hx => ?_) <;> first | (replace hx : Keeps s0 x := hx; clear_value x) | (dsimp only [x]; clear x))
    | (extract_lets +onlyGivenNames x; try clear_value x)
    | (refine Keeps.prj (by with_reducible assumption) ?_)
    | with_reducible apply Keeps.lit

theorem siteBegin_keeps {s0 : State} {a0} {s : State} (h : Keeps s0 s) :
    Keeps s0 (siteBegin a0 s).2 := by
  unfold siteBegin
  repeat' first
    | with_reducible assumption
    | with_reducible apply State.setSite_keeps
    | with_reducible apply siteFail_keeps
    | with_reducible apply emit_keeps
    | (intro _)
    | (extract_lets +onlyGivenNames x; refine Keeps.cut (s0 := s0) (t := x) ?_ (fun hx => ?_) <;> first | (replace hx : Keeps s0 x := hx; clear_value x) | (dsimp only [x]; clear x))
    | (extract_lets +onlyGivenNames x; try clear_value x)
    | split
    | (refine Keeps.prj (by with_reducible assumption) ?_)
    | with_reducible apply Keeps.lit

theorem siteBar_keeps {s0 : State} {a0} {s : State} (h : Keeps s0 s) :
    Keeps s0 (siteBar a0 s) := by
  unfold siteBar
  repeat' first
    | with_reducible assumption
    | with_reducible apply emit_keeps
    | with_reducible apply State.setSite_keeps
    | (intro _)
    | (extract_lets +onlyGivenNames x; try clear_value x)
    | (refine Keeps.prj (by with_reducible assumption) ?_)
    | with_reducible apply Keeps.lit

theorem admitFrom_keeps {s0 : State} {a0} {a1} {s : State} (h : Keeps s0 s) :
    Keeps s0 (admitFrom a0 a1 s) := by
  revert h
  fun_induction admitFrom a0 a1 s
  all_goals intro h
  all_goals repeat' first
    | with_reducible assumption
    | with_reducible apply siteBar_keeps
    | with_reducible apply siteBegin_keeps
    | (refine (show Keeps s0 _ → _ by with_reducible assumption) ?_)
    | (intro _)
    | split
    | (refine Keeps.snd (by with_reducible assumption) ?_)
    | (refine Keeps.prj (by with_reducible assumption) ?_)
    | with_reducible apply Keeps.lit

theorem siteEnded_keeps {s0 : State} {a0} {s : State} (h : Keeps s0 s) :
    Keeps s0 (siteEnded a0 s) := by
  unfold siteEnded
  repeat' first
    | with_reducible assumption
    | with_reducible apply foldS_keeps
    | with_reducible apply reply_keeps
    | with_reducible apply State.setSite_keeps
    | with_reducible apply admitFrom_keeps
    | (intro _)
    | (extract_lets +onlyGivenNames x; refine Keeps.cut (s0 := s0) (t := x) ?_ (fun hx => ?_) <;> first | (replace hx : Keeps s0 x := hx; clear_value x) | (dsimp only [x]; clear x))
    | (extract_lets +onlyGivenNames x; try clear_value x)
    | split
    | (refine Keeps.prj (by with_reducible assumption) ?_)
    | with_reducible apply Keeps.lit

theorem siteAgain_keeps {s0 : State} {a0} {s : State} (h : Keeps s0 s) :
    Keeps s0 (siteAgain a0 s) := by
  unfold siteAgain
  repeat' first
    | with_reducible assumption
    | with_reducible apply State.setSite_keeps
    | with_reducible apply siteBegin_keeps
    | with_reducible apply siteEnded_keeps
    | (intro _)
    | (extract_lets +onlyGivenNames x; try clear_value x)
    | split
    | (refine Keeps.snd (by with_reducible assumption) ?_)
    | (refine Keeps.prj (by with_reducible assumption) ?_)
    | with_reducible apply Keeps.lit

theorem siteStep3_keeps {s0 : State} {a0} {a1} {s : State} (h : Keeps s0 s) :
    Keeps s0 (siteStep3 a0 a1 s) := by
  unfold siteStep3
  repeat' first
    | with_reducible assumption
    | with_reducible apply emit_keeps
    | with_reducible apply State.setSite_keeps
    | with_reducible apply siteEvent_keeps
    | with_reducible apply siteEnded_keeps
    | with_reducible apply siteBar_keeps
    | with_reducible apply siteAgain_keeps
    | (intro _)
    | (extract_lets +onlyGivenNames x; refine Keeps.cut (s0 := s0) (t := x) ?_ (fun hx => ?_) <;> first | (replace hx : Keeps s0 x := hx; clear_value x) | (dsimp only [x]; clear x))
    | (extract_lets +onlyGivenNames x; try clear_value x)
    | split
    | (refine Keeps.prj (by with_reducible assumption) ?_)
    | with_reducible apply Keeps.lit

theorem siteSettle_keeps {s0 : State} {a0} {s : State} (h : Keeps s0 s) :
    Keeps s0 (siteSettle a0 s) := by
  unfold siteSettle
  repeat' first
    | with_reducible assumption
    | with_reducible apply recallFrom_keeps
    | with_reducible apply recallGo_keeps
    | with_reducible apply siteStep3_keeps
    | (intro _)
    | (extract_lets +onlyGivenNames x; refine Keeps.cut (s0 := s0) (t := x) ?_ (fun hx => ?_) <;> first | (replace hx : Keeps s0 x := hx; clear_value x) | (dsimp only [x]; clear x))
    | (extract_lets +onlyGivenNames x; try clear_value x)
    | split
    | (refine Keeps.prj (by with_reducible assumption) ?_)
    | with_reducible apply Keeps.lit

theorem dieGone_keeps {s0 : State} {a0} {s : State} (h : Keeps s0 s) :
    Keeps s0 (dieGone a0 s) := by
  unfold dieGone
  repeat' first
    | with_reducible assumption
    | with_reducible apply foldS_keeps
    | with_reducible apply homeEnded_keeps
    | with_reducible apply State.setLine_keeps
    | (intro _)
    | (extract_lets +onlyGivenNames x; refine Keeps.cut (s0 := s0) (t := x) ?_ (fun hx => ?_) <;> first | (replace hx : Keeps s0 x := hx; clear_value x) | (dsimp only [x]; clear x))
    | (extract_lets +onlyGivenNames x; try clear_value x)
    | split
    | (refine Keeps.prj (by with_reducible assumption) ?_)
    | with_reducible apply Keeps.lit

theorem siteReset_keeps {s0 : State} {a0} {a1} {s : State} (h : Keeps s0 s) :
    Keeps s0 (siteReset a0 a1 s) := by
  unfold siteReset
  repeat' first
    | with_reducible assumption
    | with_reducible apply failAps_keeps
    | with_reducible apply State.setSite_keeps
    | with_reducible apply siteSettle_keeps
    | with_reducible apply recallStart_keeps
    | with_reducible apply dieGone_keeps
    | (intro _)
    | (extract_lets +onlyGivenNames x; refine Keeps.cut (s0 := s0) (t := x) ?_ (fun hx => ?_) <;> first | (replace hx : Keeps s0 x := hx; clear_value x) | (dsimp only [x]; clear x))
    | (extract_lets +onlyGivenNames x; try clear_value x)
    | split
    | (refine Keeps.prj (by with_reducible assumption) ?_)
    | with_reducible apply Keeps.lit

theorem protocolError_keeps {s0 : State} {a0} {s : State} (h : Keeps s0 s) :
    Keeps s0 (protocolError a0 s) := by
  unfold protocolError
  repeat' first
    | with_reducible assumption
    | with_reducible apply siteReset_keeps
    | with_reducible apply State.setSite_keeps
    | (intro _)
    | (extract_lets +onlyGivenNames x; try clear_value x)
    | (refine Keeps.prj (by with_reducible assumption) ?_)
    | with_reducible apply Keeps.lit

theorem snoopLost_keeps {s0 : State} {a0} {a1} {s : State} (h : Keeps s0 s) :
    Keeps s0 (snoopLost a0 a1 s) := by
  unfold snoopLost
  repeat' first
    | with_reducible assumption
    | with_reducible apply homeAnswer_keeps
    | (intro _)
    | (extract_lets +onlyGivenNames x; try clear_value x)
    | split
    | (refine Keeps.prj (by with_reducible assumption) ?_)
    | with_reducible apply Keeps.lit

theorem recallLost_keeps {s0 : State} {a0} {s : State} (h : Keeps s0 s) :
    Keeps s0 (recallLost a0 s) := by
  unfold recallLost
  repeat' first
    | with_reducible assumption
    | with_reducible apply foldS_keeps
    | with_reducible apply snoopLost_keeps
    | (intro _)
    | (extract_lets +onlyGivenNames x; try clear_value x)
    | (refine Keeps.prj (by with_reducible assumption) ?_)
    | with_reducible apply Keeps.lit

theorem shedSite_keeps {s0 : State} {a0} {a1} {s : State} (h : Keeps s0 s) :
    Keeps s0 (shedSite a0 a1 s) := by
  unfold shedSite
  repeat' first
    | with_reducible assumption
    | with_reducible apply emit_keeps
    | with_reducible apply State.setSite_keeps
    | (intro _)
    | (extract_lets +onlyGivenNames x; try clear_value x)
    | split
    | (refine Keeps.prj (by with_reducible assumption) ?_)
    | with_reducible apply Keeps.lit

theorem shedSites_keeps {s0 : State} {a0} {s : State} (h : Keeps s0 s) :
    Keeps s0 (shedSites a0 s) := by
  unfold shedSites
  repeat' first
    | with_reducible assumption
    | with_reducible apply foldS_keeps
    | with_reducible apply shedSite_keeps
    | with_reducible apply siteAgain_keeps
    | with_reducible apply State.setSite_keeps
    | (intro _)
    | (extract_lets +onlyGivenNames x; refine Keeps.cut (s0 := s0) (t := x) ?_ (fun hx => ?_) <;> first | (replace hx : Keeps s0 x := hx; clear_value x) | (dsimp only [x]; clear x))
    | (extract_lets +onlyGivenNames x; try clear_value x)
    | split
    | (refine Keeps.prj (by with_reducible assumption) ?_)
    | with_reducible apply Keeps.lit

/-! ### Sites -/

theorem execSiteReset_keeps {s0 : State} {a0} {a1} {s : State} (h : Keeps s0 s) :
    KeepsX s0 (execSiteReset a0 a1 s) := by
  unfold execSiteReset
  repeat' first
    | with_reducible assumption
    | with_reducible apply KeepsX.next
    | with_reducible apply reply_keeps
    | with_reducible apply State.setSite_keeps
    | with_reducible apply siteEnded_keeps
    | with_reducible apply siteEvent_keeps
    | with_reducible apply siteAgain_keeps
    | with_reducible apply siteReset_keeps
    | (intro _)
    | (extract_lets +onlyGivenNames x; refine Keeps.cut (s0 := s0) (t := x) ?_ (fun hx => ?_) <;> first | (replace hx : Keeps s0 x := hx; clear_value x) | (dsimp only [x]; clear x))
    | (extract_lets +onlyGivenNames x; try clear_value x)
    | split
    | (refine Keeps.prj (by with_reducible assumption) ?_)
    | with_reducible apply Keeps.lit

theorem execSiteLinkUp_keeps {s0 : State} {a0} {a1} {a2} {a3} {s : State} (h : Keeps s0 s) :
    KeepsX s0 (execSiteLinkUp a0 a1 a2 a3 s) := by
  unfold execSiteLinkUp
  repeat' first
    | with_reducible assumption
    | with_reducible apply KeepsX.next
    | with_reducible apply emit_keeps
    | with_reducible apply State.setSite_keeps
    | (intro _)
    | (extract_lets +onlyGivenNames x; refine Keeps.cut (s0 := s0) (t := x) ?_ (fun hx => ?_) <;> first | (replace hx : Keeps s0 x := hx; clear_value x) | (dsimp only [x]; clear x))
    | (extract_lets +onlyGivenNames x; try clear_value x)
    | split
    | (refine Keeps.prj (by with_reducible assumption) ?_)
    | with_reducible apply Keeps.lit

theorem execAdmissionStepTimeout_keeps {s0 : State} {a0} {a1} {s : State} (h : Keeps s0 s) :
    KeepsX s0 (execAdmissionStepTimeout a0 a1 s) := by
  unfold execAdmissionStepTimeout
  repeat' first
    | with_reducible assumption
    | with_reducible apply KeepsX.next
    | with_reducible apply siteEnded_keeps
    | with_reducible apply siteFail_keeps
    | (intro _)
    | (extract_lets +onlyGivenNames x; try clear_value x)
    | split
    | (refine Keeps.prj (by with_reducible assumption) ?_)
    | with_reducible apply Keeps.lit

theorem execSiteAdmissionTimeout_keeps {s0 : State} {a0} {s : State} (h : Keeps s0 s) :
    KeepsX s0 (execSiteAdmissionTimeout a0 s) := by
  unfold execSiteAdmissionTimeout
  repeat' first
    | with_reducible assumption
    | with_reducible apply KeepsX.next
    | with_reducible apply siteEnded_keeps
    | with_reducible apply siteFail_keeps
    | (intro _)
    | (extract_lets +onlyGivenNames x; try clear_value x)
    | split
    | (refine Keeps.prj (by with_reducible assumption) ?_)
    | with_reducible apply Keeps.lit

theorem siteAdmit_keeps {s0 : State} {a0} {a1} {a2} {s : State} (h : Keeps s0 s) :
    Keeps s0 (siteAdmit a0 a1 a2 s) := by
  unfold siteAdmit
  repeat' first
    | with_reducible assumption
    | with_reducible apply State.setSite_keeps
    | with_reducible apply State.extend_keeps
    | with_reducible apply siteEnded_keeps
    | with_reducible apply siteEvent_keeps
    | with_reducible apply emit_keeps
    | (intro _)
    | (extract_lets +onlyGivenNames x; refine Keeps.cut (s0 := s0) (t := x) ?_ (fun hx => ?_) <;> first | (replace hx : Keeps s0 x := hx; clear_value x) | (dsimp only [x]; clear x))
    | (extract_lets +onlyGivenNames x; try clear_value x)
    | split
    | (refine Keeps.prj (by with_reducible assumption) ?_)
    | with_reducible apply Keeps.lit

theorem execDeclare_keeps {s0 : State} {a0} {a1} {a2} {s : State} (h : Keeps s0 s) :
    KeepsX s0 (execDeclare a0 a1 a2 s) := by
  unfold execDeclare
  repeat' first
    | with_reducible assumption
    | with_reducible apply KeepsX.next
    | with_reducible apply siteEnded_keeps
    | with_reducible apply siteFail_keeps
    | with_reducible apply State.setSite_keeps
    | with_reducible apply siteAdmit_keeps
    | (intro _)
    | (extract_lets +onlyGivenNames x; refine Keeps.cut (s0 := s0) (t := x) ?_ (fun hx => ?_) <;> first | (replace hx : Keeps s0 x := hx; clear_value x) | (dsimp only [x]; clear x))
    | (extract_lets +onlyGivenNames x; try clear_value x)
    | split
    | (refine Keeps.prj (by with_reducible assumption) ?_)
    | with_reducible apply Keeps.lit

theorem frameIn_keeps {s0 : State} {n ch cost : Nat} {cr : KV Nat} {nop bad : Bool} {s t : State} (h : Keeps s0 s)
    (e : frameIn n ch cost cr nop bad s = .ok t ∨ frameIn n ch cost cr nop bad s = .error t) : Keeps s0 t := by
  have key : ∀ o : Except State State, o = .ok t ∨ o = .error t → (∀ u, o = .ok u ∨ o = .error u → Keeps s0 u) →
      Keeps s0 t := fun o e k => k t e
  refine key _ e fun u hu => ?_
  have bk : ∀ b : Bool, Keeps s0 (if b then s else s.setSite n
      { s.site n with errEarly := satAdd 16 (s.site n).errEarly 1 }) := by
    intro b
    cases b
    · exact State.setSite_keeps h
    · exact h
  revert hu
  unfold frameIn
  dsimp only
  split
  · rintro (⟨⟨⟩⟩ | ⟨⟨⟩⟩); exact h
  · split
    · rintro (⟨⟨⟩⟩ | ⟨⟨⟩⟩); exact bk nop
    · split
      · rintro (⟨⟨⟩⟩ | ⟨⟨⟩⟩); exact h
      · split
        · rintro (⟨⟨⟩⟩ | ⟨⟨⟩⟩); exact protocolError_keeps h
        · rintro (⟨⟨⟩⟩ | ⟨⟨⟩⟩)
          refine sitePump_keeps ?_
          split
          · exact State.setSite_keeps h
          · exact emit_keeps (State.setSite_keeps h)

theorem execNopFrame_keeps {s0 : State} {a0} {a1} {a2} {a3} {a4} {a5} {s : State} (h : Keeps s0 s) :
    KeepsX s0 (execNopFrame a0 a1 a2 a3 a4 a5 s) := by
  unfold execNopFrame
  repeat' first
    | with_reducible assumption
    | with_reducible apply KeepsX.next
    | (refine frameIn_keeps ?_ (.inl (by with_reducible assumption)))
    | (refine frameIn_keeps ?_ (.inr (by with_reducible assumption)))
    | (intro _)
    | split
    | (refine Keeps.exc (by with_reducible assumption) ?_)
    | (refine Keeps.prj (by with_reducible assumption) ?_)
    | with_reducible apply Keeps.lit

theorem execDoorbell_keeps {s0 : State} {a0} {a1} {a2} {a3} {a4} {a5} {a6} {a7} {a8} {s : State} (h : Keeps s0 s) :
    KeepsX s0 (execDoorbell a0 a1 a2 a3 a4 a5 a6 a7 a8 s) := by
  unfold execDoorbell
  repeat' first
    | with_reducible assumption
    | with_reducible apply KeepsX.next
    | with_reducible apply State.setSite_keeps
    | with_reducible apply doorbell_keeps
    | (refine frameIn_keeps ?_ (.inl (by with_reducible assumption)))
    | (refine frameIn_keeps ?_ (.inr (by with_reducible assumption)))
    | with_reducible apply hf
    | (intro _)
    | (extract_lets +onlyGivenNames f; refine Keeps.cutS (s0 := s0) (f := f) ?_ (fun hf => ?_) <;> first | (replace hf : ∀ s, Keeps s0 s → Keeps s0 (f s) := hf; clear_value f) | (dsimp only [f]; clear f))
    | (extract_lets +onlyGivenNames x; try clear_value x)
    | split
    | (refine Keeps.exc (by with_reducible assumption) ?_)
    | (refine Keeps.prj (by with_reducible assumption) ?_)
    | with_reducible apply Keeps.lit

theorem stopReq_keeps {s0 : State} {a0} {a1} {s : State} (h : Keeps s0 s) :
    Keeps s0 (stopReq a0 a1 s) := by
  unfold stopReq
  repeat' first
    | with_reducible assumption
    | with_reducible apply sendMsg_keeps
    | with_reducible apply apertureSend_keeps
    | with_reducible apply homeAccept_keeps
    | with_reducible apply hf
    | (intro _)
    | (extract_lets +onlyGivenNames f; refine Keeps.cutS1 (s0 := s0) (f := f) ?_ (fun hf => ?_) <;> first | (replace hf : ∀ a s, Keeps s0 s → Keeps s0 (f a s) := hf; clear_value f) | (dsimp only [f]; clear f))
    | (extract_lets +onlyGivenNames x; try clear_value x)
    | split
    | (refine Keeps.snd (by with_reducible assumption) ?_)
    | (refine Keeps.prj (by with_reducible assumption) ?_)
    | with_reducible apply Keeps.lit

theorem noteTaken_keeps {s0 : State} {a0} {a1} {s : State} (h : Keeps s0 s) :
    Keeps s0 (noteTaken a0 a1 s) := by
  unfold noteTaken
  repeat' first
    | with_reducible assumption
    | with_reducible apply State.setSite_keeps
    | (intro _)
    | (extract_lets +onlyGivenNames x; try clear_value x)
    | split
    | (refine Keeps.prj (by with_reducible assumption) ?_)
    | with_reducible apply Keeps.lit

theorem msgIn_keeps {s0 : State} {a0} {a1} {s : State} (h : Keeps s0 s) :
    Keeps s0 (msgIn a0 a1 s) := by
  unfold msgIn
  repeat' first
    | with_reducible assumption
    | with_reducible apply siteSettle_keeps
    | with_reducible apply settleMoves_keeps
    | with_reducible apply homeAnswer_keeps
    | with_reducible apply noteTaken_keeps
    | with_reducible apply protocolError_keeps
    | with_reducible apply homeAck_keeps
    | with_reducible apply apAnswer_keeps
    | with_reducible apply stopReq_keeps
    | with_reducible apply State.setSite_keeps
    | (intro _)
    | (extract_lets +onlyGivenNames x; try clear_value x)
    | split
    | (refine Keeps.snd (by with_reducible assumption) ?_)
    | (refine Keeps.prj (by with_reducible assumption) ?_)
    | with_reducible apply Keeps.lit

theorem execMsg_keeps {s0 : State} {a0} {a1} {a2} {s : State} (h : Keeps s0 s) :
    KeepsX s0 (execMsg a0 a1 a2 s) := by
  unfold execMsg
  repeat' first
    | with_reducible assumption
    | with_reducible apply KeepsX.next
    | with_reducible apply siteSettle_keeps
    | with_reducible apply settleMoves_keeps
    | with_reducible apply homeAnswer_keeps
    | with_reducible apply msgIn_keeps
    | (refine frameIn_keeps ?_ (.inl (by with_reducible assumption)))
    | (refine frameIn_keeps ?_ (.inr (by with_reducible assumption)))
    | (intro _)
    | (extract_lets +onlyGivenNames x; refine Keeps.cut (s0 := s0) (t := x) ?_ (fun hx => ?_) <;> first | (replace hx : Keeps s0 x := hx; clear_value x) | (dsimp only [x]; clear x))
    | (extract_lets +onlyGivenNames x; try clear_value x)
    | split
    | (refine Keeps.exc (by with_reducible assumption) ?_)
    | (refine Keeps.prj (by with_reducible assumption) ?_)
    | with_reducible apply Keeps.lit

theorem execSnoopTimeout_keeps {s0 : State} {a0} {a1} {s : State} (h : Keeps s0 s) :
    KeepsX s0 (execSnoopTimeout a0 a1 s) := by
  unfold execSnoopTimeout
  repeat' first
    | with_reducible assumption
    | with_reducible apply KeepsX.next
    | with_reducible apply cohErr_keeps
    | with_reducible apply settleMoves_keeps
    | with_reducible apply snoopLost_keeps
    | with_reducible apply siteSettle_keeps
    | with_reducible apply siteReset_keeps
    | with_reducible apply State.setSite_keeps
    | (intro _)
    | (extract_lets +onlyGivenNames x; refine Keeps.cut (s0 := s0) (t := x) ?_ (fun hx => ?_) <;> first | (replace hx : Keeps s0 x := hx; clear_value x) | (dsimp only [x]; clear x))
    | (extract_lets +onlyGivenNames x; try clear_value x)
    | split
    | (refine Keeps.prj (by with_reducible assumption) ?_)
    | with_reducible apply Keeps.lit

theorem execApertureTimeout_keeps {s0 : State} {a0} {a1} {s : State} (h : Keeps s0 s) :
    KeepsX s0 (execApertureTimeout a0 a1 s) := by
  unfold execApertureTimeout
  repeat' first
    | with_reducible assumption
    | with_reducible apply KeepsX.next
    | with_reducible apply State.setSite_keeps
    | with_reducible apply siteReset_keeps
    | with_reducible apply apDone_keeps
    | (intro _)
    | (extract_lets +onlyGivenNames x; refine Keeps.cut (s0 := s0) (t := x) ?_ (fun hx => ?_) <;> first | (replace hx : Keeps s0 x := hx; clear_value x) | (dsimp only [x]; clear x))
    | (extract_lets +onlyGivenNames x; try clear_value x)
    | split
    | (refine Keeps.prj (by with_reducible assumption) ?_)
    | with_reducible apply Keeps.lit

theorem execSiteLinkLoss_keeps {s0 : State} {a0} {s : State} (h : Keeps s0 s) :
    KeepsX s0 (execSiteLinkLoss a0 s) := by
  unfold execSiteLinkLoss
  repeat' first
    | with_reducible assumption
    | with_reducible apply KeepsX.next
    | with_reducible apply siteReset_keeps
    | (intro _)
    | (refine Keeps.prj (by with_reducible assumption) ?_)
    | with_reducible apply Keeps.lit

theorem execLaneRepair_keeps {s0 : State} {a0} {a1} {a2} {a3} {s : State} (h : Keeps s0 s) :
    KeepsX s0 (execLaneRepair a0 a1 a2 a3 s) := by
  unfold execLaneRepair
  repeat' first
    | with_reducible assumption
    | with_reducible apply KeepsX.next
    | with_reducible apply siteReset_keeps
    | with_reducible apply siteEvent_keeps
    | with_reducible apply State.setSite_keeps
    | (intro _)
    | (extract_lets +onlyGivenNames x; try clear_value x)
    | split
    | (refine Keeps.prj (by with_reducible assumption) ?_)
    | with_reducible apply Keeps.lit

theorem execShedAck_keeps {s0 : State} {a0} {a1} {a2} {s : State} (h : Keeps s0 s) :
    KeepsX s0 (execShedAck a0 a1 a2 s) := by
  unfold execShedAck
  repeat' first
    | with_reducible assumption
    | with_reducible apply KeepsX.next
    | with_reducible apply State.setSite_keeps
    | (intro _)
    | (extract_lets +onlyGivenNames x; try clear_value x)
    | split
    | (refine Keeps.prj (by with_reducible assumption) ?_)
    | with_reducible apply Keeps.lit

theorem execQuiesceTimeout_keeps {s0 : State} {a0} {s : State} (h : Keeps s0 s) :
    KeepsX s0 (execQuiesceTimeout a0 s) := by
  unfold execQuiesceTimeout
  repeat' first
    | with_reducible assumption
    | with_reducible apply KeepsX.next
    | with_reducible apply siteEvent_keeps
    | with_reducible apply State.setSite_keeps
    | (intro _)
    | (extract_lets +onlyGivenNames x; try clear_value x)
    | split
    | (refine Keeps.prj (by with_reducible assumption) ?_)
    | with_reducible apply Keeps.lit

theorem cxlReq_keeps {s0 : State} {a0} {a1} {a2} {a3} {a4} {a5} {a6} {a7} {s : State} (h : Keeps s0 s) :
    Keeps s0 (cxlReq a0 a1 a2 a3 a4 a5 a6 a7 s) := by
  unfold cxlReq
  repeat' first
    | with_reducible assumption
    | with_reducible apply protocolError_keeps
    | with_reducible apply State.setSite_keeps
    | with_reducible apply sendMsg_keeps
    | with_reducible apply stopReq_keeps
    | (intro _)
    | (extract_lets +onlyGivenNames x; refine Keeps.cut (s0 := s0) (t := x) ?_ (fun hx => ?_) <;> first | (replace hx : Keeps s0 x := hx; clear_value x) | (dsimp only [x]; clear x))
    | (extract_lets +onlyGivenNames x; try clear_value x)
    | split
    | (refine Keeps.prj (by with_reducible assumption) ?_)
    | with_reducible apply Keeps.lit

theorem execRdcurr_keeps {s0 : State} {a0} {a1} {a2} {a3} {s : State} (h : Keeps s0 s) :
    KeepsX s0 (execRdcurr a0 a1 a2 a3 s) := by
  unfold execRdcurr
  repeat' first
    | with_reducible assumption
    | with_reducible apply KeepsX.next
    | with_reducible apply cxlReq_keeps
    | (intro _)
    | (refine Keeps.prj (by with_reducible assumption) ?_)
    | with_reducible apply Keeps.lit

theorem execRdshared_keeps {s0 : State} {a0} {a1} {a2} {a3} {s : State} (h : Keeps s0 s) :
    KeepsX s0 (execRdshared a0 a1 a2 a3 s) := by
  unfold execRdshared
  repeat' first
    | with_reducible assumption
    | with_reducible apply KeepsX.next
    | with_reducible apply cxlReq_keeps
    | (intro _)
    | (refine Keeps.prj (by with_reducible assumption) ?_)
    | with_reducible apply Keeps.lit

theorem execRdany_keeps {s0 : State} {a0} {a1} {a2} {a3} {s : State} (h : Keeps s0 s) :
    KeepsX s0 (execRdany a0 a1 a2 a3 s) := by
  unfold execRdany
  repeat' first
    | with_reducible assumption
    | with_reducible apply KeepsX.next
    | with_reducible apply cxlReq_keeps
    | (intro _)
    | (refine Keeps.prj (by with_reducible assumption) ?_)
    | with_reducible apply Keeps.lit

theorem execRdown_keeps {s0 : State} {a0} {a1} {a2} {a3} {s : State} (h : Keeps s0 s) :
    KeepsX s0 (execRdown a0 a1 a2 a3 s) := by
  unfold execRdown
  repeat' first
    | with_reducible assumption
    | with_reducible apply KeepsX.next
    | with_reducible apply cxlReq_keeps
    | (intro _)
    | (refine Keeps.prj (by with_reducible assumption) ?_)
    | with_reducible apply Keeps.lit

theorem execRdownnodata_keeps {s0 : State} {a0} {a1} {a2} {a3} {s : State} (h : Keeps s0 s) :
    KeepsX s0 (execRdownnodata a0 a1 a2 a3 s) := by
  unfold execRdownnodata
  repeat' first
    | with_reducible assumption
    | with_reducible apply KeepsX.next
    | with_reducible apply cxlReq_keeps
    | (intro _)
    | (refine Keeps.prj (by with_reducible assumption) ?_)
    | with_reducible apply Keeps.lit

theorem execDirtyevict_keeps {s0 : State} {a0} {a1} {a2} {a3} {a4} {s : State} (h : Keeps s0 s) :
    KeepsX s0 (execDirtyevict a0 a1 a2 a3 a4 s) := by
  unfold execDirtyevict
  repeat' first
    | with_reducible assumption
    | with_reducible apply KeepsX.next
    | with_reducible apply cxlReq_keeps
    | (intro _)
    | (refine Keeps.prj (by with_reducible assumption) ?_)
    | with_reducible apply Keeps.lit

theorem execCleanevict_keeps {s0 : State} {a0} {a1} {a2} {a3} {s : State} (h : Keeps s0 s) :
    KeepsX s0 (execCleanevict a0 a1 a2 a3 s) := by
  unfold execCleanevict
  repeat' first
    | with_reducible assumption
    | with_reducible apply KeepsX.next
    | with_reducible apply cxlReq_keeps
    | (intro _)
    | (refine Keeps.prj (by with_reducible assumption) ?_)
    | with_reducible apply Keeps.lit

theorem execCleanevictnodata_keeps {s0 : State} {a0} {a1} {a2} {s : State} (h : Keeps s0 s) :
    KeepsX s0 (execCleanevictnodata a0 a1 a2 s) := by
  unfold execCleanevictnodata
  repeat' first
    | with_reducible assumption
    | with_reducible apply KeepsX.next
    | with_reducible apply cxlReq_keeps
    | (intro _)
    | (refine Keeps.prj (by with_reducible assumption) ?_)
    | with_reducible apply Keeps.lit

theorem execItomwr_keeps {s0 : State} {a0} {a1} {a2} {a3} {a4} {s : State} (h : Keeps s0 s) :
    KeepsX s0 (execItomwr a0 a1 a2 a3 a4 s) := by
  unfold execItomwr
  repeat' first
    | with_reducible assumption
    | with_reducible apply KeepsX.next
    | with_reducible apply cxlReq_keeps
    | (intro _)
    | (refine Keeps.prj (by with_reducible assumption) ?_)
    | with_reducible apply Keeps.lit

theorem execWrcur_keeps {s0 : State} {a0} {a1} {a2} {a3} {a4} {s : State} (h : Keeps s0 s) :
    KeepsX s0 (execWrcur a0 a1 a2 a3 a4 s) := by
  unfold execWrcur
  repeat' first
    | with_reducible assumption
    | with_reducible apply KeepsX.next
    | with_reducible apply cxlReq_keeps
    | (intro _)
    | (refine Keeps.prj (by with_reducible assumption) ?_)
    | with_reducible apply Keeps.lit

theorem execWowrinvf_keeps {s0 : State} {a0} {a1} {a2} {a3} {a4} {s : State} (h : Keeps s0 s) :
    KeepsX s0 (execWowrinvf a0 a1 a2 a3 a4 s) := by
  unfold execWowrinvf
  repeat' first
    | with_reducible assumption
    | with_reducible apply KeepsX.next
    | with_reducible apply cxlReq_keeps
    | (intro _)
    | (refine Keeps.prj (by with_reducible assumption) ?_)
    | with_reducible apply Keeps.lit

theorem execWowrinv_keeps {s0 : State} {a0} {a1} {a2} {a3} {a4} {a5} {s : State} (h : Keeps s0 s) :
    KeepsX s0 (execWowrinv a0 a1 a2 a3 a4 a5 s) := by
  unfold execWowrinv
  repeat' first
    | with_reducible assumption
    | with_reducible apply KeepsX.next
    | with_reducible apply cxlReq_keeps
    | (intro _)
    | (refine Keeps.prj (by with_reducible assumption) ?_)
    | with_reducible apply Keeps.lit

theorem cxlIoLine_keeps {s0 : State} {a0} {a1} {a2} {a3} {a4} {s : State} (h : Keeps s0 s) :
    Keeps s0 (cxlIoLine a0 a1 a2 a3 a4 s) := by
  unfold cxlIoLine
  repeat' first
    | with_reducible assumption
    | with_reducible apply sendMsg_keeps
    | with_reducible apply stopReq_keeps
    | (intro _)
    | (extract_lets +onlyGivenNames x; try clear_value x)
    | split
    | (refine Keeps.prj (by with_reducible assumption) ?_)
    | with_reducible apply Keeps.lit

theorem execCxlIoMemoryRequest_keeps {s0 : State} {a0} {a1} {a2} {a3} {a4} {s : State} (h : Keeps s0 s) :
    KeepsX s0 (execCxlIoMemoryRequest a0 a1 a2 a3 a4 s) := by
  unfold execCxlIoMemoryRequest
  repeat' first
    | with_reducible assumption
    | with_reducible apply KeepsX.next
    | with_reducible apply foldS_keeps
    | with_reducible apply cxlIoLine_keeps
    | (intro _)
    | (extract_lets +onlyGivenNames x; refine Keeps.cut (s0 := s0) (t := x) ?_ (fun hx => ?_) <;> first | (replace hx : Keeps s0 x := hx; clear_value x) | (dsimp only [x]; clear x))
    | (extract_lets +onlyGivenNames x; try clear_value x)
    | split
    | (refine Keeps.prj (by with_reducible assumption) ?_)
    | with_reducible apply Keeps.lit

theorem actGrantRequest_keeps {s0 : State} {a0} {a1} {a2} {s : State} (h : Keeps s0 s) :
    Keeps s0 (actGrantRequest a0 a1 a2 s).2 := by
  unfold actGrantRequest
  repeat' first
    | with_reducible assumption
    | with_reducible apply State.setSite_keeps
    | (intro _)
    | (extract_lets +onlyGivenNames x; try clear_value x)
    | split
    | (refine Keeps.prj (by with_reducible assumption) ?_)
    | with_reducible apply Keeps.lit

theorem actGrantAperture_keeps {s0 : State} {a0} {a1} {a2} {s : State} (h : Keeps s0 s) :
    Keeps s0 (actGrantAperture a0 a1 a2 s).2 := by
  unfold actGrantAperture
  repeat' first
    | with_reducible assumption
    | with_reducible apply State.setSite_keeps
    | (intro _)
    | (extract_lets +onlyGivenNames x; try clear_value x)
    | split
    | (refine Keeps.prj (by with_reducible assumption) ?_)
    | with_reducible apply Keeps.lit

theorem actGrantWithdraw_keeps {s0 : State} {a0} {a1} {s : State} (h : Keeps s0 s) :
    Keeps s0 (actGrantWithdraw a0 a1 s).2 := by
  unfold actGrantWithdraw
  repeat' first
    | with_reducible assumption
    | with_reducible apply State.setSite_keeps
    | (intro _)
    | (extract_lets +onlyGivenNames x; refine Keeps.cut (s0 := s0) (t := x) ?_ (fun hx => ?_) <;> first | (replace hx : Keeps s0 x := hx; clear_value x) | (dsimp only [x]; clear x))
    | (extract_lets +onlyGivenNames x; try clear_value x)
    | split
    | (refine Keeps.prj (by with_reducible assumption) ?_)
    | with_reducible apply Keeps.lit

theorem prepWithdraw_keeps {s0 : State} {a0} {a1} {s : State} (h : Keeps s0 s) :
    Keeps s0 (prepWithdraw a0 a1 s) := by
  unfold prepWithdraw
  repeat' first
    | with_reducible assumption
    | with_reducible apply State.setSite_keeps
    | with_reducible apply recallStart_keeps
    | (intro _)
    | (extract_lets +onlyGivenNames x; refine Keeps.cut (s0 := s0) (t := x) ?_ (fun hx => ?_) <;> first | (replace hx : Keeps s0 x := hx; clear_value x) | (dsimp only [x]; clear x))
    | (extract_lets +onlyGivenNames x; try clear_value x)
    | split
    | (refine Keeps.prj (by with_reducible assumption) ?_)
    | with_reducible apply Keeps.lit

theorem execSiteGrantRequest_keeps {s0 : State} {a0} {a1} {a2} {s : State} (h : Keeps s0 s) :
    KeepsX s0 (execSiteGrantRequest a0 a1 a2 s) := by
  unfold execSiteGrantRequest
  repeat' first
    | with_reducible assumption
    | with_reducible apply KeepsX.next
    | with_reducible apply stagePacket_keeps
    | with_reducible apply actGrantRequest_keeps
    | with_reducible apply noPrep_keeps
    | (intro _)
    | (refine Keeps.snd (by with_reducible assumption) ?_)
    | (refine Keeps.prj (by with_reducible assumption) ?_)
    | with_reducible apply Keeps.lit

theorem execSiteGrantAperture_keeps {s0 : State} {a0} {a1} {a2} {s : State} (h : Keeps s0 s) :
    KeepsX s0 (execSiteGrantAperture a0 a1 a2 s) := by
  unfold execSiteGrantAperture
  repeat' first
    | with_reducible assumption
    | with_reducible apply KeepsX.next
    | with_reducible apply stagePacket_keeps
    | with_reducible apply actGrantAperture_keeps
    | with_reducible apply noPrep_keeps
    | (intro _)
    | (refine Keeps.snd (by with_reducible assumption) ?_)
    | (refine Keeps.prj (by with_reducible assumption) ?_)
    | with_reducible apply Keeps.lit

theorem execSiteGrantWithdraw_keeps {s0 : State} {a0} {a1} {a2} {s : State} (h : Keeps s0 s) :
    KeepsX s0 (execSiteGrantWithdraw a0 a1 a2 s) := by
  unfold execSiteGrantWithdraw
  repeat' first
    | with_reducible assumption
    | with_reducible apply KeepsX.next
    | with_reducible apply stagePacket_keeps
    | with_reducible apply actGrantWithdraw_keeps
    | with_reducible apply prepWithdraw_keeps
    | (intro _)
    | (extract_lets +onlyGivenNames x; try clear_value x)
    | (refine Keeps.snd (by with_reducible assumption) ?_)
    | (refine Keeps.prj (by with_reducible assumption) ?_)
    | with_reducible apply Keeps.lit

theorem execSitePowerSample_keeps {s0 : State} {a0} {a1} {s : State} (h : Keeps s0 s) :
    KeepsX s0 (execSitePowerSample a0 a1 s) := by
  unfold execSitePowerSample
  repeat' first
    | with_reducible assumption
    | with_reducible apply KeepsX.next
    | with_reducible apply siteEvent_keeps
    | with_reducible apply emit_keeps
    | with_reducible apply State.setSite_keeps
    | (intro _)
    | (extract_lets +onlyGivenNames x; try clear_value x)
    | split
    | (refine Keeps.prj (by with_reducible assumption) ?_)
    | with_reducible apply Keeps.lit

theorem execSitePowerReset_keeps {s0 : State} {a0} {s : State} (h : Keeps s0 s) :
    KeepsX s0 (execSitePowerReset a0 s) := by
  unfold execSitePowerReset
  repeat' first
    | with_reducible assumption
    | with_reducible apply KeepsX.next
    | with_reducible apply siteReset_keeps
    | (intro _)
    | (extract_lets +onlyGivenNames x; try clear_value x)
    | split
    | (refine Keeps.prj (by with_reducible assumption) ?_)
    | with_reducible apply Keeps.lit

theorem siteTest_keeps {s0 : State} {a0} {a1} {a2} {s : State} (h : Keeps s0 s) :
    Keeps s0 (siteTest a0 a1 a2 s) := by
  unfold siteTest
  repeat' first
    | with_reducible assumption
    | with_reducible apply State.setSite_keeps
    | (intro _)
    | (extract_lets +onlyGivenNames x; try clear_value x)
    | split
    | (refine Keeps.prj (by with_reducible assumption) ?_)
    | with_reducible apply Keeps.lit

theorem execSiteTest_keeps {s0 : State} {a0} {a1} {a2} {s : State} (h : Keeps s0 s) :
    KeepsX s0 (execSiteTest a0 a1 a2 s) := by
  unfold execSiteTest
  repeat' first
    | with_reducible assumption
    | with_reducible apply KeepsX.next
    | with_reducible apply siteTest_keeps
    | (intro _)
    | split
    | (refine Keeps.prj (by with_reducible assumption) ?_)
    | with_reducible apply Keeps.lit

/-! ### SlOps -/

theorem slFault_keeps {s0 : State} {a0} {a1} {s : State} (h : Keeps s0 s) :
    Keeps s0 (slFault a0 a1 s) := by
  unfold slFault
  repeat' first
    | with_reducible assumption
    | with_reducible apply postedFail_keeps
    | with_reducible apply postedDrop_keeps
    | with_reducible apply engineFault_keeps
    | with_reducible apply settleLaunches_keeps
    | with_reducible apply agentFault_keeps
    | with_reducible apply flightDone_keeps
    | (intro _)
    | (extract_lets +onlyGivenNames x; refine Keeps.cut (s0 := s0) (t := x) ?_ (fun hx => ?_) <;> first | (replace hx : Keeps s0 x := hx; clear_value x) | (dsimp only [x]; clear x))
    | (extract_lets +onlyGivenNames x; try clear_value x)
    | split
    | (refine Keeps.prj (by with_reducible assumption) ?_)
    | with_reducible apply Keeps.lit

theorem slComplete_keeps {s0 : State} {a0} {a1} {a2} {s : State} (h : Keeps s0 s) :
    Keeps s0 (slComplete a0 a1 a2 s) := by
  unfold slComplete
  repeat' first
    | with_reducible assumption
    | with_reducible apply slFault_keeps
    | (intro _)
    | (extract_lets +onlyGivenNames x; try clear_value x)
    | split
    | (refine Keeps.prj (by with_reducible assumption) ?_)
    | with_reducible apply Keeps.lit

theorem slTake_keeps {s0 : State} {p tag : Nat} {s : State} (h : Keeps s0 s) : KeepsO s0 (slTake p tag s) := by
  refine ⟨fun v t e => ?_⟩
  unfold slTake at e
  cases hk : kget tag (s.slPort p).reqs with
  | none => simp [hk] at e
  | some r =>
    simp only [hk, Option.map_some, Option.some.injEq, Prod.mk.injEq] at e
    exact e.2 ▸ State.setSlPort_keeps h

theorem slFailAll_keeps {s0 : State} {a0} {a1} {s : State} (h : Keeps s0 s) :
    Keeps s0 (slFailAll a0 a1 s) := by
  unfold slFailAll
  repeat' first
    | with_reducible assumption
    | with_reducible apply foldS_keeps
    | with_reducible apply slComplete_keeps
    | with_reducible apply foldl_keeps
    | with_reducible apply foldl_keeps_snd
    | (intro _)
    | (extract_lets +onlyGivenNames x; try clear_value x)
    | split
    | (refine Keeps.prj (by with_reducible assumption) ?_)
    | with_reducible apply Keeps.lit

theorem winState_keeps {s0 : State} {a0} {a1} {s : State} (h : Keeps s0 s) :
    Keeps s0 (winState a0 a1 s) := by
  unfold winState
  repeat' first
    | with_reducible assumption
    | with_reducible apply slTransmit_keeps
    | (intro _)
    | split
    | (refine Keeps.prj (by with_reducible assumption) ?_)
    | with_reducible apply Keeps.lit

theorem winTell_keeps {s0 : State} {a0} {s : State} (h : Keeps s0 s) :
    Keeps s0 (winTell a0 s) := by
  unfold winTell
  repeat' first
    | with_reducible assumption
    | with_reducible apply foldS_keeps
    | with_reducible apply winState_keeps
    | (intro _)
    | split
    | (refine Keeps.prj (by with_reducible assumption) ?_)
    | with_reducible apply Keeps.lit

theorem slStart_keeps {s0 : State} {a0} {s : State} (h : Keeps s0 s) :
    Keeps s0 (slStart a0 s) := by
  unfold slStart
  repeat' first
    | with_reducible assumption
    | with_reducible apply emit_keeps
    | with_reducible apply State.setSlPort_keeps
    | (intro _)
    | (extract_lets +onlyGivenNames x; try clear_value x)
    | split
    | (refine Keeps.prj (by with_reducible assumption) ?_)
    | with_reducible apply Keeps.lit

theorem slStartAll_keeps {s0 : State} {s : State} (h : Keeps s0 s) :
    Keeps s0 (slStartAll s) := by
  unfold slStartAll
  repeat' first
    | with_reducible assumption
    | with_reducible apply foldS_keeps
    | with_reducible apply slStart_keeps
    | (intro _)
    | split
    | (refine Keeps.prj (by with_reducible assumption) ?_)
    | with_reducible apply Keeps.lit

theorem slFail_keeps {s0 : State} {a0} {a1} {s : State} (h : Keeps s0 s) :
    Keeps s0 (slFail a0 a1 s) := by
  unfold slFail
  repeat' first
    | with_reducible assumption
    | with_reducible apply slEvent_keeps
    | with_reducible apply State.setSlPort_keeps
    | with_reducible apply slStart_keeps
    | (intro _)
    | (extract_lets +onlyGivenNames x; try clear_value x)
    | split
    | (refine Keeps.prj (by with_reducible assumption) ?_)
    | with_reducible apply Keeps.lit

theorem slAuthFail_keeps {s0 : State} {a0} {s : State} (h : Keeps s0 s) :
    Keeps s0 (slAuthFail a0 s) := by
  unfold slAuthFail
  repeat' first
    | with_reducible assumption
    | with_reducible apply State.setSlPort_keeps
    | with_reducible apply slFail_keeps
    | with_reducible apply slEvent_keeps
    | (intro _)
    | (extract_lets +onlyGivenNames x; refine Keeps.cut (s0 := s0) (t := x) ?_ (fun hx => ?_) <;> first | (replace hx : Keeps s0 x := hx; clear_value x) | (dsimp only [x]; clear x))
    | (extract_lets +onlyGivenNames x; try clear_value x)
    | (refine Keeps.prj (by with_reducible assumption) ?_)
    | with_reducible apply Keeps.lit

theorem slEnter_keeps {s0 : State} {a0} {s : State} (h : Keeps s0 s) :
    Keeps s0 (slEnter a0 s) := by
  unfold slEnter
  repeat' first
    | with_reducible assumption
    | with_reducible apply State.setSlPort_keeps
    | with_reducible apply slEvent_keeps
    | with_reducible apply foldS_keeps
    | with_reducible apply winState_keeps
    | (intro _)
    | (extract_lets +onlyGivenNames x; refine Keeps.cut (s0 := s0) (t := x) ?_ (fun hx => ?_) <;> first | (replace hx : Keeps s0 x := hx; clear_value x) | (dsimp only [x]; clear x))
    | (extract_lets +onlyGivenNames x; try clear_value x)
    | (refine Keeps.prj (by with_reducible assumption) ?_)
    | with_reducible apply Keeps.lit

theorem slAgreed_keeps {s0 : State} {a0} {s : State} (h : Keeps s0 s) :
    Keeps s0 (slAgreed a0 s) := by
  unfold slAgreed
  repeat' first
    | with_reducible assumption
    | with_reducible apply emit_keeps
    | with_reducible apply State.setSlPort_keeps
    | with_reducible apply State.bump_keeps
    | with_reducible apply slEnter_keeps
    | (intro _)
    | (extract_lets +onlyGivenNames x; refine Keeps.cut (s0 := s0) (t := x) ?_ (fun hx => ?_) <;> first | (replace hx : Keeps s0 x := hx; clear_value x) | (dsimp only [x]; clear x))
    | (extract_lets +onlyGivenNames x; try clear_value x)
    | split
    | (refine Keeps.prj (by with_reducible assumption) ?_)
    | with_reducible apply Keeps.lit

theorem slResetEnd_keeps {s0 : State} {a0} {s : State} (h : Keeps s0 s) :
    Keeps s0 (slResetEnd a0 s) := by
  unfold slResetEnd
  repeat' first
    | with_reducible assumption
    | with_reducible apply State.setSlPort_keeps
    | with_reducible apply slEvent_keeps
    | with_reducible apply reply_keeps
    | with_reducible apply slStart_keeps
    | (intro _)
    | (extract_lets +onlyGivenNames x; refine Keeps.cut (s0 := s0) (t := x) ?_ (fun hx => ?_) <;> first | (replace hx : Keeps s0 x := hx; clear_value x) | (dsimp only [x]; clear x))
    | (extract_lets +onlyGivenNames x; try clear_value x)
    | split
    | (refine Keeps.prj (by with_reducible assumption) ?_)
    | with_reducible apply Keeps.lit

theorem slReset_keeps {s0 : State} {a0} {a1} {a2} {s : State} (h : Keeps s0 s) :
    Keeps s0 (slReset a0 a1 a2 s) := by
  unfold slReset
  repeat' first
    | with_reducible assumption
    | with_reducible apply State.setSlPort_keeps
    | with_reducible apply slEvent_keeps
    | with_reducible apply partResetSettle_keeps
    | with_reducible apply settleLaunches_keeps
    | with_reducible apply slResetEnd_keeps
    | with_reducible apply slFailAll_keeps
    | (intro _)
    | (extract_lets +onlyGivenNames x; refine Keeps.cut (s0 := s0) (t := x) ?_ (fun hx => ?_) <;> first | (replace hx : Keeps s0 x := hx; clear_value x) | (dsimp only [x]; clear x))
    | (extract_lets +onlyGivenNames x; try clear_value x)
    | split
    | (refine Keeps.prj (by with_reducible assumption) ?_)
    | with_reducible apply Keeps.lit

theorem slSettle_keeps {s0 : State} {s : State} (h : Keeps s0 s) :
    Keeps s0 (slSettle s) := by
  unfold slSettle
  repeat' first
    | with_reducible assumption
    | with_reducible apply foldS_keeps
    | with_reducible apply slResetEnd_keeps
    | (intro _)
    | (refine Keeps.prj (by with_reducible assumption) ?_)
    | with_reducible apply Keeps.lit

theorem slCount_keeps {s0 : State} {s : State} (h : Keeps s0 s) :
    Keeps s0 (slCount s) := by
  unfold slCount
  repeat' first
    | with_reducible assumption
    | with_reducible apply foldS_keeps
    | with_reducible apply slReset_keeps
    | (intro _)
    | (extract_lets +onlyGivenNames x; try clear_value x)
    | split
    | (refine Keeps.prj (by with_reducible assumption) ?_)
    | with_reducible apply Keeps.lit

theorem slWarm_keeps {s0 : State} {s : State} (h : Keeps s0 s) :
    Keeps s0 (slWarm s) := by
  unfold slWarm
  repeat' first
    | with_reducible assumption
    | with_reducible apply foldS_keeps
    | with_reducible apply slReset_keeps
    | with_reducible apply State.setSlPort_keeps
    | (intro _)
    | (extract_lets +onlyGivenNames x; refine Keeps.cut (s0 := s0) (t := x) ?_ (fun hx => ?_) <;> first | (replace hx : Keeps s0 x := hx; clear_value x) | (dsimp only [x]; clear x))
    | (extract_lets +onlyGivenNames x; try clear_value x)
    | (refine Keeps.prj (by with_reducible assumption) ?_)
    | with_reducible apply Keeps.lit

theorem slShed_keeps {s0 : State} {a0} {s : State} (h : Keeps s0 s) :
    Keeps s0 (slShed a0 s) := by
  unfold slShed
  repeat' first
    | with_reducible assumption
    | with_reducible apply foldS_keeps
    | with_reducible apply State.setSlPort_keeps
    | with_reducible apply slStart_keeps
    | with_reducible apply emit_keeps
    | with_reducible apply slPump_keeps
    | (intro _)
    | (extract_lets +onlyGivenNames x; refine Keeps.cut (s0 := s0) (t := x) ?_ (fun hx => ?_) <;> first | (replace hx : Keeps s0 x := hx; clear_value x) | (dsimp only [x]; clear x))
    | (extract_lets +onlyGivenNames x; try clear_value x)
    | split
    | (refine Keeps.prj (by with_reducible assumption) ?_)
    | with_reducible apply Keeps.lit

/-! ### Sloyth -/

theorem execSlPortReset_keeps {s0 : State} {a0} {a1} {s : State} (h : Keeps s0 s) :
    KeepsX s0 (execSlPortReset a0 a1 s) := by
  unfold execSlPortReset
  repeat' first
    | with_reducible assumption
    | with_reducible apply KeepsX.next
    | with_reducible apply reply_keeps
    | with_reducible apply slSettle_keeps
    | with_reducible apply slReset_keeps
    | (intro _)
    | split
    | (refine Keeps.prj (by with_reducible assumption) ?_)
    | with_reducible apply Keeps.lit

theorem actWindowSet_keeps {s0 : State} {a0} {a1} {s : State} (h : Keeps s0 s) :
    Keeps s0 (actWindowSet a0 a1 s).2 := by
  unfold actWindowSet
  repeat' first
    | with_reducible assumption
    | with_reducible apply winTell_keeps
    | (intro _)
    | (extract_lets +onlyGivenNames x; try clear_value x)
    | split
    | (refine Keeps.prj (by with_reducible assumption) ?_)
    | with_reducible apply Keeps.lit

theorem execSlWindowSet_keeps {s0 : State} {a0} {a1} {s : State} (h : Keeps s0 s) :
    KeepsX s0 (execSlWindowSet a0 a1 s) := by
  unfold execSlWindowSet
  repeat' first
    | with_reducible assumption
    | with_reducible apply KeepsX.next
    | with_reducible apply stagePacket_keeps
    | with_reducible apply actWindowSet_keeps
    | with_reducible apply noPrep_keeps
    | (intro _)
    | (refine Keeps.snd (by with_reducible assumption) ?_)
    | (refine Keeps.prj (by with_reducible assumption) ?_)
    | with_reducible apply Keeps.lit

theorem actWindowClear_keeps {s0 : State} {a0} {a1} {a2} {s : State} (h : Keeps s0 s) :
    Keeps s0 (actWindowClear a0 a1 a2 s).2 := by
  unfold actWindowClear
  repeat' first
    | with_reducible assumption
    | with_reducible apply winTell_keeps
    | (intro _)
    | (extract_lets +onlyGivenNames x; refine Keeps.cut (s0 := s0) (t := x) ?_ (fun hx => ?_) <;> first | (replace hx : Keeps s0 x := hx; clear_value x) | (dsimp only [x]; clear x))
    | split
    | (refine Keeps.prj (by with_reducible assumption) ?_)
    | with_reducible apply Keeps.lit

theorem prepWindowClear_keeps {s0 : State} {a0} {a1} {a2} {s : State} (h : Keeps s0 s) :
    Keeps s0 (prepWindowClear a0 a1 a2 s) := by
  unfold prepWindowClear
  repeat' first
    | with_reducible assumption
    | (intro _)
    | split
    | (refine Keeps.prj (by with_reducible assumption) ?_)
    | with_reducible apply Keeps.lit

theorem execSlWindowClear_keeps {s0 : State} {a0} {a1} {a2} {s : State} (h : Keeps s0 s) :
    KeepsX s0 (execSlWindowClear a0 a1 a2 s) := by
  unfold execSlWindowClear
  repeat' first
    | with_reducible assumption
    | with_reducible apply KeepsX.next
    | with_reducible apply stagePacket_keeps
    | with_reducible apply actWindowClear_keeps
    | with_reducible apply prepWindowClear_keeps
    | (intro _)
    | (extract_lets +onlyGivenNames x; try clear_value x)
    | (refine Keeps.snd (by with_reducible assumption) ?_)
    | (refine Keeps.prj (by with_reducible assumption) ?_)
    | with_reducible apply Keeps.lit

theorem slRekey_keeps {s0 : State} {a0} {s : State} (h : Keeps s0 s) :
    Keeps s0 (slRekey a0 s) := by
  unfold slRekey
  repeat' first
    | with_reducible assumption
    | with_reducible apply slTransmit_keeps
    | with_reducible apply State.setSlPort_keeps
    | (intro _)
    | (extract_lets +onlyGivenNames x; try clear_value x)
    | (refine Keeps.prj (by with_reducible assumption) ?_)
    | with_reducible apply Keeps.lit

theorem execSlRekey_keeps {s0 : State} {a0} {a1} {s : State} (h : Keeps s0 s) :
    KeepsX s0 (execSlRekey a0 a1 s) := by
  unfold execSlRekey
  repeat' first
    | with_reducible assumption
    | with_reducible apply KeepsX.next
    | with_reducible apply directPacket_keeps
    | with_reducible apply slRekey_keeps
    | (intro _)
    | (extract_lets +onlyGivenNames x; try clear_value x)
    | split
    | (refine Keeps.prj (by with_reducible assumption) ?_)
    | with_reducible apply Keeps.lit

theorem execRekeyStart_keeps {s0 : State} {a0} {a1} {s : State} (h : Keeps s0 s) :
    KeepsX s0 (execRekeyStart a0 a1 s) := by
  unfold execRekeyStart
  repeat' first
    | with_reducible assumption
    | with_reducible apply KeepsX.next
    | with_reducible apply slRekey_keeps
    | with_reducible apply Keeps.later
    | (intro _)
    | (extract_lets +onlyGivenNames x; try clear_value x)
    | split
    | (refine Keeps.prj (by with_reducible assumption) ?_)
    | with_reducible apply Keeps.lit

theorem execHold_keeps {s0 : State} {a0} {s : State} (h : Keeps s0 s) :
    KeepsX s0 (execHold a0 s) := by
  unfold execHold
  repeat' first
    | with_reducible assumption
    | with_reducible apply KeepsX.next
    | with_reducible apply slSettle_keeps
    | with_reducible apply slReset_keeps
    | (intro _)
    | (extract_lets +onlyGivenNames x; try clear_value x)
    | split
    | (refine Keeps.prj (by with_reducible assumption) ?_)
    | with_reducible apply Keeps.lit

theorem execReady_keeps {s0 : State} {a0} {s : State} (h : Keeps s0 s) :
    KeepsX s0 (execReady a0 s) := by
  unfold execReady
  repeat' first
    | with_reducible assumption
    | with_reducible apply KeepsX.next
    | with_reducible apply slEnter_keeps
    | with_reducible apply State.setSlPort_keeps
    | (intro _)
    | (extract_lets +onlyGivenNames x; try clear_value x)
    | split
    | (refine Keeps.prj (by with_reducible assumption) ?_)
    | with_reducible apply Keeps.lit

theorem execAckBlock_keeps {s0 : State} {a0} {a1} {s : State} (h : Keeps s0 s) :
    KeepsX s0 (execAckBlock a0 a1 s) := by
  unfold execAckBlock
  repeat' first
    | with_reducible assumption
    | with_reducible apply KeepsX.next
    | with_reducible apply slCount_keeps
    | with_reducible apply slPump_keeps
    | with_reducible apply State.setSlPort_keeps
    | (intro _)
    | (extract_lets +onlyGivenNames x; try clear_value x)
    | split
    | (refine Keeps.prj (by with_reducible assumption) ?_)
    | with_reducible apply Keeps.lit

theorem execNak_keeps {s0 : State} {a0} {a1} {s : State} (h : Keeps s0 s) :
    KeepsX s0 (execNak a0 a1 s) := by
  unfold execNak
  repeat' first
    | with_reducible assumption
    | with_reducible apply KeepsX.next
    | with_reducible apply State.setSlPort_keeps
    | with_reducible apply foldS_keeps
    | with_reducible apply emit_keeps
    | with_reducible apply slSettle_keeps
    | with_reducible apply slReset_keeps
    | (intro _)
    | (extract_lets +onlyGivenNames x; refine Keeps.cut (s0 := s0) (t := x) ?_ (fun hx => ?_) <;> first | (replace hx : Keeps s0 x := hx; clear_value x) | (dsimp only [x]; clear x))
    | (extract_lets +onlyGivenNames x; try clear_value x)
    | split
    | (refine Keeps.prj (by with_reducible assumption) ?_)
    | with_reducible apply Keeps.lit

theorem execCredit_keeps {s0 : State} {a0} {a1} {a2} {s : State} (h : Keeps s0 s) :
    KeepsX s0 (execCredit a0 a1 a2 s) := by
  unfold execCredit
  repeat' first
    | with_reducible assumption
    | with_reducible apply KeepsX.next
    | with_reducible apply slPump_keeps
    | with_reducible apply State.setSlPort_keeps
    | (intro _)
    | (extract_lets +onlyGivenNames x; try clear_value x)
    | split
    | (refine Keeps.prj (by with_reducible assumption) ?_)
    | with_reducible apply Keeps.lit

theorem execLpi_keeps {s0 : State} {a0} {s : State} (h : Keeps s0 s) :
    KeepsX s0 (execLpi a0 s) := by
  unfold execLpi
  repeat' first
    | with_reducible assumption
    | with_reducible apply KeepsX.next
    | (intro _)
    | (extract_lets +onlyGivenNames x; try clear_value x)
    | (refine Keeps.prj (by with_reducible assumption) ?_)
    | with_reducible apply Keeps.lit

theorem execWake_keeps {s0 : State} {a0} {s : State} (h : Keeps s0 s) :
    KeepsX s0 (execWake a0 s) := by
  unfold execWake
  repeat' first
    | with_reducible assumption
    | with_reducible apply KeepsX.next
    | with_reducible apply slPump_keeps
    | with_reducible apply emit_keeps
    | with_reducible apply State.setSlPort_keeps
    | (intro _)
    | (extract_lets +onlyGivenNames x; try clear_value x)
    | split
    | (refine Keeps.prj (by with_reducible assumption) ?_)
    | with_reducible apply Keeps.lit

theorem execLpiEntry_keeps {s0 : State} {a0} {s : State} (h : Keeps s0 s) :
    KeepsX s0 (execLpiEntry a0 s) := by
  unfold execLpiEntry
  repeat' first
    | with_reducible assumption
    | with_reducible apply KeepsX.next
    | with_reducible apply emit_keeps
    | with_reducible apply State.setSlPort_keeps
    | (intro _)
    | (extract_lets +onlyGivenNames x; try clear_value x)
    | split
    | (refine Keeps.prj (by with_reducible assumption) ?_)
    | with_reducible apply Keeps.lit

theorem execAckInterval_keeps {s0 : State} {a0} {s : State} (h : Keeps s0 s) :
    KeepsX s0 (execAckInterval a0 s) := by
  unfold execAckInterval
  repeat' first
    | with_reducible assumption
    | with_reducible apply KeepsX.next
    | with_reducible apply emit_keeps
    | with_reducible apply State.setSlPort_keeps
    | (intro _)
    | (extract_lets +onlyGivenNames x; try clear_value x)
    | split
    | (refine Keeps.prj (by with_reducible assumption) ?_)
    | with_reducible apply Keeps.lit

theorem slAccept_keeps {s0 : State} {a0} {a1} {s : State} (h : Keeps s0 s) :
    Keeps s0 (slAccept a0 a1 s) := by
  unfold slAccept
  repeat' first
    | with_reducible assumption
    | with_reducible apply slTransmit_keeps
    | with_reducible apply emit_keeps
    | with_reducible apply State.setSlPort_keeps
    | (intro _)
    | (extract_lets +onlyGivenNames x; try clear_value x)
    | split
    | (refine Keeps.prj (by with_reducible assumption) ?_)
    | with_reducible apply Keeps.lit

theorem slDiscard_keeps {s0 : State} {a0} {a1} {s : State} (h : Keeps s0 s) :
    Keeps s0 (slDiscard a0 a1 s) := by
  unfold slDiscard
  repeat' first
    | with_reducible assumption
    | with_reducible apply emit_keeps
    | with_reducible apply State.setSlPort_keeps
    | (intro _)
    | (extract_lets +onlyGivenNames x; try clear_value x)
    | split
    | (refine Keeps.prj (by with_reducible assumption) ?_)
    | with_reducible apply Keeps.lit

theorem execPacket_keeps {s0 : State} {a0} {a1} {s : State} (h : Keeps s0 s) :
    KeepsX s0 (execPacket a0 a1 s) := by
  unfold execPacket
  repeat' first
    | with_reducible assumption
    | with_reducible apply KeepsX.next
    | with_reducible apply slDiscard_keeps
    | with_reducible apply State.setSlPort_keeps
    | with_reducible apply slSettle_keeps
    | with_reducible apply slReset_keeps
    | with_reducible apply slCount_keeps
    | with_reducible apply slAccept_keeps
    | with_reducible apply slRekeyed_keeps
    | (intro _)
    | (extract_lets +onlyGivenNames x; refine Keeps.cut (s0 := s0) (t := x) ?_ (fun hx => ?_) <;> first | (replace hx : Keeps s0 x := hx; clear_value x) | (dsimp only [x]; clear x))
    | (extract_lets +onlyGivenNames x; try clear_value x)
    | split
    | (refine Keeps.prj (by with_reducible assumption) ?_)
    | with_reducible apply Keeps.lit

theorem slPut_keeps {s0 : State} {a0} {a1} {a2} {s : State} (h : Keeps s0 s) :
    Keeps s0 (slPut a0 a1 a2 s) := by
  unfold slPut
  repeat' first
    | with_reducible assumption
    | with_reducible apply State.setSlPort_keeps
    | (intro _)
    | (extract_lets +onlyGivenNames x; try clear_value x)
    | (refine Keeps.prj (by with_reducible assumption) ?_)
    | with_reducible apply Keeps.lit

theorem slReturn_keeps {s0 : State} {a0} {a1} {s : State} (h : Keeps s0 s) :
    Keeps s0 (slReturn a0 a1 s) := by
  unfold slReturn
  repeat' first
    | with_reducible assumption
    | with_reducible apply emit_keeps
    | (intro _)
    | (extract_lets +onlyGivenNames x; try clear_value x)
    | split
    | (refine Keeps.prj (by with_reducible assumption) ?_)
    | with_reducible apply Keeps.lit

theorem slDone_keeps {s0 : State} {a0} {a1} {a2} {s : State} (h : Keeps s0 s) :
    Keeps s0 (slDone a0 a1 a2 s) := by
  unfold slDone
  repeat' first
    | with_reducible assumption
    | with_reducible apply slReturn_keeps
    | with_reducible apply slPut_keeps
    | with_reducible apply slTransmit_keeps
    | with_reducible apply slCount_keeps
    | with_reducible apply slSettle_keeps
    | (intro _)
    | (extract_lets +onlyGivenNames x; refine Keeps.cut (s0 := s0) (t := x) ?_ (fun hx => ?_) <;> first | (replace hx : Keeps s0 x := hx; clear_value x) | (dsimp only [x]; clear x))
    | split
    | (refine Keeps.prj (by with_reducible assumption) ?_)
    | with_reducible apply Keeps.lit

theorem slWriteLines_keeps {s0 : State} {a0} {a1} {a2} {a3} {a4} {s : State} (h : Keeps s0 s) :
    Keeps s0 (slWriteLines a0 a1 a2 a3 a4 s).2.2 := by
  revert h
  fun_induction slWriteLines a0 a1 a2 a3 a4 s
  all_goals intro h
  all_goals repeat' first
    | with_reducible assumption
    | with_reducible apply once_keeps
    | (refine (show Keeps s0 _ → _ by with_reducible assumption) ?_)
    | (intro _)
    | split
    | (refine Keeps.snd (by with_reducible assumption) ?_)
    | (refine Keeps.snd2 (by with_reducible assumption) ?_)
    | (refine Keeps.prj (by with_reducible assumption) ?_)
    | with_reducible apply Keeps.lit

theorem execWrite_keeps {s0 : State} {a0} {a1} {a2} {s : State} (h : Keeps s0 s) :
    KeepsX s0 (execWrite a0 a1 a2 s) := by
  unfold execWrite
  repeat' first
    | with_reducible assumption
    | with_reducible apply KeepsX.next
    | with_reducible apply slDone_keeps
    | with_reducible apply slWriteLines_keeps
    | with_reducible apply slPut_keeps
    | (intro _)
    | (extract_lets +onlyGivenNames x; refine Keeps.cut (s0 := s0) (t := x) ?_ (fun hx => ?_) <;> first | (replace hx : Keeps s0 x := hx; clear_value x) | (dsimp only [x]; clear x))
    | (extract_lets +onlyGivenNames x; try clear_value x)
    | split
    | (refine Keeps.snd2 (by with_reducible assumption) ?_)
    | (refine Keeps.prj (by with_reducible assumption) ?_)
    | with_reducible apply Keeps.lit

theorem slReadLines_keeps {s0 : State} {a0} {a1} {a2} {a3} {a4} {a5} {s : State} (h : Keeps s0 s) :
    Keeps s0 (slReadLines a0 a1 a2 a3 a4 a5 s).2.2 := by
  revert h
  fun_induction slReadLines a0 a1 a2 a3 a4 a5 s
  all_goals intro h
  all_goals repeat' first
    | with_reducible assumption
    | with_reducible apply once_keeps
    | (refine (show Keeps s0 _ → _ by with_reducible assumption) ?_)
    | (intro _)
    | split
    | (refine Keeps.snd (by with_reducible assumption) ?_)
    | (refine Keeps.snd2 (by with_reducible assumption) ?_)
    | (refine Keeps.prj (by with_reducible assumption) ?_)
    | with_reducible apply Keeps.lit

theorem execRead_keeps {s0 : State} {a0} {a1} {a2} {s : State} (h : Keeps s0 s) :
    KeepsX s0 (execRead a0 a1 a2 s) := by
  unfold execRead
  repeat' first
    | with_reducible assumption
    | with_reducible apply KeepsX.next
    | with_reducible apply slDone_keeps
    | with_reducible apply slReadLines_keeps
    | with_reducible apply slPut_keeps
    | (intro _)
    | (extract_lets +onlyGivenNames x; refine Keeps.cut (s0 := s0) (t := x) ?_ (fun hx => ?_) <;> first | (replace hx : Keeps s0 x := hx; clear_value x) | (dsimp only [x]; clear x))
    | (extract_lets +onlyGivenNames x; try clear_value x)
    | split
    | (refine Keeps.snd2 (by with_reducible assumption) ?_)
    | (refine Keeps.prj (by with_reducible assumption) ?_)
    | with_reducible apply Keeps.lit

theorem execRemoteAtomic_keeps {s0 : State} {a0} {a1} {a2} {s : State} (h : Keeps s0 s) :
    KeepsX s0 (execRemoteAtomic a0 a1 a2 s) := by
  unfold execRemoteAtomic
  repeat' first
    | with_reducible assumption
    | with_reducible apply KeepsX.next
    | with_reducible apply slDone_keeps
    | with_reducible apply once_keeps
    | (intro _)
    | (extract_lets +onlyGivenNames x; refine Keeps.cut (s0 := s0) (t := x) ?_ (fun hx => ?_) <;> first | (replace hx : Keeps s0 x := hx; clear_value x) | (dsimp only [x]; clear x))
    | (extract_lets +onlyGivenNames x; try clear_value x)
    | split
    | (refine Keeps.snd (by with_reducible assumption) ?_)
    | (refine Keeps.prj (by with_reducible assumption) ?_)
    | with_reducible apply Keeps.lit

theorem execRemoteFence_keeps {s0 : State} {a0} {a1} {s : State} (h : Keeps s0 s) :
    KeepsX s0 (execRemoteFence a0 a1 s) := by
  unfold execRemoteFence
  repeat' first
    | with_reducible assumption
    | with_reducible apply KeepsX.next
    | with_reducible apply slDone_keeps
    | (intro _)
    | split
    | (refine Keeps.prj (by with_reducible assumption) ?_)
    | with_reducible apply Keeps.lit

theorem execWinState_keeps {s0 : State} {a0} {s : State} (h : Keeps s0 s) :
    KeepsX s0 (execWinState a0 s) := by
  unfold execWinState
  repeat' first
    | with_reducible assumption
    | with_reducible apply KeepsX.next
    | with_reducible apply slDone_keeps
    | (intro _)
    | (extract_lets +onlyGivenNames x; try clear_value x)
    | split
    | (refine Keeps.prj (by with_reducible assumption) ?_)
    | with_reducible apply Keeps.lit

theorem slNextKeys_keeps {s0 : State} {a0} {a1} {s : State} (h : Keeps s0 s) :
    Keeps s0 (slNextKeys a0 a1 s) := by
  unfold slNextKeys
  repeat' first
    | with_reducible assumption
    | with_reducible apply State.setSlPort_keeps
    | with_reducible apply State.bump_keeps
    | (intro _)
    | (extract_lets +onlyGivenNames x; try clear_value x)
    | split
    | (refine Keeps.prj (by with_reducible assumption) ?_)
    | with_reducible apply Keeps.lit

theorem execRekeyKem_keeps {s0 : State} {a0} {s : State} (h : Keeps s0 s) :
    KeepsX s0 (execRekeyKem a0 s) := by
  unfold execRekeyKem
  repeat' first
    | with_reducible assumption
    | with_reducible apply KeepsX.next
    | with_reducible apply slDone_keeps
    | with_reducible apply slNextKeys_keeps
    | with_reducible apply slTransmit_keeps
    | (intro _)
    | (extract_lets +onlyGivenNames x; refine Keeps.cut (s0 := s0) (t := x) ?_ (fun hx => ?_) <;> first | (replace hx : Keeps s0 x := hx; clear_value x) | (dsimp only [x]; clear x))
    | (extract_lets +onlyGivenNames x; try clear_value x)
    | split
    | (refine Keeps.prj (by with_reducible assumption) ?_)
    | with_reducible apply Keeps.lit

theorem execRekeyEncap_keeps {s0 : State} {a0} {s : State} (h : Keeps s0 s) :
    KeepsX s0 (execRekeyEncap a0 s) := by
  unfold execRekeyEncap
  repeat' first
    | with_reducible assumption
    | with_reducible apply KeepsX.next
    | with_reducible apply slDone_keeps
    | with_reducible apply slPump_keeps
    | with_reducible apply slNextKeys_keeps
    | (intro _)
    | (extract_lets +onlyGivenNames x; try clear_value x)
    | split
    | (refine Keeps.prj (by with_reducible assumption) ?_)
    | with_reducible apply Keeps.lit

theorem slResponse_keeps {s0 : State} {a0} {a1} {a2} {a3} {s : State} (h3 : ∀ b0 b1 s, Keeps s0 s → Keeps s0 (a3 b0 b1 s)) (h : Keeps s0 s) :
    Keeps s0 (slResponse a0 a1 a2 a3 s) := by
  unfold slResponse
  repeat' first
    | with_reducible assumption
    | with_reducible apply slReturn_keeps
    | with_reducible apply slPut_keeps
    | with_reducible apply State.setSlPort_keeps
    | with_reducible apply partResetSettle_keeps
    | with_reducible apply settleLaunches_keeps
    | with_reducible apply slSettle_keeps
    | with_reducible apply h3
    | (intro _)
    | (extract_lets +onlyGivenNames x; refine Keeps.cut (s0 := s0) (t := x) ?_ (fun hx => ?_) <;> first | (replace hx : Keeps s0 x := hx; clear_value x) | (dsimp only [x]; clear x))
    | (extract_lets +onlyGivenNames x; try clear_value x)
    | split
    | (refine Keeps.prj (by with_reducible assumption) ?_)
    | with_reducible apply Keeps.lit

theorem execError_keeps {s0 : State} {a0} {s : State} (h : Keeps s0 s) :
    KeepsX s0 (execError a0 s) := by
  unfold execError
  repeat' first
    | with_reducible assumption
    | with_reducible apply KeepsX.next
    | with_reducible apply slResponse_keeps
    | with_reducible apply slComplete_keeps
    | (intro _)
    | (refine Keeps.prj (by with_reducible assumption) ?_)
    | with_reducible apply Keeps.lit

theorem execReadData_keeps {s0 : State} {a0} {s : State} (h : Keeps s0 s) :
    KeepsX s0 (execReadData a0 s) := by
  unfold execReadData
  repeat' first
    | with_reducible assumption
    | with_reducible apply KeepsX.next
    | with_reducible apply slResponse_keeps
    | with_reducible apply slComplete_keeps
    | (intro _)
    | (refine Keeps.prj (by with_reducible assumption) ?_)
    | with_reducible apply Keeps.lit

theorem execAtomicData_keeps {s0 : State} {a0} {s : State} (h : Keeps s0 s) :
    KeepsX s0 (execAtomicData a0 s) := by
  unfold execAtomicData
  repeat' first
    | with_reducible assumption
    | with_reducible apply KeepsX.next
    | with_reducible apply slResponse_keeps
    | with_reducible apply slComplete_keeps
    | (intro _)
    | (refine Keeps.prj (by with_reducible assumption) ?_)
    | with_reducible apply Keeps.lit

theorem slCovered_keeps {s0 : State} {a0} {a1} {s : State} (h : Keeps s0 s) :
    Keeps s0 (slCovered a0 a1 s).2 := by
  unfold slCovered
  repeat' first
    | with_reducible assumption
    | with_reducible apply State.setSlPort_keeps
    | (intro _)
    | (extract_lets +onlyGivenNames x; try clear_value x)
    | (refine Keeps.prj (by with_reducible assumption) ?_)
    | with_reducible apply Keeps.lit

theorem execFenceAck_keeps {s0 : State} {a0} {s : State} (h : Keeps s0 s) :
    KeepsX s0 (execFenceAck a0 s) := by
  unfold execFenceAck
  repeat' first
    | with_reducible assumption
    | with_reducible apply KeepsX.next
    | with_reducible apply slResponse_keeps
    | with_reducible apply slCovered_keeps
    | (intro _)
    | (refine Keeps.snd (by with_reducible assumption) ?_)
    | (refine Keeps.prj (by with_reducible assumption) ?_)
    | with_reducible apply Keeps.lit

theorem execRemoteTimeout_keeps {s0 : State} {a0} {a1} {s : State} (h : Keeps s0 s) :
    KeepsX s0 (execRemoteTimeout a0 a1 s) := by
  unfold execRemoteTimeout
  repeat' first
    | with_reducible assumption
    | with_reducible apply KeepsX.next
    | with_reducible apply State.setSlPort_keeps
    | with_reducible apply slCovered_keeps
    | with_reducible apply slFailAll_keeps
    | with_reducible apply slComplete_keeps
    | with_reducible apply partResetSettle_keeps
    | with_reducible apply settleLaunches_keeps
    | (intro _)
    | (extract_lets +onlyGivenNames x; refine Keeps.cut (s0 := s0) (t := x) ?_ (fun hx => ?_) <;> first | (replace hx : Keeps s0 x := hx; clear_value x) | (dsimp only [x]; clear x))
    | (extract_lets +onlyGivenNames x; try clear_value x)
    | split
    | (refine Keeps.snd (by with_reducible assumption) ?_)
    | (refine Keeps.prj (by with_reducible assumption) ?_)
    | with_reducible apply Keeps.lit

theorem execPhyLock_keeps {s0 : State} {a0} {a1} {s : State} (h : Keeps s0 s) :
    KeepsX s0 (execPhyLock a0 a1 s) := by
  unfold execPhyLock
  repeat' first
    | with_reducible assumption
    | with_reducible apply KeepsX.next
    | with_reducible apply State.setSlPort_keeps
    | with_reducible apply slFail_keeps
    | (intro _)
    | (extract_lets +onlyGivenNames x; try clear_value x)
    | split
    | (refine Keeps.prj (by with_reducible assumption) ?_)
    | with_reducible apply Keeps.lit

theorem execTransmitEqualisationComplete_keeps {s0 : State} {a0} {s : State} (h : Keeps s0 s) :
    KeepsX s0 (execTransmitEqualisationComplete a0 s) := by
  unfold execTransmitEqualisationComplete
  repeat' first
    | with_reducible assumption
    | with_reducible apply KeepsX.next
    | with_reducible apply State.setSlPort_keeps
    | (intro _)
    | (extract_lets +onlyGivenNames x; try clear_value x)
    | split
    | (refine Keeps.prj (by with_reducible assumption) ?_)
    | with_reducible apply Keeps.lit

theorem execQualificationComplete_keeps {s0 : State} {a0} {a1} {s : State} (h : Keeps s0 s) :
    KeepsX s0 (execQualificationComplete a0 a1 s) := by
  unfold execQualificationComplete
  repeat' first
    | with_reducible assumption
    | with_reducible apply KeepsX.next
    | with_reducible apply emit_keeps
    | with_reducible apply State.setSlPort_keeps
    | with_reducible apply slFail_keeps
    | (intro _)
    | (extract_lets +onlyGivenNames x; try clear_value x)
    | split
    | (refine Keeps.prj (by with_reducible assumption) ?_)
    | with_reducible apply Keeps.lit

theorem execHello_keeps {s0 : State} {a0} {a1} {a2} {s : State} (h : Keeps s0 s) :
    KeepsX s0 (execHello a0 a1 a2 s) := by
  unfold execHello
  repeat' first
    | with_reducible assumption
    | with_reducible apply KeepsX.next
    | with_reducible apply State.setSlPort_keeps
    | with_reducible apply slAuthFail_keeps
    | with_reducible apply emit_keeps
    | (intro _)
    | (extract_lets +onlyGivenNames x; refine Keeps.cut (s0 := s0) (t := x) ?_ (fun hx => ?_) <;> first | (replace hx : Keeps s0 x := hx; clear_value x) | (dsimp only [x]; clear x))
    | (extract_lets +onlyGivenNames x; try clear_value x)
    | split
    | (refine Keeps.prj (by with_reducible assumption) ?_)
    | with_reducible apply Keeps.lit

theorem execKem_keeps {s0 : State} {a0} {s : State} (h : Keeps s0 s) :
    KeepsX s0 (execKem a0 s) := by
  unfold execKem
  repeat' first
    | with_reducible assumption
    | with_reducible apply KeepsX.next
    | with_reducible apply emit_keeps
    | with_reducible apply State.setSlPort_keeps
    | (intro _)
    | (extract_lets +onlyGivenNames x; try clear_value x)
    | split
    | (refine Keeps.prj (by with_reducible assumption) ?_)
    | with_reducible apply Keeps.lit

theorem execEncap_keeps {s0 : State} {a0} {a1} {s : State} (h : Keeps s0 s) :
    KeepsX s0 (execEncap a0 a1 s) := by
  unfold execEncap
  repeat' first
    | with_reducible assumption
    | with_reducible apply KeepsX.next
    | with_reducible apply slAgreed_keeps
    | with_reducible apply emit_keeps
    | with_reducible apply slAuthFail_keeps
    | (intro _)
    | (extract_lets +onlyGivenNames x; try clear_value x)
    | split
    | (refine Keeps.prj (by with_reducible assumption) ?_)
    | with_reducible apply Keeps.lit

theorem execFinish_keeps {s0 : State} {a0} {a1} {s : State} (h : Keeps s0 s) :
    KeepsX s0 (execFinish a0 a1 s) := by
  unfold execFinish
  repeat' first
    | with_reducible assumption
    | with_reducible apply KeepsX.next
    | with_reducible apply slAgreed_keeps
    | with_reducible apply slAuthFail_keeps
    | (intro _)
    | (extract_lets +onlyGivenNames x; try clear_value x)
    | split
    | (refine Keeps.prj (by with_reducible assumption) ?_)
    | with_reducible apply Keeps.lit

theorem execBerMeasurement_keeps {s0 : State} {a0} {a1} {a2} {s : State} (h : Keeps s0 s) :
    KeepsX s0 (execBerMeasurement a0 a1 a2 s) := by
  unfold execBerMeasurement
  repeat' first
    | with_reducible assumption
    | with_reducible apply KeepsX.next
    | with_reducible apply State.setSlPort_keeps
    | with_reducible apply slEvent_keeps
    | (intro _)
    | (extract_lets +onlyGivenNames x; refine Keeps.cut (s0 := s0) (t := x) ?_ (fun hx => ?_) <;> first | (replace hx : Keeps s0 x := hx; clear_value x) | (dsimp only [x]; clear x))
    | (extract_lets +onlyGivenNames x; try clear_value x)
    | split
    | (refine Keeps.prj (by with_reducible assumption) ?_)
    | with_reducible apply Keeps.lit

theorem execSloythLinkLoss_keeps {s0 : State} {a0} {s : State} (h : Keeps s0 s) :
    KeepsX s0 (execSloythLinkLoss a0 s) := by
  unfold execSloythLinkLoss
  repeat' first
    | with_reducible assumption
    | with_reducible apply KeepsX.next
    | with_reducible apply slSettle_keeps
    | with_reducible apply slReset_keeps
    | with_reducible apply slFail_keeps
    | (intro _)
    | (extract_lets +onlyGivenNames x; try clear_value x)
    | split
    | (refine Keeps.prj (by with_reducible assumption) ?_)
    | with_reducible apply Keeps.lit

end Sys2Proof.Machine
end

