-- ==== Sys2Proof/Laws/KeepsUnit.lean ====
section
/-!
SUPPORT. Keeps for security, power, transactions, resets, cast-on and registers.
-/
set_option linter.all false

namespace Sys2Proof.Machine

/-! ### Security -/

theorem secEvent_keeps {s0 : State} {a0} {a1} {s : State} (h : Keeps s0 s) :
    Keeps s0 (secEvent a0 a1 s) := by
  unfold secEvent
  repeat' first
    | with_reducible assumption
    | with_reducible apply hubEvent_keeps
    | (intro _)
    | (refine Keeps.prj (by with_reducible assumption) ?_)
    | with_reducible apply Keeps.lit

theorem authFailed_keeps {s0 : State} {a0} {s : State} (h : Keeps s0 s) :
    Keeps s0 (authFailed a0 s).2 := by
  unfold authFailed
  repeat' first
    | with_reducible assumption
    | with_reducible apply secEvent_keeps
    | (intro _)
    | (refine Keeps.prj (by with_reducible assumption) ?_)
    | with_reducible apply Keeps.lit

theorem lcTake_keeps {s0 : State} {s : State} (h : Keeps s0 s) :
    Keeps s0 (lcTake s) := by
  unfold lcTake
  repeat' first
    | with_reducible assumption
    | (intro _)
    | (extract_lets +onlyGivenNames x; try clear_value x)
    | (refine Keeps.prj (by with_reducible assumption) ?_)
    | with_reducible apply Keeps.lit

theorem extendM3_keeps {s0 : State} {s : State} (h : Keeps s0 s) :
    Keeps s0 (extendM3 s) := by
  unfold extendM3
  repeat' first
    | with_reducible assumption
    | with_reducible apply State.extend_keeps
    | (intro _)
    | (refine Keeps.prj (by with_reducible assumption) ?_)
    | with_reducible apply Keeps.lit

theorem fuseStep_keeps {s0 s : State} {a1 : FuseStep} (h : Keeps s0 s) : Keeps s0 (fuseStep s a1) := by
  cases a1 with
  | blow i =>
    have k : Keeps s0 { s with fuse := { s.fuse with lc := s.fuse.lc ||| BitVec.ofNat 112 (2 ^ i) } } :=
      h.withFuse { FuseLater.refl s.fuse with lc := and_or_keep _ BitVec.and_self }
    unfold fuseStep
    dsimp only
    split
    · exact k.same (s := { s with fuse := { s.fuse with lc := s.fuse.lc ||| BitVec.ofNat 112 (2 ^ i) } }) rfl rfl rfl rfl
    · exact k
  | owner i => exact h.withFuse { FuseLater.refl s.fuse with ownerRoot := and_or_keep _ BitVec.and_self }
  | erase => exact Keeps.lit h

theorem lcBoot_keeps {s0 : State} {s : State} (h : Keeps s0 s) :
    Keeps s0 (lcBoot s) := by
  unfold lcBoot
  repeat' first
    | with_reducible assumption
    | with_reducible apply fuseStep_keeps
    | with_reducible apply lcTake_keeps
    | with_reducible apply foldl_keeps
    | with_reducible apply foldl_keeps_snd
    | with_reducible apply Keeps.lit
    | (intro _)
    | (extract_lets +onlyGivenNames x; refine Keeps.cut (s0 := s0) (t := x) ?_ (fun hx => ?_) <;> first | (replace hx : Keeps s0 x := hx; clear_value x) | (dsimp only [x]; clear x))
    | (extract_lets +onlyGivenNames x; try clear_value x)
    | (refine Keeps.prj (by with_reducible assumption) ?_)
    | with_reducible apply Keeps.lit

theorem setAsm_keeps {s0 : State} {a0} {a1} {s : State} (h : Keeps s0 s) :
    Keeps s0 (setAsm a0 a1 s) := by
  unfold setAsm
  repeat' first
    | with_reducible assumption
    | (intro _)
    | (extract_lets +onlyGivenNames x; try clear_value x)
    | split
    | (refine Keeps.prj (by with_reducible assumption) ?_)
    | with_reducible apply Keeps.lit

theorem fragTake_keeps {s0 : State} {a0} {a1} {a2} {a3} {s : State} (h : Keeps s0 s) :
    Keeps s0 (fragTake a0 a1 a2 a3 s).2 := by
  unfold fragTake
  repeat' first
    | with_reducible assumption
    | with_reducible apply setAsm_keeps
    | (intro _)
    | (extract_lets +onlyGivenNames x; try clear_value x)
    | split
    | (refine Keeps.prj (by with_reducible assumption) ?_)
    | with_reducible apply Keeps.lit

theorem fragPacket_keeps {s0 : State} {a0} {a1} {a2} {a3} {a4} {s : State} (h4 : ∀ s, Keeps s0 s → Keeps s0 (a4 s).2) (h : Keeps s0 s) :
    Keeps s0 (fragPacket a0 a1 a2 a3 a4 s) := by
  unfold fragPacket
  repeat' first
    | with_reducible assumption
    | with_reducible apply directPacket_keeps
    | with_reducible apply fragTake_keeps
    | with_reducible apply h4
    | (intro _)
    | split
    | (refine Keeps.snd (by with_reducible assumption) ?_)
    | (refine Keeps.prj (by with_reducible assumption) ?_)
    | with_reducible apply Keeps.lit

theorem actFwUpdate_keeps {s0 : State} {a0} {a1} {s : State} (h : Keeps s0 s) :
    Keeps s0 (actFwUpdate a0 a1 s).2 := by
  unfold actFwUpdate
  repeat' first
    | with_reducible assumption
    | with_reducible apply authFailed_keeps
    | with_reducible apply secEvent_keeps
    | (intro _)
    | (extract_lets +onlyGivenNames x; try clear_value x)
    | split
    | (refine Keeps.snd (by with_reducible assumption) ?_)
    | (refine Keeps.prj (by with_reducible assumption) ?_)
    | with_reducible apply Keeps.lit

theorem execFwUpdate_keeps {s0 : State} {a0} {a1} {a2} {a3} {s : State} (h : Keeps s0 s) :
    KeepsX s0 (execFwUpdate a0 a1 a2 a3 s) := by
  unfold execFwUpdate
  repeat' first
    | with_reducible assumption
    | with_reducible apply KeepsX.next
    | with_reducible apply fragPacket_keeps
    | with_reducible apply actFwUpdate_keeps
    | (intro _)
    | (refine Keeps.snd (by with_reducible assumption) ?_)
    | (refine Keeps.prj (by with_reducible assumption) ?_)
    | with_reducible apply Keeps.lit

theorem actProfileSet_keeps {s0 : State} {o : SignedObj} {profile : Nat} {s : State} (h : Keeps s0 s) :
    Keeps s0 (actProfileSet o profile s).2 := by
  unfold actProfileSet
  split
  · exact h
  · split
    · exact h
    · split
      · exact authFailed_keeps h
      · split
        · exact h
        · split
          · exact h
          · rename_i hp
            exact Keeps.withFuse h { FuseLater.refl s.fuse with profile := fun c => absurd c hp }

theorem execProfileSet_keeps {s0 : State} {a0} {a1} {a2} {a3} {s : State} (h : Keeps s0 s) :
    KeepsX s0 (execProfileSet a0 a1 a2 a3 s) := by
  unfold execProfileSet
  repeat' first
    | with_reducible assumption
    | with_reducible apply KeepsX.next
    | with_reducible apply fragPacket_keeps
    | with_reducible apply actProfileSet_keeps
    | (intro _)
    | (refine Keeps.snd (by with_reducible assumption) ?_)
    | (refine Keeps.prj (by with_reducible assumption) ?_)
    | with_reducible apply Keeps.lit

theorem lcGoverns_keeps {s0 : State} {s : State} (h : Keeps s0 s) :
    Keeps s0 (lcGoverns s) := by
  unfold lcGoverns
  repeat' first
    | with_reducible assumption
    | with_reducible apply foldS_keeps
    | with_reducible apply slReset_keeps
    | (intro _)
    | split
    | (refine Keeps.prj (by with_reducible assumption) ?_)
    | with_reducible apply Keeps.lit

theorem actLcTransition_keeps {s0 : State} {a0} {a1} {a2} {a3} {a4} {s : State} (h : Keeps s0 s) :
    Keeps s0 (actLcTransition a0 a1 a2 a3 a4 s).2 := by
  unfold actLcTransition
  repeat' first
    | with_reducible assumption
    | with_reducible apply authFailed_keeps
    | (intro _)
    | (extract_lets +onlyGivenNames x; try clear_value x)
    | split
    | (refine Keeps.snd (by with_reducible assumption) ?_)
    | (refine Keeps.prj (by with_reducible assumption) ?_)
    | with_reducible apply Keeps.lit

theorem execLcTransition_keeps {s0 : State} {a0} {a1} {a2} {a3} {a4} {a5} {a6} {a7} {s : State} (h : Keeps s0 s) :
    KeepsX s0 (execLcTransition a0 a1 a2 a3 a4 a5 a6 a7 s) := by
  unfold execLcTransition
  repeat' first
    | with_reducible assumption
    | with_reducible apply KeepsX.next
    | with_reducible apply reply_keeps
    | with_reducible apply fragTake_keeps
    | with_reducible apply actLcTransition_keeps
    | with_reducible apply fuseStep_keeps
    | with_reducible apply lcGoverns_keeps
    | with_reducible apply extendM3_keeps
    | with_reducible apply lcTake_keeps
    | with_reducible apply secEvent_keeps
    | with_reducible apply foldl_keeps
    | with_reducible apply foldl_keeps_snd
    | (intro _)
    | (extract_lets +onlyGivenNames x; refine Keeps.cut (s0 := s0) (t := x) ?_ (fun hx => ?_) <;> first | (replace hx : Keeps s0 x := hx; clear_value x) | (dsimp only [x]; clear x))
    | (extract_lets +onlyGivenNames x; try clear_value x)
    | split
    | (refine Keeps.snd (by with_reducible assumption) ?_)
    | (refine Keeps.prj (by with_reducible assumption) ?_)
    | with_reducible apply Keeps.lit

theorem attestPacket_keeps {s0 : State} {a0} {a1} {a2} {s : State} (h2 : ∀ s, Keeps s0 s → Keeps s0 (a2 s).2) (h : Keeps s0 s) :
    Keeps s0 (attestPacket a0 a1 a2 s) := by
  unfold attestPacket
  repeat' first
    | with_reducible assumption
    | with_reducible apply directPacket_keeps
    | with_reducible apply fragTake_keeps
    | with_reducible apply h2
    | (intro _)
    | split
    | (refine Keeps.snd (by with_reducible assumption) ?_)
    | (refine Keeps.prj (by with_reducible assumption) ?_)
    | with_reducible apply Keeps.lit

theorem setBuilt_keeps {s0 : State} {a0} {a1} {a2} {s : State} (h : Keeps s0 s) :
    Keeps s0 (setBuilt a0 a1 a2 s) := by
  unfold setBuilt
  repeat' first
    | with_reducible assumption
    | (intro _)
    | (extract_lets +onlyGivenNames x; try clear_value x)
    | (refine Keeps.prj (by with_reducible assumption) ?_)
    | with_reducible apply Keeps.lit

theorem execAttestReport_keeps {s0 : State} {a0} {a1} {a2} {s : State} (h : Keeps s0 s) :
    KeepsX s0 (execAttestReport a0 a1 a2 s) := by
  unfold execAttestReport
  repeat' first
    | with_reducible assumption
    | with_reducible apply KeepsX.next
    | with_reducible apply attestPacket_keeps
    | with_reducible apply setBuilt_keeps
    | (intro _)
    | (extract_lets +onlyGivenNames x; try clear_value x)
    | split
    | (refine Keeps.prj (by with_reducible assumption) ?_)
    | with_reducible apply Keeps.lit

theorem execAttestIdentity_keeps {s0 : State} {a0} {a1} {s : State} (h : Keeps s0 s) :
    KeepsX s0 (execAttestIdentity a0 a1 s) := by
  unfold execAttestIdentity
  repeat' first
    | with_reducible assumption
    | with_reducible apply KeepsX.next
    | with_reducible apply attestPacket_keeps
    | with_reducible apply setBuilt_keeps
    | (intro _)
    | (refine Keeps.prj (by with_reducible assumption) ?_)
    | with_reducible apply Keeps.lit

theorem execAttestRead_keeps {s0 : State} {a0} {a1} {a2} {s : State} (h : Keeps s0 s) :
    KeepsX s0 (execAttestRead a0 a1 a2 s) := by
  unfold execAttestRead
  repeat' first
    | with_reducible assumption
    | with_reducible apply KeepsX.next
    | with_reducible apply attestPacket_keeps
    | (intro _)
    | (extract_lets +onlyGivenNames x; try clear_value x)
    | split
    | (refine Keeps.prj (by with_reducible assumption) ?_)
    | with_reducible apply Keeps.lit

theorem execDebugChallenge_keeps {s0 : State} {a0} {a1} {s : State} (h : Keeps s0 s) :
    KeepsX s0 (execDebugChallenge a0 a1 s) := by
  unfold execDebugChallenge
  repeat' first
    | with_reducible assumption
    | with_reducible apply KeepsX.next
    | with_reducible apply directPacket_keeps
    | (intro _)
    | (extract_lets +onlyGivenNames x; try clear_value x)
    | split
    | (refine Keeps.prj (by with_reducible assumption) ?_)
    | with_reducible apply Keeps.lit

theorem execChallengeLapse_keeps {s0 : State} {s : State} (h : Keeps s0 s) :
    KeepsX s0 (execChallengeLapse s) := by
  unfold execChallengeLapse
  repeat' first
    | with_reducible assumption
    | with_reducible apply KeepsX.next
    | (intro _)
    | (extract_lets +onlyGivenNames x; try clear_value x)
    | (refine Keeps.prj (by with_reducible assumption) ?_)
    | with_reducible apply Keeps.lit

theorem execDebugLockoutEnd_keeps {s0 : State} {s : State} (h : Keeps s0 s) :
    KeepsX s0 (execDebugLockoutEnd s) := by
  unfold execDebugLockoutEnd
  repeat' first
    | with_reducible assumption
    | with_reducible apply KeepsX.next
    | with_reducible apply Keeps.later
    | (intro _)
    | (refine Keeps.prj (by with_reducible assumption) ?_)
    | with_reducible apply Keeps.lit

theorem zeroiseSlots_keeps {s0 : State} {s : State} (h : Keeps s0 s) :
    Keeps s0 (zeroiseSlots s) := by
  unfold zeroiseSlots
  repeat' first
    | with_reducible assumption
    | (intro _)
    | (refine Keeps.prj (by with_reducible assumption) ?_)
    | with_reducible apply Keeps.lit

theorem debugUnlock_keeps {s0 : State} {a0} {a1} {s : State} (h : Keeps s0 s) :
    Keeps s0 (debugUnlock a0 a1 s) := by
  unfold debugUnlock
  repeat' first
    | with_reducible assumption
    | with_reducible apply foldS_keeps
    | with_reducible apply slReset_keeps
    | with_reducible apply zeroiseSlots_keeps
    | with_reducible apply secEvent_keeps
    | with_reducible apply State.extend_keeps
    | (intro _)
    | (extract_lets +onlyGivenNames x; refine Keeps.cut (s0 := s0) (t := x) ?_ (fun hx => ?_) <;> first | (replace hx : Keeps s0 x := hx; clear_value x) | (dsimp only [x]; clear x))
    | (extract_lets +onlyGivenNames x; try clear_value x)
    | split
    | (refine Keeps.prj (by with_reducible assumption) ?_)
    | with_reducible apply Keeps.lit

theorem actDebugResponse_keeps {s0 : State} {a0} {a1} {s : State} (h : Keeps s0 s) :
    Keeps s0 (actDebugResponse a0 a1 s).2 := by
  unfold actDebugResponse
  repeat' first
    | with_reducible assumption
    | with_reducible apply authFailed_keeps
    | with_reducible apply debugUnlock_keeps
    | (intro _)
    | (extract_lets +onlyGivenNames x; refine Keeps.cut (s0 := s0) (t := x.2) ?_ (fun hx => ?_) <;> first | (replace hx : Keeps s0 x.2 := hx; clear_value x) | (dsimp only [x]; clear x))
    | (extract_lets +onlyGivenNames x; try clear_value x)
    | split
    | (refine Keeps.snd (by with_reducible assumption) ?_)
    | (refine Keeps.prj (by with_reducible assumption) ?_)
    | with_reducible apply Keeps.lit

theorem execDebugResponse_keeps {s0 : State} {a0} {a1} {a2} {a3} {s : State} (h : Keeps s0 s) :
    KeepsX s0 (execDebugResponse a0 a1 a2 a3 s) := by
  unfold execDebugResponse
  repeat' first
    | with_reducible assumption
    | with_reducible apply KeepsX.next
    | with_reducible apply fragPacket_keeps
    | with_reducible apply actDebugResponse_keeps
    | (intro _)
    | (refine Keeps.snd (by with_reducible assumption) ?_)
    | (refine Keeps.prj (by with_reducible assumption) ?_)
    | with_reducible apply Keeps.lit

theorem actKeyBind_keeps {s0 : State} {a0} {a1} {s : State} (h : Keeps s0 s) :
    Keeps s0 (actKeyBind a0 a1 s).2 := by
  unfold actKeyBind
  repeat' first
    | with_reducible assumption
    | (intro _)
    | (extract_lets +onlyGivenNames x; try clear_value x)
    | split
    | (refine Keeps.prj (by with_reducible assumption) ?_)
    | with_reducible apply Keeps.lit

theorem execKeySlotBind_keeps {s0 : State} {a0} {a1} {s : State} (h : Keeps s0 s) :
    KeepsX s0 (execKeySlotBind a0 a1 s) := by
  unfold execKeySlotBind
  repeat' first
    | with_reducible assumption
    | with_reducible apply KeepsX.next
    | with_reducible apply stagePacket_keeps
    | with_reducible apply actKeyBind_keeps
    | with_reducible apply noPrep_keeps
    | (intro _)
    | (refine Keeps.snd (by with_reducible assumption) ?_)
    | (refine Keeps.prj (by with_reducible assumption) ?_)
    | with_reducible apply Keeps.lit

theorem drainDrop_keeps {s0 : State} {a0} {s : State} (h : Keeps s0 s) :
    Keeps s0 (drainDrop a0 s) := by
  unfold drainDrop
  repeat' first
    | with_reducible assumption
    | with_reducible apply mscDrop_keeps
    | with_reducible apply exchange_keeps
    | with_reducible apply foldS_keeps
    | with_reducible apply recallAll_keeps
    | (intro _)
    | (extract_lets +onlyGivenNames x; refine Keeps.cut (s0 := s0) (t := x) ?_ (fun hx => ?_) <;> first | (replace hx : Keeps s0 x := hx; clear_value x) | (dsimp only [x]; clear x))
    | split
    | (refine Keeps.prj (by with_reducible assumption) ?_)
    | with_reducible apply Keeps.lit

theorem drainEnd_keeps {s0 : State} {a0} {a1} {s : State} (h : Keeps s0 s) :
    Keeps s0 (drainEnd a0 a1 s) := by
  unfold drainEnd
  repeat' first
    | with_reducible assumption
    | with_reducible apply secEvent_keeps
    | with_reducible apply State.touch_keeps
    | with_reducible apply reply_keeps
    | (intro _)
    | (extract_lets +onlyGivenNames x; refine Keeps.cut (s0 := s0) (t := x) ?_ (fun hx => ?_) <;> first | (replace hx : Keeps s0 x := hx; clear_value x) | (dsimp only [x]; clear x))
    | (extract_lets +onlyGivenNames x; try clear_value x)
    | split
    | (refine Keeps.prj (by with_reducible assumption) ?_)
    | with_reducible apply Keeps.lit

theorem drainRun_keeps {s0 : State} {a0} {s : State} (h : Keeps s0 s) :
    Keeps s0 (drainRun a0 s) := by
  unfold drainRun
  repeat' first
    | with_reducible assumption
    | with_reducible apply drainDrop_keeps
    | with_reducible apply drainEnd_keeps
    | (intro _)
    | (extract_lets +onlyGivenNames x; refine Keeps.cut (s0 := s0) (t := x) ?_ (fun hx => ?_) <;> first | (replace hx : Keeps s0 x := hx; clear_value x) | (dsimp only [x]; clear x))
    | (extract_lets +onlyGivenNames x; try clear_value x)
    | split
    | (refine Keeps.prj (by with_reducible assumption) ?_)
    | with_reducible apply Keeps.lit

theorem drainSettle_keeps {s0 : State} {s : State} (h : Keeps s0 s) :
    Keeps s0 (drainSettle s) := by
  unfold drainSettle
  repeat' first
    | with_reducible assumption
    | with_reducible apply foldS_keeps
    | with_reducible apply drainRun_keeps
    | (intro _)
    | (refine Keeps.prj (by with_reducible assumption) ?_)
    | with_reducible apply Keeps.lit

theorem execKeySlotDrain_keeps {s0 : State} {a0} {s : State} (h : Keeps s0 s) :
    KeepsX s0 (execKeySlotDrain a0 s) := by
  unfold execKeySlotDrain
  repeat' first
    | with_reducible assumption
    | with_reducible apply KeepsX.next
    | with_reducible apply reply_keeps
    | with_reducible apply State.touch_keeps
    | with_reducible apply slFenceAll_keeps
    | with_reducible apply drainRun_keeps
    | (intro _)
    | (extract_lets +onlyGivenNames x; refine Keeps.cut (s0 := s0) (t := x) ?_ (fun hx => ?_) <;> first | (replace hx : Keeps s0 x := hx; clear_value x) | (dsimp only [x]; clear x))
    | (extract_lets +onlyGivenNames x; try clear_value x)
    | split
    | (refine Keeps.prj (by with_reducible assumption) ?_)
    | with_reducible apply Keeps.lit

theorem drainOne_keeps {s0 : State} {a0} {s : State} (h : Keeps s0 s) :
    Keeps s0 (drainOne a0 s) := by
  unfold drainOne
  repeat' first
    | with_reducible assumption
    | with_reducible apply State.setLine_keeps
    | with_reducible apply coreFault_keeps
    | with_reducible apply agentFault_keeps
    | (intro _)
    | (extract_lets +onlyGivenNames x; refine Keeps.cut (s0 := s0) (t := x) ?_ (fun hx => ?_) <;> first | (replace hx : Keeps s0 x := hx; clear_value x) | (dsimp only [x]; clear x))
    | (extract_lets +onlyGivenNames x; try clear_value x)
    | split
    | (refine Keeps.prj (by with_reducible assumption) ?_)
    | with_reducible apply Keeps.lit

theorem execKeyDrainTimeout_keeps {s0 : State} {a0} {s : State} (h : Keeps s0 s) :
    KeepsX s0 (execKeyDrainTimeout a0 s) := by
  unfold execKeyDrainTimeout
  repeat' first
    | with_reducible assumption
    | with_reducible apply KeepsX.next
    | with_reducible apply foldS_keeps
    | with_reducible apply drainOne_keeps
    | with_reducible apply slFault_keeps
    | with_reducible apply partResetSettle_keeps
    | with_reducible apply settleLaunches_keeps
    | with_reducible apply drainRun_keeps
    | with_reducible apply foldl_keeps
    | with_reducible apply foldl_keeps_snd
    | (intro _)
    | (extract_lets +onlyGivenNames x; refine Keeps.cut (s0 := s0) (t := x) ?_ (fun hx => ?_) <;> first | (replace hx : Keeps s0 x := hx; clear_value x) | (dsimp only [x]; clear x))
    | (extract_lets +onlyGivenNames x; try clear_value x)
    | split
    | (refine Keeps.prj (by with_reducible assumption) ?_)
    | with_reducible apply Keeps.lit

/-! ### Shed -/

theorem shedRaise_keeps {s0 : State} {a0} {a1} {a2} {s : State} (h : Keeps s0 s) :
    Keeps s0 (shedRaise a0 a1 a2 s) := by
  unfold shedRaise
  repeat' first
    | with_reducible assumption
    | with_reducible apply hubEvent_keeps
    | (intro _)
    | (extract_lets +onlyGivenNames x; try clear_value x)
    | (refine Keeps.prj (by with_reducible assumption) ?_)
    | with_reducible apply Keeps.lit

theorem shedNote_keeps {s0 : State} {a0} {a1} {s : State} (h : Keeps s0 s) :
    Keeps s0 (shedNote a0 a1 s) := by
  unfold shedNote
  repeat' first
    | with_reducible assumption
    | with_reducible apply shedRaise_keeps
    | (intro _)
    | (extract_lets +onlyGivenNames x; try clear_value x)
    | split
    | (refine Keeps.prj (by with_reducible assumption) ?_)
    | with_reducible apply Keeps.lit

theorem shedTell_keeps {s0 : State} {s : State} (h : Keeps s0 s) :
    Keeps s0 (shedTell s) := by
  unfold shedTell
  repeat' first
    | with_reducible assumption
    | with_reducible apply foldS_keeps
    | with_reducible apply shedRaise_keeps
    | (intro _)
    | split
    | (refine Keeps.prj (by with_reducible assumption) ?_)
    | with_reducible apply Keeps.lit

theorem rollbackAll_keeps {s0 : State} {s : State} (h : Keeps s0 s) :
    Keeps s0 (rollbackAll s) := by
  unfold rollbackAll
  repeat' first
    | with_reducible assumption
    | (intro _)
    | (extract_lets +onlyGivenNames x; try clear_value x)
    | (refine Keeps.prj (by with_reducible assumption) ?_)
    | with_reducible apply Keeps.lit

theorem enterL4_keeps {s0 : State} {s : State} (h : Keeps s0 s) :
    Keeps s0 (enterL4 s) := by
  unfold enterL4
  repeat' first
    | with_reducible assumption
    | with_reducible apply abandonMoves_keeps
    | with_reducible apply rollbackAll_keeps
    | with_reducible apply recallOwned_keeps
    | with_reducible apply foldS_keeps
    | with_reducible apply clusterGone_keeps
    | (intro _)
    | (extract_lets +onlyGivenNames x; refine Keeps.cut (s0 := s0) (t := x) ?_ (fun hx => ?_) <;> first | (replace hx : Keeps s0 x := hx; clear_value x) | (dsimp only [x]; clear x))
    | (refine Keeps.prj (by with_reducible assumption) ?_)
    | with_reducible apply Keeps.lit

theorem enterL6_keeps {s0 : State} {s : State} (h : Keeps s0 s) :
    Keeps s0 (enterL6 s) := by
  unfold enterL6
  repeat' first
    | with_reducible assumption
    | (intro _)
    | (refine Keeps.prj (by with_reducible assumption) ?_)
    | with_reducible apply Keeps.lit

theorem shedRise_keeps {s0 : State} {a0} {s : State} (h : Keeps s0 s) :
    Keeps s0 (shedRise a0 s) := by
  unfold shedRise
  repeat' first
    | with_reducible assumption
    | with_reducible apply smbSet_keeps
    | with_reducible apply enterL4_keeps
    | with_reducible apply enterL6_keeps
    | with_reducible apply shedNote_keeps
    | with_reducible apply drainSettle_keeps
    | with_reducible apply slShed_keeps
    | with_reducible apply shedSites_keeps
    | (intro _)
    | (extract_lets +onlyGivenNames x; refine Keeps.cut (s0 := s0) (t := x) ?_ (fun hx => ?_) <;> first | (replace hx : Keeps s0 x := hx; clear_value x) | (dsimp only [x]; clear x))
    | (extract_lets +onlyGivenNames x; try clear_value x)
    | split
    | (refine Keeps.prj (by with_reducible assumption) ?_)
    | with_reducible apply Keeps.lit

theorem shedCheck_keeps {s0 : State} {s : State} (h : Keeps s0 s) :
    Keeps s0 (shedCheck s) := by
  unfold shedCheck
  repeat' first
    | with_reducible assumption
    | with_reducible apply shedRise_keeps
    | (intro _)
    | split
    | (refine Keeps.prj (by with_reducible assumption) ?_)
    | with_reducible apply Keeps.lit

theorem execRailSample_keeps {s0 : State} {a0} {s : State} (h : Keeps s0 s) :
    KeepsX s0 (execRailSample a0 s) := by
  unfold execRailSample
  repeat' first
    | with_reducible assumption
    | with_reducible apply KeepsX.next
    | with_reducible apply shedCheck_keeps
    | (intro _)
    | (extract_lets +onlyGivenNames x; try clear_value x)
    | (refine Keeps.prj (by with_reducible assumption) ?_)
    | with_reducible apply Keeps.lit

theorem execPwrFailN_keeps {s0 : State} {a0} {s : State} (h : Keeps s0 s) :
    KeepsX s0 (execPwrFailN a0 s) := by
  unfold execPwrFailN
  repeat' first
    | with_reducible assumption
    | with_reducible apply KeepsX.next
    | with_reducible apply shedCheck_keeps
    | (intro _)
    | (extract_lets +onlyGivenNames x; try clear_value x)
    | (refine Keeps.prj (by with_reducible assumption) ?_)
    | with_reducible apply Keeps.lit

theorem execShedLevelFall_keeps {s0 : State} {s : State} (h : Keeps s0 s) :
    KeepsX s0 (execShedLevelFall s) := by
  unfold execShedLevelFall
  repeat' first
    | with_reducible assumption
    | with_reducible apply KeepsX.next
    | with_reducible apply quiesceSettle_keeps
    | with_reducible apply shedNote_keeps
    | with_reducible apply drainSettle_keeps
    | with_reducible apply slShed_keeps
    | with_reducible apply shedSites_keeps
    | (intro _)
    | (extract_lets +onlyGivenNames x; refine Keeps.cut (s0 := s0) (t := x) ?_ (fun hx => ?_) <;> first | (replace hx : Keeps s0 x := hx; clear_value x) | (dsimp only [x]; clear x))
    | (extract_lets +onlyGivenNames x; try clear_value x)
    | split
    | (refine Keeps.prj (by with_reducible assumption) ?_)
    | with_reducible apply Keeps.lit

/-! ### PowerHeat -/

theorem setCap_keeps {s0 : State} {a0} {a1} {s : State} (h : Keeps s0 s) :
    Keeps s0 (setCap a0 a1 s) := by
  unfold setCap
  repeat' first
    | with_reducible assumption
    | with_reducible apply foldS_keeps
    | (intro _)
    | (extract_lets +onlyGivenNames x; try clear_value x)
    | (refine Keeps.prj (by with_reducible assumption) ?_)
    | with_reducible apply Keeps.lit

theorem powerLower_keeps {s0 : State} {s : State} (h : Keeps s0 s) :
    Keeps s0 (powerLower s) := by
  unfold powerLower
  repeat' first
    | with_reducible assumption
    | with_reducible apply setCap_keeps
    | with_reducible apply foldS_keeps
    | (intro _)
    | (extract_lets +onlyGivenNames x; try clear_value x)
    | split
    | (refine Keeps.prj (by with_reducible assumption) ?_)
    | with_reducible apply Keeps.lit

theorem powerRaise_keeps {s0 : State} {s : State} (h : Keeps s0 s) :
    Keeps s0 (powerRaise s) := by
  unfold powerRaise
  repeat' first
    | with_reducible assumption
    | with_reducible apply setCap_keeps
    | with_reducible apply foldS_keeps
    | (intro _)
    | (extract_lets +onlyGivenNames x; try clear_value x)
    | split
    | (refine Keeps.prj (by with_reducible assumption) ?_)
    | with_reducible apply Keeps.lit

theorem coolantWatch_keeps {s0 : State} {s : State} (h : Keeps s0 s) :
    Keeps s0 (coolantWatch s) := by
  unfold coolantWatch
  repeat' first
    | with_reducible assumption
    | with_reducible apply thermalEvent_keeps
    | (intro _)
    | (extract_lets +onlyGivenNames x; refine Keeps.cut (s0 := s0) (t := x) ?_ (fun hx => ?_) <;> first | (replace hx : Keeps s0 x := hx; clear_value x) | (dsimp only [x]; clear x))
    | (extract_lets +onlyGivenNames x; try clear_value x)
    | split
    | (refine Keeps.prj (by with_reducible assumption) ?_)
    | with_reducible apply Keeps.lit

theorem execPowerControlTick_keeps {s0 : State} {a0} {a1} {a2} {s : State} (h : Keeps s0 s) :
    KeepsX s0 (execPowerControlTick a0 a1 a2 s) := by
  unfold execPowerControlTick
  repeat' first
    | with_reducible assumption
    | with_reducible apply KeepsX.next
    | with_reducible apply coolantWatch_keeps
    | with_reducible apply powerLower_keeps
    | with_reducible apply powerRaise_keeps
    | (intro _)
    | (extract_lets +onlyGivenNames x; refine Keeps.cut (s0 := s0) (t := x) ?_ (fun hx => ?_) <;> first | (replace hx : Keeps s0 x := hx; clear_value x) | (dsimp only [x]; clear x))
    | (extract_lets +onlyGivenNames x; try clear_value x)
    | split
    | (refine Keeps.prj (by with_reducible assumption) ?_)
    | with_reducible apply Keeps.lit

theorem execRegulatorAlert_keeps {s0 : State} {s : State} (h : Keeps s0 s) :
    KeepsX s0 (execRegulatorAlert s) := by
  unfold execRegulatorAlert
  repeat' first
    | with_reducible assumption
    | with_reducible apply KeepsX.next
    | (intro _)
    | (extract_lets +onlyGivenNames x; try clear_value x)
    | (refine Keeps.prj (by with_reducible assumption) ?_)
    | with_reducible apply Keeps.lit

theorem execRegulatorAlertClear_keeps {s0 : State} {s : State} (h : Keeps s0 s) :
    KeepsX s0 (execRegulatorAlertClear s) := by
  unfold execRegulatorAlertClear
  repeat' first
    | with_reducible assumption
    | with_reducible apply KeepsX.next
    | (intro _)
    | (extract_lets +onlyGivenNames x; try clear_value x)
    | split
    | (refine Keeps.prj (by with_reducible assumption) ?_)
    | with_reducible apply Keeps.lit

theorem trip_keeps {s0 : State} {s : State} (h : Keeps s0 s) :
    Keeps s0 (trip s) := by
  unfold trip
  repeat' first
    | with_reducible assumption
    | (intro _)
    | (extract_lets +onlyGivenNames x; try clear_value x)
    | split
    | (refine Keeps.prj (by with_reducible assumption) ?_)
    | with_reducible apply Keeps.lit

theorem execThermtrip_keeps {s0 : State} {s : State} (h : Keeps s0 s) :
    KeepsX s0 (execThermtrip s) := by
  unfold execThermtrip
  repeat' first
    | with_reducible assumption
    | with_reducible apply KeepsX.next
    | with_reducible apply trip_keeps
    | (intro _)
    | (refine Keeps.prj (by with_reducible assumption) ?_)
    | with_reducible apply Keeps.lit

theorem execDieTemperatureSample_keeps {s0 : State} {a0} {a1} {s : State} (h : Keeps s0 s) :
    KeepsX s0 (execDieTemperatureSample a0 a1 s) := by
  unfold execDieTemperatureSample
  repeat' first
    | with_reducible assumption
    | with_reducible apply KeepsX.next
    | with_reducible apply thermalEvent_keeps
    | with_reducible apply trip_keeps
    | with_reducible apply hf
    | (intro _)
    | (extract_lets +onlyGivenNames x; refine Keeps.cut (s0 := s0) (t := x) ?_ (fun hx => ?_) <;> first | (replace hx : Keeps s0 x := hx; clear_value x) | (dsimp only [x]; clear x))
    | (extract_lets +onlyGivenNames f; refine Keeps.cutS1 (s0 := s0) (f := f) ?_ (fun hf => ?_) <;> first | (replace hf : ∀ a s, Keeps s0 s → Keeps s0 (f a s) := hf; clear_value f) | (dsimp only [f]; clear f))
    | (extract_lets +onlyGivenNames x; try clear_value x)
    | split
    | (refine Keeps.prj (by with_reducible assumption) ?_)
    | with_reducible apply Keeps.lit

theorem enterFailsafe_keeps {s0 : State} {s : State} (h : Keeps s0 s) :
    Keeps s0 (enterFailsafe s) := by
  unfold enterFailsafe
  repeat' first
    | with_reducible assumption
    | (intro _)
    | (extract_lets +onlyGivenNames x; try clear_value x)
    | (refine Keeps.prj (by with_reducible assumption) ?_)
    | with_reducible apply Keeps.lit

theorem storeRead_keeps {s0 : State} {a0} {s : State} (h : Keeps s0 s) :
    Keeps s0 (storeRead a0 s) := by
  unfold storeRead
  repeat' first
    | with_reducible assumption
    | with_reducible apply shedCheck_keeps
    | (intro _)
    | (extract_lets +onlyGivenNames x; try clear_value x)
    | split
    | (refine Keeps.prj (by with_reducible assumption) ?_)
    | with_reducible apply Keeps.lit

theorem execSensorRead_keeps {s0 : State} {a0} {a1} {s : State} (h : Keeps s0 s) :
    KeepsX s0 (execSensorRead a0 a1 s) := by
  unfold execSensorRead
  repeat' first
    | with_reducible assumption
    | with_reducible apply KeepsX.next
    | with_reducible apply enterFailsafe_keeps
    | with_reducible apply thermalEvent_keeps
    | with_reducible apply storeRead_keeps
    | (intro _)
    | (extract_lets +onlyGivenNames x; refine Keeps.cut (s0 := s0) (t := x) ?_ (fun hx => ?_) <;> first | (replace hx : Keeps s0 x := hx; clear_value x) | (dsimp only [x]; clear x))
    | (extract_lets +onlyGivenNames x; try clear_value x)
    | split
    | (refine Keeps.prj (by with_reducible assumption) ?_)
    | with_reducible apply Keeps.lit

theorem execFlowFault_keeps {s0 : State} {a0} {s : State} (h : Keeps s0 s) :
    KeepsX s0 (execFlowFault a0 s) := by
  unfold execFlowFault
  repeat' first
    | with_reducible assumption
    | with_reducible apply KeepsX.next
    | with_reducible apply enterFailsafe_keeps
    | with_reducible apply thermalEvent_keeps
    | (intro _)
    | (extract_lets +onlyGivenNames x; try clear_value x)
    | split
    | (refine Keeps.prj (by with_reducible assumption) ?_)
    | with_reducible apply Keeps.lit

theorem execFailsafeEnd_keeps {s0 : State} {s : State} (h : Keeps s0 s) :
    KeepsX s0 (execFailsafeEnd s) := by
  unfold execFailsafeEnd
  repeat' first
    | with_reducible assumption
    | with_reducible apply KeepsX.next
    | (intro _)
    | (extract_lets +onlyGivenNames x; try clear_value x)
    | split
    | (refine Keeps.prj (by with_reducible assumption) ?_)
    | with_reducible apply Keeps.lit

theorem execLoopSetpointUpdate_keeps {s0 : State} {s : State} (h : Keeps s0 s) :
    KeepsX s0 (execLoopSetpointUpdate s) := by
  unfold execLoopSetpointUpdate
  repeat' first
    | with_reducible assumption
    | with_reducible apply KeepsX.next
    | (intro _)
    | (extract_lets +onlyGivenNames x; try clear_value x)
    | split
    | (refine Keeps.prj (by with_reducible assumption) ?_)
    | with_reducible apply Keeps.lit

theorem execPumpDutyUpdate_keeps {s0 : State} {a0} {a1} {s : State} (h : Keeps s0 s) :
    KeepsX s0 (execPumpDutyUpdate a0 a1 s) := by
  unfold execPumpDutyUpdate
  repeat' first
    | with_reducible assumption
    | with_reducible apply KeepsX.next
    | (intro _)
    | (extract_lets +onlyGivenNames x; try clear_value x)
    | split
    | (refine Keeps.prj (by with_reducible assumption) ?_)
    | with_reducible apply Keeps.lit

theorem execPowerQuery_keeps {s0 : State} {a0} {s : State} (h : Keeps s0 s) :
    KeepsX s0 (execPowerQuery a0 s) := by
  unfold execPowerQuery
  repeat' first
    | with_reducible assumption
    | with_reducible apply KeepsX.next
    | with_reducible apply directPacket_keeps
    | (intro _)
    | (refine Keeps.prj (by with_reducible assumption) ?_)
    | with_reducible apply Keeps.lit

/-! ### RegFields -/

theorem pcgScrub_keeps {s0 : State} {a0} {s : State} (h : Keeps s0 s) :
    Keeps s0 (pcgScrub a0 s) := by
  unfold pcgScrub
  repeat' first
    | with_reducible assumption
    | (intro _)
    | split
    | (refine Keeps.prj (by with_reducible assumption) ?_)
    | with_reducible apply Keeps.lit

theorem pcgHub_keeps {s0 : State} {a0} {a1} {s : State} (h : Keeps s0 s) :
    Keeps s0 (pcgHub a0 a1 s) := by
  unfold pcgHub
  repeat' first
    | with_reducible assumption
    | with_reducible apply mscDrop_keeps
    | with_reducible apply foldl_keeps
    | with_reducible apply foldl_keeps_snd
    | (intro _)
    | (extract_lets +onlyGivenNames x; refine Keeps.cut (s0 := s0) (t := x) ?_ (fun hx => ?_) <;> first | (replace hx : Keeps s0 x := hx; clear_value x) | (dsimp only [x]; clear x))
    | (extract_lets +onlyGivenNames x; try clear_value x)
    | (refine Keeps.prj (by with_reducible assumption) ?_)
    | with_reducible apply Keeps.lit

theorem entryApply_keeps {s0 : State} {a0} {s : State} (h : Keeps s0 s) :
    KeepsE s0 (entryApply a0 s) := by
  unfold entryApply
  repeat' first
    | with_reducible assumption
    | with_reducible apply KeepsE.ok
    | exact KeepsE.error
    | with_reducible apply State.setReg_keeps
    | with_reducible apply pcgScrub_keeps
    | with_reducible apply pcgHub_keeps
    | with_reducible apply slReset_keeps
    | with_reducible apply slStartAll_keeps
    | (intro _)
    | (extract_lets +onlyGivenNames x; refine Keeps.cut (s0 := s0) (t := x) ?_ (fun hx => ?_) <;> first | (replace hx : Keeps s0 x := hx; clear_value x) | (dsimp only [x]; clear x))
    | (extract_lets +onlyGivenNames x; try clear_value x)
    | split
    | (refine Keeps.prj (by with_reducible assumption) ?_)
    | with_reducible apply Keeps.lit

theorem entriesApply_keeps {s0 : State} {a0} {s : State} (h : Keeps s0 s) :
    KeepsE s0 (entriesApply a0 s) := by
  revert h
  fun_induction entriesApply a0 s
  all_goals intro h
  all_goals repeat' first
    | with_reducible assumption
    | with_reducible apply KeepsE.ok
    | exact KeepsE.error
    | with_reducible apply entryApply_keeps
    | (refine (show Keeps s0 _ → _ by with_reducible assumption) ?_)
    | (intro _)
    | split
    | (refine Keeps.exc (by with_reducible assumption) ?_)
    | (refine Keeps.prj (by with_reducible assumption) ?_)
    | with_reducible apply Keeps.lit

/-! ### Txn -/

theorem opAct_keeps {s0 : State} {a0} {a1} {s : State} (h : Keeps s0 s) :
    Keeps s0 (opAct a0 a1 s).2 := by
  unfold opAct
  repeat' first
    | with_reducible assumption
    | with_reducible apply actCtxCreate_keeps
    | with_reducible apply actCtxDestroy_keeps
    | with_reducible apply actSegSet_keeps
    | with_reducible apply actSegClear_keeps
    | with_reducible apply actMap_keeps
    | with_reducible apply actUnmap_keeps
    | with_reducible apply actGranuleBind_keeps
    | with_reducible apply actGranuleUnbind_keeps
    | with_reducible apply actQueueCreate_keeps
    | with_reducible apply actQueueEnable_keeps
    | with_reducible apply actQueueDisable_keeps
    | with_reducible apply actQueueDestroy_keeps
    | with_reducible apply actFenceCreate_keeps
    | with_reducible apply actFenceDestroy_keeps
    | with_reducible apply actPool_keeps
    | with_reducible apply grantOne_keeps
    | with_reducible apply withdrawOne_keeps
    | with_reducible apply actLayout_keeps
    | with_reducible apply actInstCreate_keeps
    | with_reducible apply actInstDestroy_keeps
    | with_reducible apply actGrantRequest_keeps
    | with_reducible apply actGrantAperture_keeps
    | with_reducible apply actGrantWithdraw_keeps
    | with_reducible apply actWindowSet_keeps
    | with_reducible apply actWindowClear_keeps
    | with_reducible apply actKeyBind_keeps
    | with_reducible apply entriesApply_keeps
    | (intro _)
    | split
    | (refine Keeps.snd (by with_reducible assumption) ?_)
    | (refine Keeps.exc (by with_reducible assumption) ?_)
    | (refine Keeps.prj (by with_reducible assumption) ?_)
    | with_reducible apply Keeps.lit

theorem opPrep_keeps {s0 : State} {a0} {a1} {s : State} (h : Keeps s0 s) :
    Keeps s0 (opPrep a0 a1 s) := by
  unfold opPrep
  repeat' first
    | with_reducible assumption
    | with_reducible apply prepUnmap_keeps
    | with_reducible apply prepSegClear_keeps
    | with_reducible apply prepQueueDisable_keeps
    | with_reducible apply prepUnbind_keeps
    | with_reducible apply prepWithdraw_keeps
    | with_reducible apply prepWindowClear_keeps
    | (intro _)
    | split
    | (refine Keeps.prj (by with_reducible assumption) ?_)
    | with_reducible apply Keeps.lit

theorem runOps_keeps {s0 : State} {a0} {a1} {a2} {a3} {s : State} (h : Keeps s0 s) :
    KeepsE s0 (runOps a0 a1 a2 a3 s) := by
  revert h
  fun_induction runOps a0 a1 a2 a3 s
  all_goals intro h
  all_goals repeat' first
    | with_reducible assumption
    | with_reducible apply KeepsE.ok
    | exact KeepsE.error
    | with_reducible apply opAct_keeps
    | (refine (show Keeps s0 _ → _ by with_reducible assumption) ?_)
    | (intro _)
    | split
    | (refine Keeps.snd (by with_reducible assumption) ?_)
    | (refine Keeps.exc (by with_reducible assumption) ?_)
    | (refine Keeps.prj (by with_reducible assumption) ?_)
    | with_reducible apply Keeps.lit

theorem commitFail_keeps {s0 : State} {a0} {a1} {a2} {s : State} (h : Keeps s0 s) :
    Keeps s0 (commitFail a0 a1 a2 s).2 := by
  unfold commitFail
  repeat' first
    | with_reducible assumption
    | (intro _)
    | split
    | (refine Keeps.prj (by with_reducible assumption) ?_)
    | with_reducible apply Keeps.lit

theorem applyOps_keeps {s0 : State} {a0} {s : State} (h : Keeps s0 s) :
    Keeps s0 (applyOps a0 s) := by
  unfold applyOps
  repeat' first
    | with_reducible assumption
    | with_reducible apply opAct_keeps
    | with_reducible apply foldl_keeps
    | with_reducible apply foldl_keeps_snd
    | (intro _)
    | split
    | (refine Keeps.snd (by with_reducible assumption) ?_)
    | (refine Keeps.prj (by with_reducible assumption) ?_)
    | with_reducible apply Keeps.lit

theorem changeEnd_keeps {s0 : State} {a0} {s : State} (h : Keeps s0 s) :
    Keeps s0 (changeEnd a0 s) := by
  unfold changeEnd
  repeat' first
    | with_reducible assumption
    | with_reducible apply unprep_keeps
    | with_reducible apply opAct_keeps
    | with_reducible apply reply_keeps
    | with_reducible apply stampAll_keeps
    | with_reducible apply applyOps_keeps
    | with_reducible apply slSettle_keeps
    | with_reducible apply foldS_keeps
    | with_reducible apply siteSettle_keeps
    | (intro _)
    | (extract_lets +onlyGivenNames x; refine Keeps.cut (s0 := s0) (t := x) ?_ (fun hx => ?_) <;> first | (replace hx : Keeps s0 x := hx; clear_value x) | (dsimp only [x]; clear x))
    | (extract_lets +onlyGivenNames x; try clear_value x)
    | split
    | (refine Keeps.snd (by with_reducible assumption) ?_)
    | (refine Keeps.prj (by with_reducible assumption) ?_)
    | with_reducible apply Keeps.lit

theorem changeGo_keeps {s0 : State} {a0} {s : State} (h : Keeps s0 s) :
    Keeps s0 (changeGo a0 s) := by
  unfold changeGo
  repeat' first
    | with_reducible assumption
    | with_reducible apply changeEnd_keeps
    | (intro _)
    | split
    | (refine Keeps.prj (by with_reducible assumption) ?_)
    | with_reducible apply Keeps.lit

theorem settleChanges_keeps {s0 : State} {s : State} (h : Keeps s0 s) :
    Keeps s0 (settleChanges s) := by
  unfold settleChanges
  repeat' first
    | with_reducible assumption
    | with_reducible apply foldS_keeps
    | with_reducible apply changeGo_keeps
    | (intro _)
    | (refine Keeps.prj (by with_reducible assumption) ?_)
    | with_reducible apply Keeps.lit

theorem commitTxn_keeps {s0 : State} {p : Pkt} {t : Txn} {s : State} (h : Keeps s0 s) : Keeps s0 (commitTxn p t s) := by
  unfold commitTxn
  extract_lets id
  split
  · exact reply_keeps (Keeps.lit h)
  · split
    · dsimp only
      exact reply_keeps (commitFail_keeps h)
    · exact changeGo_keeps (foldS_keeps (fun _ _ k => opPrep_keeps k) (Keeps.lit h))

theorem execQueueDisabled_keeps {s0 : State} {a0} {s : State} (h : Keeps s0 s) :
    KeepsX s0 (execQueueDisabled a0 s) := by
  unfold execQueueDisabled
  repeat' first
    | with_reducible assumption
    | with_reducible apply KeepsX.next
    | with_reducible apply foldS_keeps
    | with_reducible apply changeGo_keeps
    | (intro _)
    | split
    | (refine Keeps.prj (by with_reducible assumption) ?_)
    | with_reducible apply Keeps.lit

theorem execTxnBegin_keeps {s0 : State} {a0} {a1} {s : State} (h : Keeps s0 s) :
    KeepsX s0 (execTxnBegin a0 a1 s) := by
  unfold execTxnBegin
  repeat' first
    | with_reducible assumption
    | with_reducible apply KeepsX.next
    | with_reducible apply reply_keeps
    | with_reducible apply replyTo'_keeps
    | (intro _)
    | (extract_lets +onlyGivenNames x; try clear_value x)
    | split
    | (refine Keeps.prj (by with_reducible assumption) ?_)
    | with_reducible apply Keeps.lit

theorem execTxnCommit_keeps {s0 : State} {p : Pkt} {s : State} (h : Keeps s0 s) : KeepsX s0 (execTxnCommit p s) := by
  unfold execTxnCommit
  repeat' first
    | exact .next h
    | exact .next (reply_keeps h)
    | exact .next (commitTxn_keeps h)
    | exact .next (Keeps.lit h)
    | split

theorem execTxnRollback_keeps {s0 : State} {a0} {s : State} (h : Keeps s0 s) :
    KeepsX s0 (execTxnRollback a0 s) := by
  unfold execTxnRollback
  repeat' first
    | with_reducible assumption
    | with_reducible apply KeepsX.next
    | with_reducible apply reply_keeps
    | (intro _)
    | split
    | (refine Keeps.prj (by with_reducible assumption) ?_)
    | with_reducible apply Keeps.lit

theorem execTxnQuery_keeps {s0 : State} {a0} {s : State} (h : Keeps s0 s) :
    KeepsX s0 (execTxnQuery a0 s) := by
  unfold execTxnQuery
  repeat' first
    | with_reducible assumption
    | with_reducible apply KeepsX.next
    | with_reducible apply reply_keeps
    | with_reducible apply foldl_keeps
    | with_reducible apply foldl_keeps_snd
    | (intro _)
    | (extract_lets +onlyGivenNames x; try clear_value x)
    | split
    | (refine Keeps.prj (by with_reducible assumption) ?_)
    | with_reducible apply Keeps.lit

theorem execTxnIdleTimeout_keeps {s0 : State} {a0} {s : State} (h : Keeps s0 s) :
    KeepsX s0 (execTxnIdleTimeout a0 s) := by
  unfold execTxnIdleTimeout
  repeat' first
    | with_reducible assumption
    | with_reducible apply KeepsX.next
    | (intro _)
    | split
    | (refine Keeps.prj (by with_reducible assumption) ?_)
    | with_reducible apply Keeps.lit

theorem execRegStage_keeps {s0 : State} {a0} {a1} {s : State} (h : Keeps s0 s) :
    KeepsX s0 (execRegStage a0 a1 s) := by
  unfold execRegStage
  repeat' first
    | with_reducible assumption
    | with_reducible apply KeepsX.next
    | with_reducible apply reply_keeps
    | with_reducible apply stagePacket_keeps
    | with_reducible apply noPrep_keeps
    | (intro _)
    | (extract_lets +onlyGivenNames x; try clear_value x)
    | split
    | (refine Keeps.prj (by with_reducible assumption) ?_)
    | with_reducible apply Keeps.lit

/-! ### Resets -/

theorem castOnStart_keeps {s0 : State} {a0} {a1} {s : State} (h : Keeps s0 s) :
    Keeps s0 (castOnStart a0 a1 s) := by
  unfold castOnStart
  repeat' first
    | with_reducible assumption
    | (intro _)
    | (extract_lets +onlyGivenNames x; try clear_value x)
    | (refine Keeps.prj (by with_reducible assumption) ?_)
    | with_reducible apply Keeps.lit

theorem hardReset_keeps {s0 : State} {a0 : Bool} {s : State} (h : Keeps s0 s) : Keeps s0 (hardReset a0 s) :=
  shedCheck_keeps (foldS_keeps (fun _ _ k => emit_keeps k) ⟨h.fuse, fun _ => wf_nil, h.queue, h.time⟩)

theorem released_keeps {s0 : State} {s : State} (h : Keeps s0 s) :
    Keeps s0 (released s) := by
  unfold released
  repeat' first
    | with_reducible assumption
    | with_reducible apply castOnStart_keeps
    | (intro _)
    | split
    | (refine Keeps.prj (by with_reducible assumption) ?_)
    | with_reducible apply Keeps.lit

theorem execPowerOnReset_keeps {s0 : State} {s : State} (h : Keeps s0 s) :
    KeepsX s0 (execPowerOnReset s) := by
  unfold execPowerOnReset
  repeat' first
    | with_reducible assumption
    | with_reducible apply KeepsX.next
    | with_reducible apply hardReset_keeps
    | (intro _)
    | (extract_lets +onlyGivenNames x; try clear_value x)
    | (refine Keeps.prj (by with_reducible assumption) ?_)
    | with_reducible apply Keeps.lit

theorem execPorNDeassert_keeps {s0 : State} {s : State} (h : Keeps s0 s) :
    KeepsX s0 (execPorNDeassert s) := by
  unfold execPorNDeassert
  repeat' first
    | with_reducible assumption
    | with_reducible apply KeepsX.next
    | with_reducible apply released_keeps
    | (intro _)
    | (extract_lets +onlyGivenNames x; try clear_value x)
    | split
    | (refine Keeps.prj (by with_reducible assumption) ?_)
    | with_reducible apply Keeps.lit

theorem execPerst_keeps {s0 : State} {s : State} (h : Keeps s0 s) :
    KeepsX s0 (execPerst s) := by
  unfold execPerst
  repeat' first
    | with_reducible assumption
    | with_reducible apply KeepsX.next
    | with_reducible apply hardReset_keeps
    | (intro _)
    | (extract_lets +onlyGivenNames x; refine Keeps.cut (s0 := s0) (t := x) ?_ (fun hx => ?_) <;> first | (replace hx : Keeps s0 x := hx; clear_value x) | (dsimp only [x]; clear x))
    | (extract_lets +onlyGivenNames x; try clear_value x)
    | split
    | (refine Keeps.prj (by with_reducible assumption) ?_)
    | with_reducible apply Keeps.lit

theorem execPerstDeassert_keeps {s0 : State} {s : State} (h : Keeps s0 s) :
    KeepsX s0 (execPerstDeassert s) := by
  unfold execPerstDeassert
  repeat' first
    | with_reducible assumption
    | with_reducible apply KeepsX.next
    | with_reducible apply released_keeps
    | (intro _)
    | (extract_lets +onlyGivenNames x; try clear_value x)
    | split
    | (refine Keeps.prj (by with_reducible assumption) ?_)
    | with_reducible apply Keeps.lit

theorem cutPackets_keeps {s0 : State} {s : State} (h : Keeps s0 s) :
    Keeps s0 (cutPackets s) := by
  unfold cutPackets
  repeat' first
    | with_reducible assumption
    | with_reducible apply foldS_keeps
    | with_reducible apply reply_keeps
    | with_reducible apply unprep_keeps
    | with_reducible apply rollbackAll_keeps
    | (intro _)
    | (extract_lets +onlyGivenNames x; refine Keeps.cut (s0 := s0) (t := x) ?_ (fun hx => ?_) <;> first | (replace hx : Keeps s0 x := hx; clear_value x) | (dsimp only [x]; clear x))
    | (extract_lets +onlyGivenNames x; try clear_value x)
    | split
    | (refine Keeps.prj (by with_reducible assumption) ?_)
    | with_reducible apply Keeps.lit

theorem warmStop_keeps {s0 : State} {s : State} (h : Keeps s0 s) :
    Keeps s0 (warmStop s) := by
  unfold warmStop
  repeat' first
    | with_reducible assumption
    | with_reducible apply foldS_keeps
    | with_reducible apply stopCore_keeps
    | with_reducible apply loseByReset_keeps
    | with_reducible apply abandonMoves_keeps
    | with_reducible apply slFenceAll_keeps
    | (intro _)
    | (extract_lets +onlyGivenNames x; refine Keeps.cut (s0 := s0) (t := x) ?_ (fun hx => ?_) <;> first | (replace hx : Keeps s0 x := hx; clear_value x) | (dsimp only [x]; clear x))
    | (extract_lets +onlyGivenNames x; try clear_value x)
    | (refine Keeps.prj (by with_reducible assumption) ?_)
    | with_reducible apply Keeps.lit

theorem landData_keeps {s0 : State} {s : State} (h : Keeps s0 s) :
    Keeps s0 (landData s) := by
  unfold landData
  repeat' first
    | with_reducible assumption
    | with_reducible apply homeWrite_keeps
    | with_reducible apply foldS_keeps
    | with_reducible apply hf
    | (intro _)
    | (extract_lets +onlyGivenNames x; refine Keeps.cut (s0 := s0) (t := x) ?_ (fun hx => ?_) <;> first | (replace hx : Keeps s0 x := hx; clear_value x) | (dsimp only [x]; clear x))
    | (extract_lets +onlyGivenNames f; refine Keeps.cutS1 (s0 := s0) (f := f) ?_ (fun hf => ?_) <;> first | (replace hf : ∀ a s, Keeps s0 s → Keeps s0 (f a s) := hf; clear_value f) | (dsimp only [f]; clear f))
    | (extract_lets +onlyGivenNames x; try clear_value x)
    | split
    | (refine Keeps.prj (by with_reducible assumption) ?_)
    | with_reducible apply Keeps.lit

theorem cutLines_keeps {s0 : State} {s : State} (h : Keeps s0 s) :
    Keeps s0 (cutLines s) := by
  unfold cutLines
  repeat' first
    | with_reducible assumption
    | (intro _)
    | (extract_lets +onlyGivenNames x; try clear_value x)
    | split
    | (refine Keeps.prj (by with_reducible assumption) ?_)
    | with_reducible apply Keeps.lit

theorem warmSite_keeps {s0 : State} {a0} {s : State} (h : Keeps s0 s) :
    Keeps s0 (warmSite a0 s) := by
  unfold warmSite
  repeat' first
    | with_reducible assumption
    | with_reducible apply siteSettle_keeps
    | with_reducible apply State.setSite_keeps
    | with_reducible apply siteReset_keeps
    | (intro _)
    | (extract_lets +onlyGivenNames x; try clear_value x)
    | split
    | (refine Keeps.prj (by with_reducible assumption) ?_)
    | with_reducible apply Keeps.lit

theorem warmRecall_keeps {s0 : State} {s : State} (h : Keeps s0 s) :
    Keeps s0 (warmRecall s) := by
  unfold warmRecall
  repeat' first
    | with_reducible assumption
    | with_reducible apply cutLines_keeps
    | with_reducible apply landData_keeps
    | with_reducible apply foldS_keeps
    | with_reducible apply clusterGone_keeps
    | with_reducible apply warmSite_keeps
    | (intro _)
    | (extract_lets +onlyGivenNames x; refine Keeps.cut (s0 := s0) (t := x) ?_ (fun hx => ?_) <;> first | (replace hx : Keeps s0 x := hx; clear_value x) | (dsimp only [x]; clear x))
    | (extract_lets +onlyGivenNames x; try clear_value x)
    | (refine Keeps.prj (by with_reducible assumption) ?_)
    | with_reducible apply Keeps.lit

theorem warmSelfRefresh_keeps {s0 : State} {s : State} (h : Keeps s0 s) :
    Keeps s0 (warmSelfRefresh s) := by
  unfold warmSelfRefresh
  repeat' first
    | with_reducible assumption
    | with_reducible apply mscDrop_keeps
    | (intro _)
    | (extract_lets +onlyGivenNames x; refine Keeps.cut (s0 := s0) (t := x) ?_ (fun hx => ?_) <;> first | (replace hx : Keeps s0 x := hx; clear_value x) | (dsimp only [x]; clear x))
    | (extract_lets +onlyGivenNames x; try clear_value x)
    | (refine Keeps.prj (by with_reducible assumption) ?_)
    | with_reducible apply Keeps.lit

theorem stopClocks_keeps {s0 : State} {s : State} (h : Keeps s0 s) :
    Keeps s0 (stopClocks s) := by
  unfold stopClocks
  repeat' first
    | with_reducible assumption
    | (intro _)
    | split
    | (refine Keeps.prj (by with_reducible assumption) ?_)
    | with_reducible apply Keeps.lit

theorem warmReset_keeps {s0 : State} {s : State} (h : Keeps s0 s) :
    Keeps s0 (warmReset s) := by
  unfold warmReset
  repeat' first
    | with_reducible assumption
    | with_reducible apply slWarm_keeps
    | with_reducible apply foldS_keeps
    | with_reducible apply emptyQueue_keeps
    | with_reducible apply stopClocks_keeps
    | with_reducible apply castOnStart_keeps
    | with_reducible apply Keeps.lit
    | (intro _)
    | (extract_lets +onlyGivenNames x; refine Keeps.cut (s0 := s0) (t := x) ?_ (fun hx => ?_) <;> first | (replace hx : Keeps s0 x := hx; clear_value x) | (dsimp only [x]; clear x))
    | (extract_lets +onlyGivenNames x; try clear_value x)
    | (refine Keeps.prj (by with_reducible assumption) ?_)
    | with_reducible apply Keeps.lit

theorem warmAdvance_keeps {s0 : State} {s : State} (h : Keeps s0 s) :
    Keeps s0 (warmAdvance s) := by
  unfold warmAdvance
  repeat' first
    | with_reducible assumption
    | with_reducible apply warmStop_keeps
    | with_reducible apply warmRecall_keeps
    | with_reducible apply warmSelfRefresh_keeps
    | with_reducible apply warmReset_keeps
    | (intro _)
    | (extract_lets +onlyGivenNames x; refine Keeps.cut (s0 := s0) (t := x) ?_ (fun hx => ?_) <;> first | (replace hx : Keeps s0 x := hx; clear_value x) | (dsimp only [x]; clear x))
    | split
    | (refine Keeps.prj (by with_reducible assumption) ?_)
    | with_reducible apply Keeps.lit

theorem warmStart_keeps {s0 : State} {a0} {s : State} (h : Keeps s0 s) :
    Keeps s0 (warmStart a0 s) := by
  unfold warmStart
  repeat' first
    | with_reducible assumption
    | with_reducible apply warmAdvance_keeps
    | with_reducible apply cutPackets_keeps
    | (intro _)
    | (extract_lets +onlyGivenNames x; refine Keeps.cut (s0 := s0) (t := x) ?_ (fun hx => ?_) <;> first | (replace hx : Keeps s0 x := hx; clear_value x) | (dsimp only [x]; clear x))
    | (extract_lets +onlyGivenNames x; try clear_value x)
    | (refine Keeps.prj (by with_reducible assumption) ?_)
    | with_reducible apply Keeps.lit

theorem warmTrigger_keeps {s0 : State} {a0} {s : State} (h : Keeps s0 s) :
    Keeps s0 (warmTrigger a0 s) := by
  unfold warmTrigger
  repeat' first
    | with_reducible assumption
    | with_reducible apply warmStart_keeps
    | (intro _)
    | (extract_lets +onlyGivenNames x; try clear_value x)
    | split
    | (refine Keeps.prj (by with_reducible assumption) ?_)
    | with_reducible apply Keeps.lit

theorem resetCtl_keeps {s0 : State} {a0} {s : State} (h : Keeps s0 s) :
    Keeps s0 (resetCtl a0 s) := by
  unfold resetCtl
  repeat' first
    | with_reducible assumption
    | with_reducible apply warmTrigger_keeps
    | (intro _)
    | split
    | (refine Keeps.prj (by with_reducible assumption) ?_)
    | with_reducible apply Keeps.lit

theorem execWarmReset_keeps {s0 : State} {a0} {s : State} (h : Keeps s0 s) :
    KeepsX s0 (execWarmReset a0 s) := by
  unfold execWarmReset
  repeat' first
    | with_reducible assumption
    | with_reducible apply KeepsX.next
    | with_reducible apply resetCtl_keeps
    | (intro _)
    | split
    | (refine Keeps.prj (by with_reducible assumption) ?_)
    | with_reducible apply Keeps.lit

theorem execWarmN_keeps {s0 : State} {s : State} (h : Keeps s0 s) :
    KeepsX s0 (execWarmN s) := by
  unfold execWarmN
  repeat' first
    | with_reducible assumption
    | with_reducible apply KeepsX.next
    | with_reducible apply warmTrigger_keeps
    | (intro _)
    | (refine Keeps.prj (by with_reducible assumption) ?_)
    | with_reducible apply Keeps.lit

theorem execHmfWatchdogExpiry_keeps {s0 : State} {s : State} (h : Keeps s0 s) :
    KeepsX s0 (execHmfWatchdogExpiry s) := by
  unfold execHmfWatchdogExpiry
  repeat' first
    | with_reducible assumption
    | with_reducible apply KeepsX.next
    | with_reducible apply warmTrigger_keeps
    | (intro _)
    | (refine Keeps.prj (by with_reducible assumption) ?_)
    | with_reducible apply Keeps.lit

theorem execDeferredWarmResetStart_keeps {s0 : State} {s : State} (h : Keeps s0 s) :
    KeepsX s0 (execDeferredWarmResetStart s) := by
  unfold execDeferredWarmResetStart
  repeat' first
    | with_reducible assumption
    | with_reducible apply KeepsX.next
    | with_reducible apply warmStart_keeps
    | (intro _)
    | split
    | (refine Keeps.prj (by with_reducible assumption) ?_)
    | with_reducible apply Keeps.lit

theorem execWarmResetResume_keeps {s0 : State} {s : State} (h : Keeps s0 s) :
    KeepsX s0 (execWarmResetResume s) := by
  unfold execWarmResetResume
  repeat' first
    | with_reducible assumption
    | with_reducible apply KeepsX.next
    | with_reducible apply warmAdvance_keeps
    | (intro _)
    | (extract_lets +onlyGivenNames x; try clear_value x)
    | split
    | (refine Keeps.prj (by with_reducible assumption) ?_)
    | with_reducible apply Keeps.lit

theorem dropRequests_keeps {s0 : State} {a0} {s : State} (h : Keeps s0 s) :
    Keeps s0 (dropRequests a0 s) := by
  unfold dropRequests
  repeat' first
    | with_reducible assumption
    | with_reducible apply foldS_keeps
    | with_reducible apply slTake_keeps
    | with_reducible apply slFailAll_keeps
    | (intro _)
    | (extract_lets +onlyGivenNames x; refine Keeps.cut (s0 := s0) (t := x) ?_ (fun hx => ?_) <;> first | (replace hx : Keeps s0 x := hx; clear_value x) | (dsimp only [x]; clear x))
    | (extract_lets +onlyGivenNames x; try clear_value x)
    | split
    | (refine Keeps.opt (by with_reducible assumption) ?_)
    | (refine Keeps.prj (by with_reducible assumption) ?_)
    | with_reducible apply Keeps.lit

theorem execDrainTimeout_keeps {s0 : State} {a0} {s : State} (h : Keeps s0 s) :
    KeepsX s0 (execDrainTimeout a0 s) := by
  unfold execDrainTimeout
  repeat' first
    | with_reducible assumption
    | with_reducible apply KeepsX.next
    | with_reducible apply settleMoves_keeps
    | with_reducible apply foldS_keeps
    | with_reducible apply recallLost_keeps
    | with_reducible apply dropRequests_keeps
    | with_reducible apply warmAdvance_keeps
    | with_reducible apply postedGone_keeps
    | with_reducible apply partResetSettle_keeps
    | with_reducible apply settleLaunches_keeps
    | (intro _)
    | (extract_lets +onlyGivenNames x; refine Keeps.cut (s0 := s0) (t := x) ?_ (fun hx => ?_) <;> first | (replace hx : Keeps s0 x := hx; clear_value x) | (dsimp only [x]; clear x))
    | (extract_lets +onlyGivenNames x; try clear_value x)
    | split
    | (refine Keeps.prj (by with_reducible assumption) ?_)
    | with_reducible apply Keeps.lit

theorem execRecallTimeout_keeps {s0 : State} {a0} {s : State} (h : Keeps s0 s) :
    KeepsX s0 (execRecallTimeout a0 s) := by
  unfold execRecallTimeout
  repeat' first
    | with_reducible assumption
    | with_reducible apply KeepsX.next
    | with_reducible apply warmAdvance_keeps
    | with_reducible apply siteSettle_keeps
    | with_reducible apply recallLost_keeps
    | (intro _)
    | (extract_lets +onlyGivenNames x; try clear_value x)
    | split
    | (refine Keeps.prj (by with_reducible assumption) ?_)
    | with_reducible apply Keeps.lit

/-! ### CastOn -/

theorem startClock_keeps {s0 : State} {a0} {s : State} (h : Keeps s0 s) :
    Keeps s0 (startClock a0 s) := by
  unfold startClock
  repeat' first
    | with_reducible assumption
    | (intro _)
    | (extract_lets +onlyGivenNames x; try clear_value x)
    | split
    | (refine Keeps.prj (by with_reducible assumption) ?_)
    | with_reducible apply Keeps.lit

theorem stopClock_keeps {s0 : State} {a0} {s : State} (h : Keeps s0 s) :
    Keeps s0 (stopClock a0 s) := by
  unfold stopClock
  repeat' first
    | with_reducible assumption
    | (intro _)
    | (extract_lets +onlyGivenNames x; try clear_value x)
    | split
    | (refine Keeps.prj (by with_reducible assumption) ?_)
    | with_reducible apply Keeps.lit

theorem stage0_keeps {s0 : State} {a0} {s : State} (h : Keeps s0 s) :
    Keeps s0 (stage0 a0 s).2 := by
  unfold stage0
  repeat' first
    | with_reducible assumption
    | with_reducible apply foldS_keeps
    | with_reducible apply startClock_keeps
    | (intro _)
    | split
    | (refine Keeps.prj (by with_reducible assumption) ?_)
    | with_reducible apply Keeps.lit

theorem stage1_keeps {s0 : State} {a0} {s : State} (h : Keeps s0 s) :
    Keeps s0 (stage1 a0 s).2 := by
  unfold stage1
  repeat' first
    | with_reducible assumption
    | with_reducible apply State.extend_keeps
    | (intro _)
    | (extract_lets +onlyGivenNames x; refine Keeps.cut (s0 := s0) (t := x) ?_ (fun hx => ?_) <;> first | (replace hx : Keeps s0 x := hx; clear_value x) | (dsimp only [x]; clear x))
    | (extract_lets +onlyGivenNames x; try clear_value x)
    | split
    | (refine Keeps.prj (by with_reducible assumption) ?_)
    | with_reducible apply Keeps.lit

theorem rebuildMap_keeps {s0 : State} {s : State} (h : Keeps s0 s) :
    Keeps s0 (rebuildMap s) := by
  unfold rebuildMap
  repeat' first
    | with_reducible assumption
    | with_reducible apply foldl_keeps
    | with_reducible apply foldl_keeps_snd
    | (intro _)
    | (extract_lets +onlyGivenNames x; refine Keeps.cut (s0 := s0) (t := x) ?_ (fun hx => ?_) <;> first | (replace hx : Keeps s0 x := hx; clear_value x) | (dsimp only [x]; clear x))
    | (extract_lets +onlyGivenNames x; try clear_value x)
    | split
    | (refine Keeps.prj (by with_reducible assumption) ?_)
    | with_reducible apply Keeps.lit

theorem takeConf_keeps {s0 : State} {a0} {s : State} (h : Keeps s0 s) :
    Keeps s0 (takeConf a0 s) := by
  unfold takeConf
  repeat' first
    | with_reducible assumption
    | with_reducible apply State.extend_keeps
    | with_reducible apply secEvent_keeps
    | with_reducible apply foldl_keeps
    | with_reducible apply foldl_keeps_snd
    | with_reducible apply hf
    | (intro _)
    | (extract_lets +onlyGivenNames f; refine Keeps.cutS (s0 := s0) (f := f) ?_ (fun hf => ?_) <;> first | (replace hf : ∀ s, Keeps s0 s → Keeps s0 (f s) := hf; clear_value f) | (dsimp only [f]; clear f))
    | (extract_lets +onlyGivenNames x; try clear_value x)
    | split
    | (refine Keeps.prj (by with_reducible assumption) ?_)
    | with_reducible apply Keeps.lit

theorem stage2_keeps {s0 : State} {a0} {s : State} (h : Keeps s0 s) :
    Keeps s0 (stage2 a0 s).2 := by
  unfold stage2
  repeat' first
    | with_reducible assumption
    | with_reducible apply lcBoot_keeps
    | with_reducible apply rebuildMap_keeps
    | with_reducible apply extendM3_keeps
    | with_reducible apply takeConf_keeps
    | (intro _)
    | (extract_lets +onlyGivenNames x; refine Keeps.cut (s0 := s0) (t := x) ?_ (fun hx => ?_) <;> first | (replace hx : Keeps s0 x := hx; clear_value x) | (dsimp only [x]; clear x))
    | (extract_lets +onlyGivenNames x; try clear_value x)
    | split
    | (refine Keeps.prj (by with_reducible assumption) ?_)
    | with_reducible apply Keeps.lit

theorem stage3_keeps {s0 : State} {a0} {s : State} (h : Keeps s0 s) :
    Keeps s0 (stage3 a0 s).2 := by
  unfold stage3
  repeat' first
    | with_reducible assumption
    | with_reducible apply foldS_keeps
    | with_reducible apply addRecord_keeps
    | (intro _)
    | (extract_lets +onlyGivenNames x; refine Keeps.cut (s0 := s0) (t := x) ?_ (fun hx => ?_) <;> first | (replace hx : Keeps s0 x := hx; clear_value x) | (dsimp only [x]; clear x))
    | (extract_lets +onlyGivenNames x; try clear_value x)
    | split
    | (refine Keeps.prj (by with_reducible assumption) ?_)
    | with_reducible apply Keeps.lit

theorem tierPresent_keeps {s0 : State} {a0} {a1} {a2} {a3} {a4} {s : State} (h : Keeps s0 s) :
    Keeps s0 (tierPresent a0 a1 a2 a3 a4 s) := by
  unfold tierPresent
  repeat' first
    | with_reducible assumption
    | with_reducible apply foldS_keeps
    | with_reducible apply startClock_keeps
    | with_reducible apply State.setCtl_keeps
    | (intro _)
    | (extract_lets +onlyGivenNames x; try clear_value x)
    | (refine Keeps.prj (by with_reducible assumption) ?_)
    | with_reducible apply Keeps.lit

theorem stage4_keeps {s0 : State} {a0} {s : State} (h : Keeps s0 s) :
    Keeps s0 (stage4 a0 s).2 := by
  unfold stage4
  repeat' first
    | with_reducible assumption
    | with_reducible apply tierPresent_keeps
    | with_reducible apply foldS_keeps
    | with_reducible apply State.setReg_keeps
    | with_reducible apply addRecord_keeps
    | (intro _)
    | (extract_lets +onlyGivenNames x; refine Keeps.cut (s0 := s0) (t := x) ?_ (fun hx => ?_) <;> first | (replace hx : Keeps s0 x := hx; clear_value x) | (dsimp only [x]; clear x))
    | (extract_lets +onlyGivenNames x; try clear_value x)
    | split
    | (refine Keeps.prj (by with_reducible assumption) ?_)
    | with_reducible apply Keeps.lit

theorem tierAbsent_keeps {s0 : State} {a0} {a1} {s : State} (h : Keeps s0 s) :
    Keeps s0 (tierAbsent a0 a1 s) := by
  unfold tierAbsent
  repeat' first
    | with_reducible assumption
    | with_reducible apply foldS_keeps
    | with_reducible apply stopClock_keeps
    | with_reducible apply State.setCtl_keeps
    | (intro _)
    | (extract_lets +onlyGivenNames x; try clear_value x)
    | (refine Keeps.prj (by with_reducible assumption) ?_)
    | with_reducible apply Keeps.lit

theorem stage5_keeps {s0 : State} {a0 : StageObs} {s : State} (h : Keeps s0 s) : Keeps s0 (stage5 a0 s).2 := by
  unfold stage5
  extract_lets caps rb rc cb cc gb gc s1 s2 s3
  have k1 : Keeps s0 s1 := Keeps.lit h
  clear_value s1
  have k2 : Keeps s0 s2 := by
    dsimp only [s2]
    split
    · exact tierAbsent_keeps k1
    · exact tierPresent_keeps k1
  clear_value s2
  have k3 : Keeps s0 s3 := by
    dsimp only [s3]
    split
    · exact tierAbsent_keeps k2
    · exact tierPresent_keeps k2
  clear_value s3
  split
  · exact k3
  · exact k3

theorem testRetire_keeps {s0 : State} {a0} {a1} {a2} {s : State} (h : Keeps s0 s) :
    Keeps s0 (testRetire a0 a1 a2 s) := by
  unfold testRetire
  repeat' first
    | with_reducible assumption
    | with_reducible apply addRecord_keeps
    | (intro _)
    | (extract_lets +onlyGivenNames x; refine Keeps.cut (s0 := s0) (t := x) ?_ (fun hx => ?_) <;> first | (replace hx : Keeps s0 x := hx; clear_value x) | (dsimp only [x]; clear x))
    | (extract_lets +onlyGivenNames x; try clear_value x)
    | split
    | (refine Keeps.prj (by with_reducible assumption) ?_)
    | with_reducible apply Keeps.lit

theorem testRepair_keeps {s0 : State} {a0} {s : State} (h : Keeps s0 s) :
    Keeps s0 (testRepair a0 s).2 := by
  unfold testRepair
  repeat' first
    | with_reducible assumption
    | with_reducible apply testRetire_keeps
    | with_reducible apply addRecord_keeps
    | with_reducible apply foldS_keeps
    | (intro _)
    | (extract_lets +onlyGivenNames x; try clear_value x)
    | split
    | (refine Keeps.prj (by with_reducible assumption) ?_)
    | with_reducible apply Keeps.lit

theorem stage6_keeps {s0 : State} {a0} {s : State} (h : Keeps s0 s) :
    Keeps s0 (stage6 a0 s).2 := by
  unfold stage6
  repeat' first
    | with_reducible assumption
    | with_reducible apply State.extend_keeps
    | with_reducible apply makeIdle_keeps
    | with_reducible apply testRepair_keeps
    | with_reducible apply foldS_keeps
    | with_reducible apply setSegments_keeps
    | with_reducible apply foldl_keeps
    | with_reducible apply foldl_keeps_snd
    | (intro _)
    | (extract_lets +onlyGivenNames x; refine Keeps.cut (s0 := s0) (t := x) ?_ (fun hx => ?_) <;> first | (replace hx : Keeps s0 x := hx; clear_value x) | (dsimp only [x]; clear x))
    | (extract_lets +onlyGivenNames x; try clear_value x)
    | split
    | (refine Keeps.snd (by with_reducible assumption) ?_)
    | (refine Keeps.prj (by with_reducible assumption) ?_)
    | with_reducible apply Keeps.lit

theorem stage7_keeps {s0 : State} {s : State} (h : Keeps s0 s) :
    Keeps s0 (stage7 s).2 := by
  unfold stage7
  repeat' first
    | with_reducible assumption
    | with_reducible apply foldl_keeps
    | with_reducible apply foldl_keeps_snd
    | (intro _)
    | (extract_lets +onlyGivenNames x; try clear_value x)
    | split
    | (refine Keeps.prj (by with_reducible assumption) ?_)
    | with_reducible apply Keeps.lit

theorem stage8_keeps {s0 : State} {s : State} (h : Keeps s0 s) :
    Keeps s0 (stage8 s).2 := by
  unfold stage8
  repeat' first
    | with_reducible assumption
    | with_reducible apply slStartAll_keeps
    | with_reducible apply foldS_keeps
    | with_reducible apply startClock_keeps
    | (intro _)
    | (extract_lets +onlyGivenNames x; refine Keeps.cut (s0 := s0) (t := x) ?_ (fun hx => ?_) <;> first | (replace hx : Keeps s0 x := hx; clear_value x) | (dsimp only [x]; clear x))
    | (refine Keeps.prj (by with_reducible assumption) ?_)
    | with_reducible apply Keeps.lit

theorem stage9_keeps {s0 : State} {s : State} (h : Keeps s0 s) :
    Keeps s0 (stage9 s).2 := by
  unfold stage9
  repeat' first
    | with_reducible assumption
    | with_reducible apply foldS_keeps
    | with_reducible apply State.setGran_keeps
    | (intro _)
    | (extract_lets +onlyGivenNames x; refine Keeps.cut (s0 := s0) (t := x) ?_ (fun hx => ?_) <;> first | (replace hx : Keeps s0 x := hx; clear_value x) | (dsimp only [x]; clear x))
    | (extract_lets +onlyGivenNames x; try clear_value x)
    | split
    | (refine Keeps.prj (by with_reducible assumption) ?_)
    | with_reducible apply Keeps.lit

theorem appendReport_keeps {s0 : State} {a0} {s : State} (h : Keeps s0 s) :
    Keeps s0 (appendReport a0 s) := by
  unfold appendReport
  repeat' first
    | with_reducible assumption
    | (intro _)
    | (extract_lets +onlyGivenNames x; try clear_value x)
    | (refine Keeps.prj (by with_reducible assumption) ?_)
    | with_reducible apply Keeps.lit

theorem blowSvn_keeps {s0 s : State} (h : Keeps s0 s) : Keeps s0 (blowSvn s) :=
  h.withFuse { FuseLater.refl s.fuse with svn := Nat.le_max_left .. }

theorem stage10_keeps {s0 s : State} (h : Keeps s0 s) : Keeps s0 (stage10 s) := by
  unfold stage10
  extract_lets c s1 s2 r c' s3 s4 s5 p s6 s7
  have k1 : Keeps s0 s1 := Keeps.lit h
  clear_value s1
  have k2 : Keeps s0 s2 := appendReport_keeps k1
  clear_value s2
  have k3 : Keeps s0 s3 := Keeps.lit k2
  clear_value s3
  have k4 : Keeps s0 s4 := blowSvn_keeps k3
  clear_value s4
  have k5 : Keeps s0 s5 := by
    dsimp only [s5]
    split
    · exact k4
    · exact flushHeld_keeps k4
  clear_value s5
  have k6 : Keeps s0 s6 := by
    dsimp only [s6]
    split
    · with_reducible apply serviceEvent_keeps
      exact Keeps.lit k5
    · exact k5
  clear_value s6
  exact intxEval_keeps (foldS_keeps (fun _ _ k => serviceEvent_keeps k) k6)

theorem stageWork_keeps {s0 : State} {a0} {s : State} (h : Keeps s0 s) :
    Keeps s0 (stageWork a0 s).2 := by
  unfold stageWork
  repeat' first
    | with_reducible assumption
    | with_reducible apply stage0_keeps
    | with_reducible apply stage1_keeps
    | with_reducible apply stage2_keeps
    | with_reducible apply stage3_keeps
    | with_reducible apply stage4_keeps
    | with_reducible apply stage5_keeps
    | with_reducible apply stage6_keeps
    | with_reducible apply stage7_keeps
    | with_reducible apply stage8_keeps
    | with_reducible apply stage9_keeps
    | (intro _)
    | split
    | (refine Keeps.snd (by with_reducible assumption) ?_)
    | (refine Keeps.prj (by with_reducible assumption) ?_)
    | with_reducible apply Keeps.lit

theorem stageNext_keeps {s0 : State} {s : State} (h : Keeps s0 s) :
    Keeps s0 (stageNext s) := by
  unfold stageNext
  repeat' first
    | with_reducible assumption
    | with_reducible apply admitFrom_keeps
    | with_reducible apply foldS_keeps
    | with_reducible apply startClock_keeps
    | with_reducible apply stage10_keeps
    | (intro _)
    | (extract_lets +onlyGivenNames x; refine Keeps.cut (s0 := s0) (t := x) ?_ (fun hx => ?_) <;> first | (replace hx : Keeps s0 x := hx; clear_value x) | (dsimp only [x]; clear x))
    | (extract_lets +onlyGivenNames x; try clear_value x)
    | split
    | (refine Keeps.prj (by with_reducible assumption) ?_)
    | with_reducible apply Keeps.lit

theorem stageEnd_keeps {s0 : State} {a0} {s : State} (h : Keeps s0 s) :
    Keeps s0 (stageEnd a0 s) := by
  unfold stageEnd
  repeat' first
    | with_reducible assumption
    | with_reducible apply stageWork_keeps
    | with_reducible apply appendReport_keeps
    | with_reducible apply stageNext_keeps
    | (intro _)
    | (extract_lets +onlyGivenNames x; refine Keeps.cut (s0 := s0) (t := x) ?_ (fun hx => ?_) <;> first | (replace hx : Keeps s0 x := hx; clear_value x) | (dsimp only [x]; clear x))
    | (extract_lets +onlyGivenNames x; try clear_value x)
    | split
    | (refine Keeps.snd (by with_reducible assumption) ?_)
    | (refine Keeps.prj (by with_reducible assumption) ?_)
    | with_reducible apply Keeps.lit

theorem execCastOnStageEnd_keeps {s0 : State} {a0} {s : State} (h : Keeps s0 s) :
    KeepsX s0 (execCastOnStageEnd a0 s) := by
  unfold execCastOnStageEnd
  repeat' first
    | with_reducible assumption
    | with_reducible apply KeepsX.next
    | with_reducible apply stageEnd_keeps
    | (intro _)
    | split
    | (refine Keeps.prj (by with_reducible assumption) ?_)
    | with_reducible apply Keeps.lit

theorem execCastOnResume_keeps {s0 : State} {s : State} (h : Keeps s0 s) :
    KeepsX s0 (execCastOnResume s) := by
  unfold execCastOnResume
  repeat' first
    | with_reducible assumption
    | with_reducible apply KeepsX.next
    | with_reducible apply stageNext_keeps
    | (intro _)
    | split
    | (refine Keeps.prj (by with_reducible assumption) ?_)
    | with_reducible apply Keeps.lit

theorem servicePacket_keeps {s0 : State} {a0} {a1} {s : State} (h : Keeps s0 s) :
    Keeps s0 (servicePacket a0 a1 s) := by
  unfold servicePacket
  repeat' first
    | with_reducible assumption
    | with_reducible apply directPacket_keeps
    | (intro _)
    | (refine Keeps.prj (by with_reducible assumption) ?_)
    | with_reducible apply Keeps.lit

theorem execServiceQuerySummary_keeps {s0 : State} {a0} {a1} {s : State} (h : Keeps s0 s) :
    KeepsX s0 (execServiceQuerySummary a0 a1 s) := by
  unfold execServiceQuerySummary
  repeat' first
    | with_reducible assumption
    | with_reducible apply KeepsX.next
    | with_reducible apply servicePacket_keeps
    | (intro _)
    | (extract_lets +onlyGivenNames x; try clear_value x)
    | (refine Keeps.prj (by with_reducible assumption) ?_)
    | with_reducible apply Keeps.lit

theorem execServiceQueryRecords_keeps {s0 : State} {a0} {a1} {s : State} (h : Keeps s0 s) :
    KeepsX s0 (execServiceQueryRecords a0 a1 s) := by
  unfold execServiceQueryRecords
  repeat' first
    | with_reducible assumption
    | with_reducible apply KeepsX.next
    | with_reducible apply servicePacket_keeps
    | (intro _)
    | (extract_lets +onlyGivenNames x; try clear_value x)
    | (refine Keeps.prj (by with_reducible assumption) ?_)
    | with_reducible apply Keeps.lit

theorem execServiceQueryReports_keeps {s0 : State} {a0} {a1} {s : State} (h : Keeps s0 s) :
    KeepsX s0 (execServiceQueryReports a0 a1 s) := by
  unfold execServiceQueryReports
  repeat' first
    | with_reducible assumption
    | with_reducible apply KeepsX.next
    | with_reducible apply servicePacket_keeps
    | (intro _)
    | (extract_lets +onlyGivenNames x; try clear_value x)
    | (refine Keeps.prj (by with_reducible assumption) ?_)
    | with_reducible apply Keeps.lit

theorem execServiceQueryPresentation_keeps {s0 : State} {a0} {a1} {s : State} (h : Keeps s0 s) :
    KeepsX s0 (execServiceQueryPresentation a0 a1 s) := by
  unfold execServiceQueryPresentation
  repeat' first
    | with_reducible assumption
    | with_reducible apply KeepsX.next
    | with_reducible apply servicePacket_keeps
    | (intro _)
    | (extract_lets +onlyGivenNames x; try clear_value x)
    | (refine Keeps.prj (by with_reducible assumption) ?_)
    | with_reducible apply Keeps.lit

theorem actTimeSample_keeps {s0 : State} {a0} {s : State} (h : Keeps s0 s) :
    Keeps s0 (actTimeSample a0 s).2 := by
  unfold actTimeSample
  repeat' first
    | with_reducible assumption
    | (intro _)
    | (extract_lets +onlyGivenNames x; try clear_value x)
    | split
    | (refine Keeps.prj (by with_reducible assumption) ?_)
    | with_reducible apply Keeps.lit

theorem execTimeSample_keeps {s0 : State} {a0} {a1} {s : State} (h : Keeps s0 s) :
    KeepsX s0 (execTimeSample a0 a1 s) := by
  unfold execTimeSample
  repeat' first
    | with_reducible assumption
    | with_reducible apply KeepsX.next
    | with_reducible apply directPacket_keeps
    | with_reducible apply actTimeSample_keeps
    | (intro _)
    | (refine Keeps.snd (by with_reducible assumption) ?_)
    | (refine Keeps.prj (by with_reducible assumption) ?_)
    | with_reducible apply Keeps.lit

/-! ### Regs -/

theorem mbxWrite_keeps {s0 : State} {a0} {a1} {a2} {a3} {s : State} (h : Keeps s0 s) :
    Keeps s0 (mbxWrite a0 a1 a2 a3 s) := by
  unfold mbxWrite
  repeat' first
    | with_reducible assumption
    | (intro _)
    | (extract_lets +onlyGivenNames x; try clear_value x)
    | split
    | (refine Keeps.prj (by with_reducible assumption) ?_)
    | with_reducible apply Keeps.lit

theorem mbxLock_keeps {s0 : State} {a0} {a1} {s : State} (h : Keeps s0 s) :
    Keeps s0 (mbxLock a0 a1 s) := by
  unfold mbxLock
  repeat' first
    | with_reducible assumption
    | with_reducible apply mbxClaim_keeps
    | with_reducible apply mbxRelease_keeps
    | (intro _)
    | (extract_lets +onlyGivenNames x; refine Keeps.cut (s0 := s0) (t := x) ?_ (fun hx => ?_) <;> first | (replace hx : Keeps s0 x := hx; clear_value x) | (dsimp only [x]; clear x))
    | split
    | (refine Keeps.prj (by with_reducible assumption) ?_)
    | with_reducible apply Keeps.lit

theorem mbxCtl_keeps {s0 : State} {a0} {a1} {s : State} (h : Keeps s0 s) :
    Keeps s0 (mbxCtl a0 a1 s) := by
  unfold mbxCtl
  repeat' first
    | with_reducible assumption
    | with_reducible apply mbxGo_keeps
    | (intro _)
    | (extract_lets +onlyGivenNames x; refine Keeps.cut (s0 := s0) (t := x) ?_ (fun hx => ?_) <;> first | (replace hx : Keeps s0 x := hx; clear_value x) | (dsimp only [x]; clear x))
    | (extract_lets +onlyGivenNames x; try clear_value x)
    | split
    | (refine Keeps.prj (by with_reducible assumption) ?_)
    | with_reducible apply Keeps.lit

theorem smbClear_keeps {s0 : State} {a0} {s : State} (h : Keeps s0 s) :
    Keeps s0 (smbClear a0 s) := by
  unfold smbClear
  repeat' first
    | with_reducible assumption
    | (intro _)
    | (extract_lets +onlyGivenNames x; try clear_value x)
    | (refine Keeps.prj (by with_reducible assumption) ?_)
    | with_reducible apply Keeps.lit

theorem writeEvt_keeps {s0 : State} {a0} {a1} {a2} {s : State} (h : Keeps s0 s) :
    Keeps s0 (writeEvt a0 a1 a2 s) := by
  unfold writeEvt
  repeat' first
    | with_reducible assumption
    | with_reducible apply State.setRing_keeps
    | with_reducible apply evtCtl_keeps
    | with_reducible apply evtAck_keeps
    | (intro _)
    | (extract_lets +onlyGivenNames x; try clear_value x)
    | split
    | (refine Keeps.prj (by with_reducible assumption) ?_)
    | with_reducible apply Keeps.lit

theorem writePart_keeps {s0 : State} {a0} {a1} {a2} {s : State} (h : Keeps s0 s) :
    Keeps s0 (writePart a0 a1 a2 s) := by
  unfold writePart
  repeat' first
    | with_reducible assumption
    | with_reducible apply State.setFring_keeps
    | with_reducible apply faultCtl_keeps
    | with_reducible apply faultAck_keeps
    | (intro _)
    | (extract_lets +onlyGivenNames x; try clear_value x)
    | split
    | (refine Keeps.prj (by with_reducible assumption) ?_)
    | with_reducible apply Keeps.lit

theorem cohClear_keeps {s0 : State} {a0} {a1} {s : State} (h : Keeps s0 s) :
    Keeps s0 (cohClear a0 a1 s) := by
  unfold cohClear
  repeat' first
    | with_reducible assumption
    | with_reducible apply State.setReg_keeps
    | (intro _)
    | (extract_lets +onlyGivenNames x; try clear_value x)
    | (refine Keeps.prj (by with_reducible assumption) ?_)
    | with_reducible apply Keeps.lit

theorem writeSite_keeps {s0 : State} {a0} {a1} {a2} {s : State} (h : Keeps s0 s) :
    Keeps s0 (writeSite a0 a1 a2 s) := by
  unfold writeSite
  repeat' first
    | with_reducible assumption
    | with_reducible apply State.setSite_keeps
    | with_reducible apply siteTest_keeps
    | (intro _)
    | (extract_lets +onlyGivenNames x; try clear_value x)
    | split
    | (refine Keeps.prj (by with_reducible assumption) ?_)
    | with_reducible apply Keeps.lit

theorem writeHub_keeps {s0 : State} {a0} {a1} {s : State} (h : Keeps s0 s) :
    Keeps s0 (writeHub a0 a1 s) := by
  unfold writeHub
  repeat' first
    | with_reducible assumption
    | with_reducible apply resetCtl_keeps
    | with_reducible apply State.setReg_keeps
    | with_reducible apply cmdCtl_keeps
    | with_reducible apply cmdTail_keeps
    | with_reducible apply mbxLock_keeps
    | with_reducible apply mbxCtl_keeps
    | with_reducible apply smbClear_keeps
    | (intro _)
    | (extract_lets +onlyGivenNames x; try clear_value x)
    | split
    | (refine Keeps.prj (by with_reducible assumption) ?_)
    | with_reducible apply Keeps.lit

theorem regEffect_keeps {s0 : State} {a0} {a1} {s : State} (h : Keeps s0 s) :
    Keeps s0 (regEffect a0 a1 s) := by
  unfold regEffect
  repeat' first
    | with_reducible assumption
    | with_reducible apply writeEvt_keeps
    | with_reducible apply writePart_keeps
    | with_reducible apply cohClear_keeps
    | with_reducible apply writeSite_keeps
    | with_reducible apply writeHub_keeps
    | (intro _)
    | split
    | (refine Keeps.prj (by with_reducible assumption) ?_)
    | with_reducible apply Keeps.lit

theorem regWrite_keeps {s0 : State} {a0} {a1} {a2} {s : State} (h : Keeps s0 s) :
    Keeps s0 (regWrite a0 a1 a2 s) := by
  unfold regWrite
  repeat' first
    | with_reducible assumption
    | with_reducible apply mbxWrite_keeps
    | with_reducible apply regEffect_keeps
    | (intro _)
    | split
    | (refine Keeps.prj (by with_reducible assumption) ?_)
    | with_reducible apply Keeps.lit

theorem cfgStore_keeps {s0 : State} {a0} {a1} {a2} {s : State} (h : Keeps s0 s) :
    Keeps s0 (cfgStore a0 a1 a2 s) := by
  unfold cfgStore
  repeat' first
    | with_reducible assumption
    | (intro _)
    | (extract_lets +onlyGivenNames x; try clear_value x)
    | (refine Keeps.prj (by with_reducible assumption) ?_)
    | with_reducible apply Keeps.lit

theorem powerState_keeps {s0 : State} {a0} {s : State} (h : Keeps s0 s) :
    Keeps s0 (powerState a0 s) := by
  unfold powerState
  repeat' first
    | with_reducible assumption
    | with_reducible apply freeze_keeps
    | (intro _)
    | (extract_lets +onlyGivenNames x; try clear_value x)
    | split
    | (refine Keeps.prj (by with_reducible assumption) ?_)
    | with_reducible apply Keeps.lit

theorem cfgWrite_keeps {s0 : State} {a0} {a1} {a2} {s : State} (h : Keeps s0 s) :
    Keeps s0 (cfgWrite a0 a1 a2 s) := by
  unfold cfgWrite
  repeat' first
    | with_reducible assumption
    | with_reducible apply intxEval_keeps
    | with_reducible apply cfgStore_keeps
    | with_reducible apply powerState_keeps
    | with_reducible apply freezeRelease_keeps
    | (intro _)
    | (extract_lets +onlyGivenNames x; try clear_value x)
    | split
    | (refine Keeps.prj (by with_reducible assumption) ?_)
    | with_reducible apply Keeps.lit

theorem cfgBytes_keeps {s0 : State} {a0} {a1} {a2} {s : State} (h : Keeps s0 s) :
    Keeps s0 (cfgBytes a0 a1 a2 s) := by
  unfold cfgBytes
  repeat' first
    | with_reducible assumption
    | with_reducible apply cfgWrite_keeps
    | (intro _)
    | (extract_lets +onlyGivenNames x; try clear_value x)
    | split
    | (refine Keeps.prj (by with_reducible assumption) ?_)
    | with_reducible apply Keeps.lit

theorem execRegisterWrite_keeps {s0 : State} {a0} {a1} {a2} {a3} {s : State} (h : Keeps s0 s) :
    KeepsX s0 (execRegisterWrite a0 a1 a2 a3 s) := by
  unfold execRegisterWrite
  repeat' first
    | with_reducible assumption
    | with_reducible apply KeepsX.next
    | with_reducible apply cfgBytes_keeps
    | with_reducible apply regWrite_keeps
    | (intro _)
    | split
    | (refine Keeps.prj (by with_reducible assumption) ?_)
    | with_reducible apply Keeps.lit

theorem smbEffect_keeps {s0 : State} {a0} {a1} {s : State} (h : Keeps s0 s) :
    Keeps s0 (smbEffect a0 a1 s) := by
  unfold smbEffect
  repeat' first
    | with_reducible assumption
    | with_reducible apply mbxWrite_keeps
    | with_reducible apply mbxLock_keeps
    | with_reducible apply mbxCtl_keeps
    | with_reducible apply smbClear_keeps
    | (intro _)
    | split
    | (refine Keeps.prj (by with_reducible assumption) ?_)
    | with_reducible apply Keeps.lit

theorem smbNext_keeps {s0 : State} {s : State} (h : Keeps s0 s) :
    Keeps s0 (smbNext s) := by
  unfold smbNext
  repeat' first
    | with_reducible assumption
    | (intro _)
    | (extract_lets +onlyGivenNames x; try clear_value x)
    | (refine Keeps.prj (by with_reducible assumption) ?_)
    | with_reducible apply Keeps.lit

theorem execSetOffset_keeps {s0 : State} {a0} {a1} {s : State} (h : Keeps s0 s) :
    KeepsX s0 (execSetOffset a0 a1 s) := by
  unfold execSetOffset
  repeat' first
    | with_reducible assumption
    | with_reducible apply KeepsX.next
    | (intro _)
    | (extract_lets +onlyGivenNames x; try clear_value x)
    | split
    | (refine Keeps.prj (by with_reducible assumption) ?_)
    | with_reducible apply Keeps.lit

theorem execRead32_keeps {s0 : State} {s : State} (h : Keeps s0 s) :
    KeepsX s0 (execRead32 s) := by
  unfold execRead32
  repeat' first
    | with_reducible assumption
    | with_reducible apply KeepsX.next
    | with_reducible apply smbNext_keeps
    | with_reducible apply emit_keeps
    | (intro _)
    | (refine Keeps.prj (by with_reducible assumption) ?_)
    | with_reducible apply Keeps.lit

theorem execWrite32_keeps {s0 : State} {a0} {a1} {s : State} (h : Keeps s0 s) :
    KeepsX s0 (execWrite32 a0 a1 s) := by
  unfold execWrite32
  repeat' first
    | with_reducible assumption
    | with_reducible apply KeepsX.next
    | with_reducible apply smbNext_keeps
    | with_reducible apply smbEffect_keeps
    | (intro _)
    | split
    | (refine Keeps.prj (by with_reducible assumption) ?_)
    | with_reducible apply Keeps.lit

end Sys2Proof.Machine
end

