-- ==== Sys2Proof/Laws/KeepsStep.lean ====
section
/-!
SUPPORT. Keeps for a tick and for every command.
-/
set_option linter.all false

namespace Sys2Proof.Machine

theorem tickClocks_keeps {s0 : State} {s : State} (h : Keeps s0 s) :
    Keeps s0 (tickClocks s) := by
  unfold tickClocks
  repeat' first
    | with_reducible assumption
    | (intro _)
    | (extract_lets +onlyGivenNames x; try clear_value x)
    | split
    | (refine Keeps.prj (by with_reducible assumption) ?_)
    | with_reducible apply Keeps.lit

theorem tickSeconds_keeps {s0 s : State} (h : Keeps s0 s) : Keeps s0 (tickSeconds s) := by
  unfold tickSeconds
  split
  · exact ⟨h.fuse, h.mem, h.queue, Nat.le_succ_of_le h.time⟩
  · exact h

theorem settleMemory_keeps {s0 : State} {s : State} (h : Keeps s0 s) :
    Keeps s0 (settleMemory s) := by
  unfold settleMemory
  repeat' first
    | with_reducible assumption
    | with_reducible apply homeWake_keeps
    | with_reducible apply settleWrites_keeps
    | with_reducible apply releaseParked_keeps
    | with_reducible apply settlePosted_keeps
    | with_reducible apply releaseRun_keeps
    | with_reducible apply settleInval_keeps
    | with_reducible apply recallOwned_keeps
    | (intro _)
    | (extract_lets +onlyGivenNames x; refine Keeps.cut (s0 := s0) (t := x) ?_ (fun hx => ?_) <;> first | (replace hx : Keeps s0 x := hx; clear_value x) | (dsimp only [x]; clear x))
    | split
    | (refine Keeps.prj (by with_reducible assumption) ?_)
    | with_reducible apply Keeps.lit

theorem settleWork_keeps {s0 : State} {s : State} (h : Keeps s0 s) :
    Keeps s0 (settleWork s) := by
  unfold settleWork
  repeat' first
    | with_reducible assumption
    | with_reducible apply foldS_keeps
    | with_reducible apply fetchIllegal_keeps
    | with_reducible apply rewait_keeps
    | with_reducible apply stampWaits_keeps
    | with_reducible apply settleAbandons_keeps
    | with_reducible apply settleLaunches_keeps
    | (intro _)
    | (extract_lets +onlyGivenNames x; refine Keeps.cut (s0 := s0) (t := x) ?_ (fun hx => ?_) <;> first | (replace hx : Keeps s0 x := hx; clear_value x) | (dsimp only [x]; clear x))
    | (refine Keeps.prj (by with_reducible assumption) ?_)
    | with_reducible apply Keeps.lit

theorem settleConfig_keeps {s0 : State} {s : State} (h : Keeps s0 s) :
    Keeps s0 (settleConfig s) := by
  unfold settleConfig
  repeat' first
    | with_reducible assumption
    | with_reducible apply settleAutos_keeps
    | with_reducible apply settleMoves_keeps
    | with_reducible apply settleDrops_keeps
    | with_reducible apply settleShoots_keeps
    | with_reducible apply settleAccepted_keeps
    | with_reducible apply settleChanges_keeps
    | (intro _)
    | (extract_lets +onlyGivenNames x; refine Keeps.cut (s0 := s0) (t := x) ?_ (fun hx => ?_) <;> first | (replace hx : Keeps s0 x := hx; clear_value x) | (dsimp only [x]; clear x))
    | (refine Keeps.prj (by with_reducible assumption) ?_)
    | with_reducible apply Keeps.lit

theorem settleDue_keeps {s0 : State} {s : State} (h : Keeps s0 s) :
    Keeps s0 (settleDue s) := by
  unfold settleDue
  repeat' first
    | with_reducible assumption
    | with_reducible apply warmTrigger_keeps
    | with_reducible apply foldS_keeps
    | with_reducible apply partResetByHub_keeps
    | (intro _)
    | (extract_lets +onlyGivenNames x; refine Keeps.cut (s0 := s0) (t := x) ?_ (fun hx => ?_) <;> first | (replace hx : Keeps s0 x := hx; clear_value x) | (dsimp only [x]; clear x))
    | (extract_lets +onlyGivenNames x; try clear_value x)
    | split
    | (refine Keeps.prj (by with_reducible assumption) ?_)
    | with_reducible apply Keeps.lit

theorem settleAll_keeps {s0 : State} {s : State} (h : Keeps s0 s) :
    Keeps s0 (settleAll s) := by
  unfold settleAll
  repeat' first
    | with_reducible assumption
    | with_reducible apply settleConfig_keeps
    | with_reducible apply settleWork_keeps
    | with_reducible apply settleMemory_keeps
    | with_reducible apply partResetSettle_keeps
    | with_reducible apply settleDue_keeps
    | with_reducible apply foldS_keeps
    | with_reducible apply siteSettle_keeps
    | with_reducible apply slCount_keeps
    | with_reducible apply slSettle_keeps
    | with_reducible apply drainSettle_keeps
    | with_reducible apply quiesceSettle_keeps
    | with_reducible apply warmAdvance_keeps
    | with_reducible apply shedTell_keeps
    | (intro _)
    | (extract_lets +onlyGivenNames x; refine Keeps.cut (s0 := s0) (t := x) ?_ (fun hx => ?_) <;> first | (replace hx : Keeps s0 x := hx; clear_value x) | (dsimp only [x]; clear x))
    | (refine Keeps.prj (by with_reducible assumption) ?_)
    | with_reducible apply Keeps.lit

theorem tick_keeps {s0 : State} {s : State} (h : Keeps s0 s) :
    Keeps s0 (tick s) := by
  unfold tick
  repeat' first
    | with_reducible assumption
    | with_reducible apply settleAll_keeps
    | with_reducible apply tickSeconds_keeps
    | with_reducible apply tickClocks_keeps
    | (intro _)
    | (refine Keeps.prj (by with_reducible assumption) ?_)
    | with_reducible apply Keeps.lit

/-- Whatever a command does, it keeps. -/
theorem exec_keeps (i : Instr) (s : State) : KeepsX s (exec i s) :=
  match i with
  | .powerOnReset => execPowerOnReset_keeps (.refl s)
  | .perst => execPerst_keeps (.refl s)
  | .perstDeassert => execPerstDeassert_keeps (.refl s)
  | .warmReset _ => execWarmReset_keeps (.refl s)
  | .warmN => execWarmN_keeps (.refl s)
  | .hmfWatchdogExpiry => execHmfWatchdogExpiry_keeps (.refl s)
  | .deferredWarmResetStart => execDeferredWarmResetStart_keeps (.refl s)
  | .warmResetResume => execWarmResetResume_keeps (.refl s)
  | .drainTimeout _ => execDrainTimeout_keeps (.refl s)
  | .recallTimeout _ => execRecallTimeout_keeps (.refl s)
  | .castOnStageEnd _ => execCastOnStageEnd_keeps (.refl s)
  | .castOnResume => execCastOnResume_keeps (.refl s)
  | .timeSample _ _ => execTimeSample_keeps (.refl s)
  | .add _ _ _ _ _ => execAdd_keeps (.refl s)
  | .sub _ _ _ _ _ => execSub_keeps (.refl s)
  | .and _ _ _ _ _ => execAnd_keeps (.refl s)
  | .or _ _ _ _ _ => execOr_keeps (.refl s)
  | .xor _ _ _ _ _ => execXor_keeps (.refl s)
  | .sll _ _ _ _ _ => execSll_keeps (.refl s)
  | .srl _ _ _ _ _ => execSrl_keeps (.refl s)
  | .sra _ _ _ _ _ => execSra_keeps (.refl s)
  | .slt _ _ _ _ _ => execSlt_keeps (.refl s)
  | .sltu _ _ _ _ _ => execSltu_keeps (.refl s)
  | .min _ _ _ _ _ => execMin_keeps (.refl s)
  | .max _ _ _ _ _ => execMax_keeps (.refl s)
  | .minu _ _ _ _ _ => execMinu_keeps (.refl s)
  | .maxu _ _ _ _ _ => execMaxu_keeps (.refl s)
  | .mul _ _ _ _ _ => execMul_keeps (.refl s)
  | .mulhs _ _ _ _ _ => execMulhs_keeps (.refl s)
  | .mulhu _ _ _ _ _ => execMulhu_keeps (.refl s)
  | .divs _ _ _ _ _ => execDivs_keeps (.refl s)
  | .divu _ _ _ _ _ => execDivu_keeps (.refl s)
  | .rems _ _ _ _ _ => execRems_keeps (.refl s)
  | .remu _ _ _ _ _ => execRemu_keeps (.refl s)
  | .addi _ _ _ _ => execAddi_keeps (.refl s)
  | .andi _ _ _ _ => execAndi_keeps (.refl s)
  | .ori _ _ _ _ => execOri_keeps (.refl s)
  | .xori _ _ _ _ => execXori_keeps (.refl s)
  | .slli _ _ _ _ => execSlli_keeps (.refl s)
  | .srli _ _ _ _ => execSrli_keeps (.refl s)
  | .srai _ _ _ _ => execSrai_keeps (.refl s)
  | .slti _ _ _ _ => execSlti_keeps (.refl s)
  | .sltui _ _ _ _ => execSltui_keeps (.refl s)
  | .seti _ _ _ _ _ => execSeti_keeps (.refl s)
  | .insi _ _ _ _ _ => execInsi_keeps (.refl s)
  | .load _ _ _ _ _ _ _ _ _ _ => execLoad_keeps (.refl s)
  | .store _ _ _ _ _ _ _ _ => execStore_keeps (.refl s)
  | .branchEq _ _ _ _ _ => execBranchEq_keeps (.refl s)
  | .branchNe _ _ _ _ _ => execBranchNe_keeps (.refl s)
  | .branchLt _ _ _ _ _ => execBranchLt_keeps (.refl s)
  | .branchGe _ _ _ _ _ => execBranchGe_keeps (.refl s)
  | .branchLtu _ _ _ _ _ => execBranchLtu_keeps (.refl s)
  | .branchGeu _ _ _ _ _ => execBranchGeu_keeps (.refl s)
  | .jump _ _ _ _ => execJump_keeps (.refl s)
  | .enq _ _ _ _ _ => execEnq_keeps (.refl s)
  | .swait _ _ _ _ _ => execSwait_keeps (.refl s)
  | .ssig _ _ _ _ _ => execSsig_keeps (.refl s)
  | .sread _ _ _ _ _ => execSread_keeps (.refl s)
  | .semaphoreGrant _ => execSemaphoreGrant_keeps (.refl s)
  | .nop _ _ _ _ => execNop_keeps (.refl s)
  | .halt _ _ _ _ => execHalt_keeps (.refl s)
  | .fence _ _ _ _ => execFence_keeps (.refl s)
  | .l1inv _ _ _ _ => execL1inv_keeps (.refl s)
  | .csrr _ _ _ _ => execCsrr_keeps (.refl s)
  | .csrw _ _ _ _ => execCsrw_keeps (.refl s)
  | .trap _ _ _ _ => execTrap_keeps (.refl s)
  | .waite _ _ _ _ => execWaite_keeps (.refl s)
  | .atomicSwap _ _ _ _ _ _ _ _ => execAtomicSwap_keeps (.refl s)
  | .atomicAdd _ _ _ _ _ _ _ _ => execAtomicAdd_keeps (.refl s)
  | .atomicAnd _ _ _ _ _ _ _ _ => execAtomicAnd_keeps (.refl s)
  | .atomicOr _ _ _ _ _ _ _ _ => execAtomicOr_keeps (.refl s)
  | .atomicXor _ _ _ _ _ _ _ _ => execAtomicXor_keeps (.refl s)
  | .mins _ _ _ _ _ _ _ _ => execMins_keeps (.refl s)
  | .maxs _ _ _ _ _ _ _ _ => execMaxs_keeps (.refl s)
  | .atomicMinu _ _ _ _ _ _ _ _ => execAtomicMinu_keeps (.refl s)
  | .atomicMaxu _ _ _ _ _ _ _ _ => execAtomicMaxu_keeps (.refl s)
  | .cas _ _ _ _ _ _ _ _ => execCas_keeps (.refl s)
  | .vfadd _ _ => execVfadd_keeps (.refl s)
  | .vfsub _ _ => execVfsub_keeps (.refl s)
  | .vfmul _ _ => execVfmul_keeps (.refl s)
  | .vfma _ _ => execVfma_keeps (.refl s)
  | .vfmin _ _ => execVfmin_keeps (.refl s)
  | .vfmax _ _ => execVfmax_keeps (.refl s)
  | .vmov _ _ => execVmov_keeps (.refl s)
  | .viadd _ _ => execViadd_keeps (.refl s)
  | .visub _ _ => execVisub_keeps (.refl s)
  | .vimul _ _ => execVimul_keeps (.refl s)
  | .vimin _ _ => execVimin_keeps (.refl s)
  | .vimax _ _ => execVimax_keeps (.refl s)
  | .vand _ _ => execVand_keeps (.refl s)
  | .vor _ _ => execVor_keeps (.refl s)
  | .vxor _ _ => execVxor_keeps (.refl s)
  | .vshl _ _ => execVshl_keeps (.refl s)
  | .vshr _ _ => execVshr_keeps (.refl s)
  | .vsra _ _ => execVsra_keeps (.refl s)
  | .vsel _ _ => execVsel_keeps (.refl s)
  | .vcvt _ _ => execVcvt_keeps (.refl s)
  | .recip _ _ => execRecip_keeps (.refl s)
  | .rsqrt _ _ => execRsqrt_keeps (.refl s)
  | .sqrt _ _ => execSqrt_keeps (.refl s)
  | .exp2 _ _ => execExp2_keeps (.refl s)
  | .log2 _ _ => execLog2_keeps (.refl s)
  | .exp _ _ => execExp_keeps (.refl s)
  | .ln _ _ => execLn_keeps (.refl s)
  | .tanh _ _ => execTanh_keeps (.refl s)
  | .sigmoid _ _ => execSigmoid_keeps (.refl s)
  | .gelu _ _ => execGelu_keeps (.refl s)
  | .sin _ _ => execSin_keeps (.refl s)
  | .cos _ _ => execCos_keeps (.refl s)
  | .vrsum _ _ => execVrsum_keeps (.refl s)
  | .vrmax _ _ => execVrmax_keeps (.refl s)
  | .vhsum _ _ => execVhsum_keeps (.refl s)
  | .vquant _ _ => execVquant_keeps (.refl s)
  | .vdeq _ _ => execVdeq_keeps (.refl s)
  | .mloadw _ _ => execMloadw_keeps (.refl s)
  | .mmac _ _ => execMmac_keeps (.refl s)
  | .copy _ _ _ => execCopy_keeps (.refl s)
  | .copyFill _ _ _ => execCopyFill_keeps (.refl s)
  | .engineCommandComplete _ _ => execEngineCommandComplete_keeps (.refl s)
  | .writeRefusal _ _ _ _ => execWriteRefusal_keeps (.refl s)
  | .swatchCheck _ _ => execSwatchCheck_keeps (.refl s)
  | .strikeWindowExpiry _ => execStrikeWindowExpiry_keeps (.refl s)
  | .rdShared _ _ _ => execRdShared_keeps (.refl s)
  | .rdUnique _ _ _ => execRdUnique_keeps (.refl s)
  | .upgrade _ _ _ => execUpgrade_keeps (.refl s)
  | .rdOnce _ _ => execRdOnce_keeps (.refl s)
  | .wrFull _ _ => execWrFull_keeps (.refl s)
  | .wrPartial _ _ => execWrPartial_keeps (.refl s)
  | .wbDirty _ _ => execWbDirty_keeps (.refl s)
  | .evictClean _ _ => execEvictClean_keeps (.refl s)
  | .atomic _ _ => execAtomic_keeps (.refl s)
  | .snpShared _ => execSnpShared_keeps (.refl s)
  | .snpUnique _ => execSnpUnique_keeps (.refl s)
  | .snpInv _ => execSnpInv_keeps (.refl s)
  | .snpCurrent _ => execSnpCurrent_keeps (.refl s)
  | .snpRecall _ => execSnpRecall_keeps (.refl s)
  | .snpRsp _ _ => execSnpRsp_keeps (.refl s)
  | .snpData _ _ => execSnpData_keeps (.refl s)
  | .grant _ => execGrant_keeps (.refl s)
  | .cmp _ => execCmp_keeps (.refl s)
  | .ack _ _ => execAck_keeps (.refl s)
  | .data _ => execData_keeps (.refl s)
  | .holdTimeEnd _ _ => execHoldTimeEnd_keeps (.refl s)
  | .snoopTimeout _ _ => execSnoopTimeout_keeps (.refl s)
  | .patrol _ _ => execPatrol_keeps (.refl s)
  | .controllerSlot _ _ _ _ _ => execControllerSlot_keeps (.refl s)
  | .stackTemperatureReport _ _ _ => execStackTemperatureReport_keeps (.refl s)
  | .throttleStepDown _ => execThrottleStepDown_keeps (.refl s)
  | .stackCritical _ => execStackCritical_keeps (.refl s)
  | .migrate _ _ _ => execMigrate_keeps (.refl s)
  | .heatIntervalEnd => execHeatIntervalEnd_keeps (.refl s)
  | .ctxCreate _ _ _ _ => execCtxCreate_keeps (.refl s)
  | .ctxDestroy _ _ => execCtxDestroy_keeps (.refl s)
  | .ctxQuery _ _ => execCtxQuery_keeps (.refl s)
  | .contextAbandon _ _ => execContextAbandon_keeps (.refl s)
  | .segSet _ _ _ _ => execSegSet_keeps (.refl s)
  | .segClear _ _ _ => execSegClear_keeps (.refl s)
  | .map _ _ _ _ _ => execMap_keeps (.refl s)
  | .unmap _ _ _ _ _ => execUnmap_keeps (.refl s)
  | .shootdownAcknowledge _ _ _ => execShootdownAcknowledge_keeps (.refl s)
  | .granuleBind _ _ _ _ => execGranuleBind_keeps (.refl s)
  | .granuleUnbind _ _ _ => execGranuleUnbind_keeps (.refl s)
  | .atsInvalidationRequest _ _ _ _ => execAtsInvalidationRequest_keeps (.refl s)
  | .translationCompletion _ _ _ _ _ _ _ => execTranslationCompletion_keeps (.refl s)
  | .bar4Read _ _ _ => execBar4Read_keeps (.refl s)
  | .bar4Write _ _ _ _ => execBar4Write_keeps (.refl s)
  | .inboundAtomicop _ _ _ _ _ _ => execInboundAtomicop_keeps (.refl s)
  | .pciDbTail _ _ => execPciDbTail_keeps (.refl s)
  | .hostReadCompletion _ _ _ _ => execHostReadCompletion_keeps (.refl s)
  | .completionTimeout _ _ => execCompletionTimeout_keeps (.refl s)
  | .interruptDisable _ => execInterruptDisable_keeps (.refl s)
  | .pciIntxStat => execPciIntxStat_keeps (.refl s)
  | .uncorrectableError _ => execUncorrectableError_keeps (.refl s)
  | .poisonedTlp _ => execPoisonedTlp_keeps (.refl s)
  | .surpriseDown => execSurpriseDown_keeps (.refl s)
  | .portReset => execPortReset_keeps (.refl s)
  | .hotRemoval => execHotRemoval_keeps (.refl s)
  | .d3hot => execD3hot_keeps (.refl s)
  | .freezeRelease _ _ => execFreezeRelease_keeps (.refl s)
  | .dlActive _ _ _ => execDlActive_keeps (.refl s)
  | .queueCreate _ _ _ _ _ _ _ _ _ => execQueueCreate_keeps (.refl s)
  | .queueEnable _ _ => execQueueEnable_keeps (.refl s)
  | .queueDisable _ _ => execQueueDisable_keeps (.refl s)
  | .queueDisabled _ => execQueueDisabled_keeps (.refl s)
  | .queueDestroy _ _ => execQueueDestroy_keeps (.refl s)
  | .queueFetch _ _ => execQueueFetch_keeps (.refl s)
  | .launch _ _ _ => execLaunch_keeps (.refl s)
  | .launchReserve _ _ => execLaunchReserve_keeps (.refl s)
  | .workCopy _ _ _ => execWorkCopy_keeps (.refl s)
  | .fill _ _ _ => execFill_keeps (.refl s)
  | .signal _ _ => execSignal_keeps (.refl s)
  | .wait _ _ => execWait_keeps (.refl s)
  | .barrier _ _ => execBarrier_keeps (.refl s)
  | .censusRead _ _ _ => execCensusRead_keeps (.refl s)
  | .descriptorComplete _ _ => execDescriptorComplete_keeps (.refl s)
  | .fenceCreate _ _ _ => execFenceCreate_keeps (.refl s)
  | .fenceDestroy _ _ => execFenceDestroy_keeps (.refl s)
  | .fenceSignal _ _ _ => execFenceSignal_keeps (.refl s)
  | .fenceReset _ _ => execFenceReset_keeps (.refl s)
  | .objRetain _ _ _ _ => execObjRetain_keeps (.refl s)
  | .objRelease _ _ _ _ => execObjRelease_keeps (.refl s)
  | .hubEvtCtl _ _ _ => execHubEvtCtl_keeps (.refl s)
  | .hubEvtAck _ _ => execHubEvtAck_keeps (.refl s)
  | .ptFaultCtl _ _ => execPtFaultCtl_keeps (.refl s)
  | .ptFaultAck _ _ => execPtFaultAck_keeps (.refl s)
  | .hubCmdTail _ => execHubCmdTail_keeps (.refl s)
  | .hubCmdCtl _ _ => execHubCmdCtl_keeps (.refl s)
  | .packetFetch _ _ => execPacketFetch_keeps (.refl s)
  | .claim _ => execClaim_keeps (.refl s)
  | .release _ => execRelease_keeps (.refl s)
  | .go _ _ => execGo_keeps (.refl s)
  | .mailboxReleaseTimeout => execMailboxReleaseTimeout_keeps (.refl s)
  | .regStage _ _ => execRegStage_keeps (.refl s)
  | .txnBegin _ _ => execTxnBegin_keeps (.refl s)
  | .txnCommit _ => execTxnCommit_keeps (.refl s)
  | .txnRollback _ => execTxnRollback_keeps (.refl s)
  | .txnQuery _ => execTxnQuery_keeps (.refl s)
  | .txnJournal _ => execTxnJournal_keeps (.refl s)
  | .txnIdleTimeout _ => execTxnIdleTimeout_keeps (.refl s)
  | .offlineClear _ _ _ => execOfflineClear_keeps (.refl s)
  | .autotierPoolGrant _ _ _ => execAutotierPoolGrant_keeps (.refl s)
  | .autotierPoolWithdraw _ _ _ => execAutotierPoolWithdraw_keeps (.refl s)
  | .partitionReset _ => execPartitionReset_keeps (.refl s)
  | .partitionLayout _ _ _ _ _ => execPartitionLayout_keeps (.refl s)
  | .instanceCreate _ _ _ => execInstanceCreate_keeps (.refl s)
  | .instanceDestroy _ _ => execInstanceDestroy_keeps (.refl s)
  | .instanceFreeze _ _ _ => execInstanceFreeze_keeps (.refl s)
  | .instanceThaw a b c => show KeepsX s (execInstanceThaw a b c s) from execInstanceThaw_keeps (.refl s)
  | .instanceFrozen _ => execInstanceFrozen_keeps (.refl s)
  | .instanceFreezeTimeout _ _ => execInstanceFreezeTimeout_keeps (.refl s)
  | .instanceSave _ _ _ _ => execInstanceSave_keeps (.refl s)
  | .instanceRestore a b c d e f g => show KeepsX s (execInstanceRestore a b c d e f g s) from execInstanceRestore_keeps (.refl s)
  | .missWindowEnd => execMissWindowEnd_keeps (.refl s)
  | .siteReset _ _ => execSiteReset_keeps (.refl s)
  | .siteAdmissionTimeout _ => execSiteAdmissionTimeout_keeps (.refl s)
  | .declare _ _ _ => execDeclare_keeps (.refl s)
  | .shedAck _ _ _ => execShedAck_keeps (.refl s)
  | .quiesceTimeout _ => execQuiesceTimeout_keeps (.refl s)
  | .nopFrame _ _ _ _ _ _ => execNopFrame_keeps (.refl s)
  | .msg _ _ _ => execMsg_keeps (.refl s)
  | .doorbell _ _ _ _ _ _ _ _ _ => execDoorbell_keeps (.refl s)
  | .apertureTimeout _ _ => execApertureTimeout_keeps (.refl s)
  | .siteLinkLoss _ => execSiteLinkLoss_keeps (.refl s)
  | .laneRepair _ _ _ _ => execLaneRepair_keeps (.refl s)
  | .rdcurr _ _ _ _ => execRdcurr_keeps (.refl s)
  | .rdshared _ _ _ _ => execRdshared_keeps (.refl s)
  | .rdany _ _ _ _ => execRdany_keeps (.refl s)
  | .rdown _ _ _ _ => execRdown_keeps (.refl s)
  | .rdownnodata _ _ _ _ => execRdownnodata_keeps (.refl s)
  | .dirtyevict _ _ _ _ _ => execDirtyevict_keeps (.refl s)
  | .cleanevict _ _ _ _ => execCleanevict_keeps (.refl s)
  | .cleanevictnodata _ _ _ => execCleanevictnodata_keeps (.refl s)
  | .itomwr _ _ _ _ _ => execItomwr_keeps (.refl s)
  | .wrcur _ _ _ _ _ => execWrcur_keeps (.refl s)
  | .wowrinvf _ _ _ _ _ => execWowrinvf_keeps (.refl s)
  | .wowrinv _ _ _ _ _ _ => execWowrinv_keeps (.refl s)
  | .cxlIoMemoryRequest _ _ _ _ _ => execCxlIoMemoryRequest_keeps (.refl s)
  | .siteGrantRequest _ _ _ => execSiteGrantRequest_keeps (.refl s)
  | .siteGrantAperture _ _ _ => execSiteGrantAperture_keeps (.refl s)
  | .siteGrantWithdraw _ _ _ => execSiteGrantWithdraw_keeps (.refl s)
  | .sitePowerSample _ _ => execSitePowerSample_keeps (.refl s)
  | .sitePowerReset _ => execSitePowerReset_keeps (.refl s)
  | .siteTest _ _ _ => execSiteTest_keeps (.refl s)
  | .slPortReset _ _ => execSlPortReset_keeps (.refl s)
  | .slWindowSet _ _ => execSlWindowSet_keeps (.refl s)
  | .slWindowClear _ _ _ => execSlWindowClear_keeps (.refl s)
  | .slRekey _ _ => execSlRekey_keeps (.refl s)
  | .rekeyStart _ _ => execRekeyStart_keeps (.refl s)
  | .hold _ => execHold_keeps (.refl s)
  | .ready _ => execReady_keeps (.refl s)
  | .ackBlock _ _ => execAckBlock_keeps (.refl s)
  | .nak _ _ => execNak_keeps (.refl s)
  | .credit _ _ _ => execCredit_keeps (.refl s)
  | .lpi a => show KeepsX s (execLpi a s) from execLpi_keeps (.refl s)
  | .wake _ => execWake_keeps (.refl s)
  | .lpiEntry _ => execLpiEntry_keeps (.refl s)
  | .ackInterval _ => execAckInterval_keeps (.refl s)
  | .packet _ _ => execPacket_keeps (.refl s)
  | .write _ _ _ => execWrite_keeps (.refl s)
  | .read _ _ _ => execRead_keeps (.refl s)
  | .remoteAtomic _ _ _ => execRemoteAtomic_keeps (.refl s)
  | .remoteFence _ _ => execRemoteFence_keeps (.refl s)
  | .winState _ => execWinState_keeps (.refl s)
  | .rekeyKem _ => execRekeyKem_keeps (.refl s)
  | .rekeyEncap _ => execRekeyEncap_keeps (.refl s)
  | .error _ => execError_keeps (.refl s)
  | .readData _ => execReadData_keeps (.refl s)
  | .atomicData _ => execAtomicData_keeps (.refl s)
  | .fenceAck _ => execFenceAck_keeps (.refl s)
  | .remoteTimeout _ _ => execRemoteTimeout_keeps (.refl s)
  | .phyLock _ _ => execPhyLock_keeps (.refl s)
  | .qualificationComplete _ _ => execQualificationComplete_keeps (.refl s)
  | .hello _ _ _ => execHello_keeps (.refl s)
  | .kem _ => execKem_keeps (.refl s)
  | .encap _ _ => execEncap_keeps (.refl s)
  | .finish _ _ => execFinish_keeps (.refl s)
  | .berMeasurement _ _ _ => execBerMeasurement_keeps (.refl s)
  | .sloythLinkLoss _ => execSloythLinkLoss_keeps (.refl s)
  | .keySlotBind _ _ => execKeySlotBind_keeps (.refl s)
  | .keySlotDrain _ => execKeySlotDrain_keeps (.refl s)
  | .keyDrainTimeout _ => execKeyDrainTimeout_keeps (.refl s)
  | .attestReport _ _ _ => execAttestReport_keeps (.refl s)
  | .attestRead _ _ _ => execAttestRead_keeps (.refl s)
  | .attestIdentity _ _ => execAttestIdentity_keeps (.refl s)
  | .debugChallenge _ _ => execDebugChallenge_keeps (.refl s)
  | .debugResponse _ _ _ _ => execDebugResponse_keeps (.refl s)
  | .challengeLapse => execChallengeLapse_keeps (.refl s)
  | .debugLockoutEnd => execDebugLockoutEnd_keeps (.refl s)
  | .lcTransition _ _ _ _ _ _ _ _ => execLcTransition_keeps (.refl s)
  | .profileSet _ _ _ _ => execProfileSet_keeps (.refl s)
  | .fwUpdate _ _ _ _ => execFwUpdate_keeps (.refl s)
  | .repairQuiesceRun _ _ => execRepairQuiesceRun_keeps (.refl s)
  | .repairQuiesceQuery a b => show KeepsX s (execRepairQuiesceQuery a b s) from execRepairQuiesceQuery_keeps (.refl s)
  | .serviceQuerySummary a b => show KeepsX s (execServiceQuerySummary a b s) from execServiceQuerySummary_keeps (.refl s)
  | .serviceQueryRecords _ _ => execServiceQueryRecords_keeps (.refl s)
  | .serviceQueryReports a b => show KeepsX s (execServiceQueryReports a b s) from execServiceQueryReports_keeps (.refl s)
  | .serviceQueryPresentation a b => show KeepsX s (execServiceQueryPresentation a b s) from execServiceQueryPresentation_keeps (.refl s)
  | .marginSample _ _ => execMarginSample_keeps (.refl s)
  | .repair _ _ _ _ _ _ => execRepair_keeps (.refl s)
  | .repairPending _ => execRepairPending_keeps (.refl s)
  | .powerQuery _ => execPowerQuery_keeps (.refl s)
  | .powerControlTick _ _ _ => execPowerControlTick_keeps (.refl s)
  | .regulatorAlert => execRegulatorAlert_keeps (.refl s)
  | .dieTemperatureSample _ _ => execDieTemperatureSample_keeps (.refl s)
  | .thermtrip => execThermtrip_keeps (.refl s)
  | .sensorRead _ _ => execSensorRead_keeps (.refl s)
  | .flowFault _ => execFlowFault_keeps (.refl s)
  | .failsafeEnd => execFailsafeEnd_keeps (.refl s)
  | .loopSetpointUpdate => execLoopSetpointUpdate_keeps (.refl s)
  | .pumpDutyUpdate _ _ => execPumpDutyUpdate_keeps (.refl s)
  | .railSample _ => execRailSample_keeps (.refl s)
  | .pwrFailN _ => execPwrFailN_keeps (.refl s)
  | .shedLevelFall => execShedLevelFall_keeps (.refl s)
  | .setOffset _ _ => execSetOffset_keeps (.refl s)
  | .read32 => execRead32_keeps (.refl s)
  | .write32 _ _ => execWrite32_keeps (.refl s)
  | .registerWrite _ _ _ _ => execRegisterWrite_keeps (.refl s)
  | .porNDeassert => execPorNDeassert_keeps (.refl s)
  | .siteLinkUp _ _ _ _ => execSiteLinkUp_keeps (.refl s)
  | .admissionStepTimeout _ _ => execAdmissionStepTimeout_keeps (.refl s)
  | .transmitEqualisationComplete _ => execTransmitEqualisationComplete_keeps (.refl s)
  | .regulatorAlertClear => execRegulatorAlertClear_keeps (.refl s)

end Sys2Proof.Machine
end

