-- ==== Sys2Proof/Laws/State.lean ====
section
/-!
SUPPORT. What each update of one table of the state leaves alone, field by field, and what a read finds after
it.
-/
namespace Sys2Proof.Machine

/-! ### A read after an update -/

@[simp] theorem core_setCore_self (s : State) (k : Nat) (x : Core) : (s.setCore k x).core k = x := by
  simp [State.core, State.setCore]
@[simp] theorem core_setCore_ne (s : State) (x : Core) {k i : Nat} (h : i ≠ k) : (s.setCore k x).core i = s.core i := by
  simp [State.core, State.setCore, h]
@[simp] theorem cluster_setCluster_self (s : State) (k : Nat) (x : Cluster) : (s.setCluster k x).cluster k = x := by
  simp [State.cluster, State.setCluster]
@[simp] theorem cluster_setCluster_ne (s : State) (x : Cluster) {k i : Nat} (h : i ≠ k) : (s.setCluster k x).cluster i = s.cluster i := by
  simp [State.cluster, State.setCluster, h]
@[simp] theorem line_setLine_self (s : State) (k : Nat) (x : Line) : (s.setLine k x).line k = x := by
  simp [State.line, State.setLine]
@[simp] theorem line_setLine_ne (s : State) (x : Line) {k i : Nat} (h : i ≠ k) : (s.setLine k x).line i = s.line i := by
  simp [State.line, State.setLine, h]
@[simp] theorem gran_setGran_self (s : State) (k : Nat) (x : Gran) : (s.setGran k x).gran k = x := by
  simp [State.gran, State.setGran]
@[simp] theorem gran_setGran_ne (s : State) (x : Gran) {k i : Nat} (h : i ≠ k) : (s.setGran k x).gran i = s.gran i := by
  simp [State.gran, State.setGran, h]
@[simp] theorem site_setSite_self (s : State) (k : Nat) (x : Site) : (s.setSite k x).site k = x := by
  simp [State.site, State.setSite]
@[simp] theorem site_setSite_ne (s : State) (x : Site) {k i : Nat} (h : i ≠ k) : (s.setSite k x).site i = s.site i := by
  simp [State.site, State.setSite, h]
@[simp] theorem part_setPart_self (s : State) (k : Nat) (x : Part) : (s.setPart k x).part k = x := by
  simp [State.part, State.setPart]
@[simp] theorem part_setPart_ne (s : State) (x : Part) {k i : Nat} (h : i ≠ k) : (s.setPart k x).part i = s.part i := by
  simp [State.part, State.setPart, h]
@[simp] theorem ctx_setCtx_self (s : State) (k : Nat) (x : Ctx) : (s.setCtx k x).ctx k = some x := by
  simp [State.ctx, State.setCtx]
@[simp] theorem ctx_setCtx_ne (s : State) (x : Ctx) {k i : Nat} (h : i ≠ k) : (s.setCtx k x).ctx i = s.ctx i := by
  simp [State.ctx, State.setCtx, h]
@[simp] theorem queue_setQueue_self (s : State) (k : Nat) (x : Queue) : (s.setQueue k x).queue k = some x := by
  simp [State.queue, State.setQueue]
@[simp] theorem queue_setQueue_ne (s : State) (x : Queue) {k i : Nat} (h : i ≠ k) : (s.setQueue k x).queue i = s.queue i := by
  simp [State.queue, State.setQueue, h]
@[simp] theorem fence_setFence_self (s : State) (k : Nat) (x : Fence) : (s.setFence k x).fence k = some x := by
  simp [State.fence, State.setFence]
@[simp] theorem fence_setFence_ne (s : State) (x : Fence) {k i : Nat} (h : i ≠ k) : (s.setFence k x).fence i = s.fence i := by
  simp [State.fence, State.setFence, h]
@[simp] theorem ring_setRing_self (s : State) (k : Nat) (x : EvRing) : (s.setRing k x).ring k = x := by
  simp [State.ring, State.setRing]
@[simp] theorem ring_setRing_ne (s : State) (x : EvRing) {k i : Nat} (h : i ≠ k) : (s.setRing k x).ring i = s.ring i := by
  simp [State.ring, State.setRing, h]
@[simp] theorem fring_setFring_self (s : State) (k : Nat) (x : FaultRing) : (s.setFring k x).fring k = x := by
  simp [State.fring, State.setFring]
@[simp] theorem fring_setFring_ne (s : State) (x : FaultRing) {k i : Nat} (h : i ≠ k) : (s.setFring k x).fring i = s.fring i := by
  simp [State.fring, State.setFring, h]
@[simp] theorem ctl_setCtl_self (s : State) (k : Nat) (x : Ctl) : (s.setCtl k x).ctl k = x := by
  simp [State.ctl, State.setCtl]
@[simp] theorem ctl_setCtl_ne (s : State) (x : Ctl) {k i : Nat} (h : i ≠ k) : (s.setCtl k x).ctl i = s.ctl i := by
  simp [State.ctl, State.setCtl, h]
@[simp] theorem reg_setReg_self (s : State) (k x r : Nat) : (s.setReg k x).reg k r = x := by
  simp [State.reg, State.setReg]
@[simp] theorem reg_setReg_ne (s : State) (x r : Nat) {k i : Nat} (h : i ≠ k) : (s.setReg k x).reg i r = s.reg i r := by
  simp [State.reg, State.setReg, h]
@[simp] theorem slPort_setSlPort_self (s : State) (k : Nat) (x : SlPort) : (s.setSlPort k x).slPort k = x := by
  simp [State.slPort, State.setSlPort]
@[simp] theorem slPort_setSlPort_ne (s : State) (x : SlPort) {k i : Nat} (h : i ≠ k) : (s.setSlPort k x).slPort i = s.slPort i := by
  simp [State.slPort, State.setSlPort, h]

/-! ### Fields an update leaves alone -/

@[simp] theorem setCore_regs (s : State) (k : Nat) (x : Core) : (s.setCore k x).regs = s.regs := rfl
@[simp] theorem setCore_fuse (s : State) (k : Nat) (x : Core) : (s.setCore k x).fuse = s.fuse := rfl
@[simp] theorem setCore_flash (s : State) (k : Nat) (x : Core) : (s.setCore k x).flash = s.flash := rfl
@[simp] theorem setCore_sec (s : State) (k : Nat) (x : Core) : (s.setCore k x).sec = s.sec := rfl
@[simp] theorem setCore_clocks (s : State) (k : Nat) (x : Core) : (s.setCore k x).clocks = s.clocks := rfl
@[simp] theorem setCore_rst (s : State) (k : Nat) (x : Core) : (s.setCore k x).rst = s.rst := rfl
@[simp] theorem setCore_co (s : State) (k : Nat) (x : Core) : (s.setCore k x).co = s.co := rfl
@[simp] theorem setCore_power (s : State) (k : Nat) (x : Core) : (s.setCore k x).power = s.power := rfl
@[simp] theorem setCore_parts (s : State) (k : Nat) (x : Core) : (s.setCore k x).parts = s.parts := rfl
@[simp] theorem setCore_sites (s : State) (k : Nat) (x : Core) : (s.setCore k x).sites = s.sites := rfl
@[simp] theorem setCore_siteRecs (s : State) (k : Nat) (x : Core) : (s.setCore k x).siteRecs = s.siteRecs := rfl
@[simp] theorem setCore_slPorts (s : State) (k : Nat) (x : Core) : (s.setCore k x).slPorts = s.slPorts := rfl
@[simp] theorem setCore_slConf (s : State) (k : Nat) (x : Core) : (s.setCore k x).slConf = s.slConf := rfl
@[simp] theorem setCore_winOut (s : State) (k : Nat) (x : Core) : (s.setCore k x).winOut = s.winOut := rfl
@[simp] theorem setCore_winIn (s : State) (k : Nat) (x : Core) : (s.setCore k x).winIn = s.winIn := rfl
@[simp] theorem setCore_port (s : State) (k : Nat) (x : Core) : (s.setCore k x).port = s.port := rfl
@[simp] theorem setCore_fuseSeg (s : State) (k : Nat) (x : Core) : (s.setCore k x).fuseSeg = s.fuseSeg := rfl
@[simp] theorem setCore_rep (s : State) (k : Nat) (x : Core) : (s.setCore k x).rep = s.rep := rfl
@[simp] theorem setCore_clusters (s : State) (k : Nat) (x : Core) : (s.setCore k x).clusters = s.clusters := rfl
@[simp] theorem setCore_lines (s : State) (k : Nat) (x : Core) : (s.setCore k x).lines = s.lines := rfl
@[simp] theorem setCore_net (s : State) (k : Nat) (x : Core) : (s.setCore k x).net = s.net := rfl
@[simp] theorem setCore_ans (s : State) (k : Nat) (x : Core) : (s.setCore k x).ans = s.ans := rfl
@[simp] theorem setCore_asked (s : State) (k : Nat) (x : Core) : (s.setCore k x).asked = s.asked := rfl
@[simp] theorem setCore_reqTxn (s : State) (k : Nat) (x : Core) : (s.setCore k x).reqTxn = s.reqTxn := rfl
@[simp] theorem setCore_posted (s : State) (k : Nat) (x : Core) : (s.setCore k x).posted = s.posted := rfl
@[simp] theorem setCore_msc (s : State) (k : Nat) (x : Core) : (s.setCore k x).msc = s.msc := rfl
@[simp] theorem setCore_sealed (s : State) (k : Nat) (x : Core) : (s.setCore k x).sealed = s.sealed := rfl
@[simp] theorem setCore_resetDue (s : State) (k : Nat) (x : Core) : (s.setCore k x).resetDue = s.resetDue := rfl
@[simp] theorem setCore_offMore (s : State) (k : Nat) (x : Core) : (s.setCore k x).offMore = s.offMore := rfl
@[simp] theorem setCore_heldSnp (s : State) (k : Nat) (x : Core) : (s.setCore k x).heldSnp = s.heldSnp := rfl
@[simp] theorem setCore_media (s : State) (k : Nat) (x : Core) : (s.setCore k x).media = s.media := rfl
@[simp] theorem setCore_corr (s : State) (k : Nat) (x : Core) : (s.setCore k x).corr = s.corr := rfl
@[simp] theorem setCore_heat (s : State) (k : Nat) (x : Core) : (s.setCore k x).heat = s.heat := rfl
@[simp] theorem setCore_heatVal (s : State) (k : Nat) (x : Core) : (s.setCore k x).heatVal = s.heatVal := rfl
@[simp] theorem setCore_ctls (s : State) (k : Nat) (x : Core) : (s.setCore k x).ctls = s.ctls := rfl
@[simp] theorem setCore_miss (s : State) (k : Nat) (x : Core) : (s.setCore k x).miss = s.miss := rfl
@[simp] theorem setCore_moves (s : State) (k : Nat) (x : Core) : (s.setCore k x).moves = s.moves := rfl
@[simp] theorem setCore_autos (s : State) (k : Nat) (x : Core) : (s.setCore k x).autos = s.autos := rfl
@[simp] theorem setCore_keys (s : State) (k : Nat) (x : Core) : (s.setCore k x).keys = s.keys := rfl
@[simp] theorem setCore_secIntegrity (s : State) (k : Nat) (x : Core) : (s.setCore k x).secIntegrity = s.secIntegrity := rfl
@[simp] theorem setCore_secAuth (s : State) (k : Nat) (x : Core) : (s.setCore k x).secAuth = s.secAuth := rfl
@[simp] theorem setCore_secLast (s : State) (k : Nat) (x : Core) : (s.setCore k x).secLast = s.secLast := rfl
@[simp] theorem setCore_traffic (s : State) (k : Nat) (x : Core) : (s.setCore k x).traffic = s.traffic := rfl
@[simp] theorem setCore_snpTxn (s : State) (k : Nat) (x : Core) : (s.setCore k x).snpTxn = s.snpTxn := rfl
@[simp] theorem setCore_useStamp (s : State) (k : Nat) (x : Core) : (s.setCore k x).useStamp = s.useStamp := rfl
@[simp] theorem setCore_mem (s : State) (k : Nat) (x : Core) : (s.setCore k x).mem = s.mem := rfl
@[simp] theorem setCore_pot (s : State) (k : Nat) (x : Core) : (s.setCore k x).pot = s.pot := rfl
@[simp] theorem setCore_pool (s : State) (k : Nat) (x : Core) : (s.setCore k x).pool = s.pool := rfl
@[simp] theorem setCore_moved (s : State) (k : Nat) (x : Core) : (s.setCore k x).moved = s.moved := rfl
@[simp] theorem setCore_granA (s : State) (k : Nat) (x : Core) : (s.setCore k x).granA = s.granA := rfl
@[simp] theorem setCore_granB (s : State) (k : Nat) (x : Core) : (s.setCore k x).granB = s.granB := rfl
@[simp] theorem setCore_granC (s : State) (k : Nat) (x : Core) : (s.setCore k x).granC = s.granC := rfl
@[simp] theorem setCore_offline (s : State) (k : Nat) (x : Core) : (s.setCore k x).offline = s.offline := rfl
@[simp] theorem setCore_offOverflow (s : State) (k : Nat) (x : Core) : (s.setCore k x).offOverflow = s.offOverflow := rfl
@[simp] theorem setCore_opSeconds (s : State) (k : Nat) (x : Core) : (s.setCore k x).opSeconds = s.opSeconds := rfl
@[simp] theorem setCore_ctxs (s : State) (k : Nat) (x : Core) : (s.setCore k x).ctxs = s.ctxs := rfl
@[simp] theorem setCore_allocs (s : State) (k : Nat) (x : Core) : (s.setCore k x).allocs = s.allocs := rfl
@[simp] theorem setCore_shoots (s : State) (k : Nat) (x : Core) : (s.setCore k x).shoots = s.shoots := rfl
@[simp] theorem setCore_changes (s : State) (k : Nat) (x : Core) : (s.setCore k x).changes = s.changes := rfl
@[simp] theorem setCore_halted (s : State) (k : Nat) (x : Core) : (s.setCore k x).halted = s.halted := rfl
@[simp] theorem setCore_drops (s : State) (k : Nat) (x : Core) : (s.setCore k x).drops = s.drops := rfl
@[simp] theorem setCore_queues (s : State) (k : Nat) (x : Core) : (s.setCore k x).queues = s.queues := rfl
@[simp] theorem setCore_fences (s : State) (k : Nat) (x : Core) : (s.setCore k x).fences = s.fences := rfl
@[simp] theorem setCore_fenceBlocks (s : State) (k : Nat) (x : Core) : (s.setCore k x).fenceBlocks = s.fenceBlocks := rfl
@[simp] theorem setCore_launches (s : State) (k : Nat) (x : Core) : (s.setCore k x).launches = s.launches := rfl
@[simp] theorem setCore_resv (s : State) (k : Nat) (x : Core) : (s.setCore k x).resv = s.resv := rfl
@[simp] theorem setCore_served (s : State) (k : Nat) (x : Core) : (s.setCore k x).served = s.served := rfl
@[simp] theorem setCore_insts (s : State) (k : Nat) (x : Core) : (s.setCore k x).insts = s.insts := rfl
@[simp] theorem setCore_evt (s : State) (k : Nat) (x : Core) : (s.setCore k x).evt = s.evt := rfl
@[simp] theorem setCore_frings (s : State) (k : Nat) (x : Core) : (s.setCore k x).frings = s.frings := rfl
@[simp] theorem setCore_cmd (s : State) (k : Nat) (x : Core) : (s.setCore k x).cmd = s.cmd := rfl
@[simp] theorem setCore_accepted (s : State) (k : Nat) (x : Core) : (s.setCore k x).accepted = s.accepted := rfl
@[simp] theorem setCore_mbx (s : State) (k : Nat) (x : Core) : (s.setCore k x).mbx = s.mbx := rfl
@[simp] theorem setCore_txns (s : State) (k : Nat) (x : Core) : (s.setCore k x).txns = s.txns := rfl
@[simp] theorem setCore_nextTxn (s : State) (k : Nat) (x : Core) : (s.setCore k x).nextTxn = s.nextTxn := rfl
@[simp] theorem setCore_cfgGen (s : State) (k : Nat) (x : Core) : (s.setCore k x).cfgGen = s.cfgGen := rfl
@[simp] theorem setCore_gens (s : State) (k : Nat) (x : Core) : (s.setCore k x).gens = s.gens := rfl
@[simp] theorem setCore_lastCommit (s : State) (k : Nat) (x : Core) : (s.setCore k x).lastCommit = s.lastCommit := rfl
@[simp] theorem setCore_flashJournal (s : State) (k : Nat) (x : Core) : (s.setCore k x).flashJournal = s.flashJournal := rfl
@[simp] theorem setCore_journal (s : State) (k : Nat) (x : Core) : (s.setCore k x).journal = s.journal := rfl
@[simp] theorem setCore_txnConflicts (s : State) (k : Nat) (x : Core) : (s.setCore k x).txnConflicts = s.txnConflicts := rfl
@[simp] theorem setCore_txnAborts (s : State) (k : Nat) (x : Core) : (s.setCore k x).txnAborts = s.txnAborts := rfl
@[simp] theorem setCore_out (s : State) (k : Nat) (x : Core) : (s.setCore k x).out = s.out := rfl
@[simp] theorem setCore_free (s : State) (k : Nat) (x : Core) : (s.setCore k x).free = s.free := rfl
@[simp] theorem setCore_pending (s : State) (k : Nat) (x : Core) : (s.setCore k x).pending = s.pending := rfl

@[simp] theorem setCluster_regs (s : State) (k : Nat) (x : Cluster) : (s.setCluster k x).regs = s.regs := rfl
@[simp] theorem setCluster_fuse (s : State) (k : Nat) (x : Cluster) : (s.setCluster k x).fuse = s.fuse := rfl
@[simp] theorem setCluster_flash (s : State) (k : Nat) (x : Cluster) : (s.setCluster k x).flash = s.flash := rfl
@[simp] theorem setCluster_sec (s : State) (k : Nat) (x : Cluster) : (s.setCluster k x).sec = s.sec := rfl
@[simp] theorem setCluster_clocks (s : State) (k : Nat) (x : Cluster) : (s.setCluster k x).clocks = s.clocks := rfl
@[simp] theorem setCluster_rst (s : State) (k : Nat) (x : Cluster) : (s.setCluster k x).rst = s.rst := rfl
@[simp] theorem setCluster_co (s : State) (k : Nat) (x : Cluster) : (s.setCluster k x).co = s.co := rfl
@[simp] theorem setCluster_power (s : State) (k : Nat) (x : Cluster) : (s.setCluster k x).power = s.power := rfl
@[simp] theorem setCluster_parts (s : State) (k : Nat) (x : Cluster) : (s.setCluster k x).parts = s.parts := rfl
@[simp] theorem setCluster_sites (s : State) (k : Nat) (x : Cluster) : (s.setCluster k x).sites = s.sites := rfl
@[simp] theorem setCluster_siteRecs (s : State) (k : Nat) (x : Cluster) : (s.setCluster k x).siteRecs = s.siteRecs := rfl
@[simp] theorem setCluster_slPorts (s : State) (k : Nat) (x : Cluster) : (s.setCluster k x).slPorts = s.slPorts := rfl
@[simp] theorem setCluster_slConf (s : State) (k : Nat) (x : Cluster) : (s.setCluster k x).slConf = s.slConf := rfl
@[simp] theorem setCluster_winOut (s : State) (k : Nat) (x : Cluster) : (s.setCluster k x).winOut = s.winOut := rfl
@[simp] theorem setCluster_winIn (s : State) (k : Nat) (x : Cluster) : (s.setCluster k x).winIn = s.winIn := rfl
@[simp] theorem setCluster_port (s : State) (k : Nat) (x : Cluster) : (s.setCluster k x).port = s.port := rfl
@[simp] theorem setCluster_cores (s : State) (k : Nat) (x : Cluster) : (s.setCluster k x).cores = s.cores := rfl
@[simp] theorem setCluster_fuseSeg (s : State) (k : Nat) (x : Cluster) : (s.setCluster k x).fuseSeg = s.fuseSeg := rfl
@[simp] theorem setCluster_rep (s : State) (k : Nat) (x : Cluster) : (s.setCluster k x).rep = s.rep := rfl
@[simp] theorem setCluster_lines (s : State) (k : Nat) (x : Cluster) : (s.setCluster k x).lines = s.lines := rfl
@[simp] theorem setCluster_net (s : State) (k : Nat) (x : Cluster) : (s.setCluster k x).net = s.net := rfl
@[simp] theorem setCluster_ans (s : State) (k : Nat) (x : Cluster) : (s.setCluster k x).ans = s.ans := rfl
@[simp] theorem setCluster_asked (s : State) (k : Nat) (x : Cluster) : (s.setCluster k x).asked = s.asked := rfl
@[simp] theorem setCluster_reqTxn (s : State) (k : Nat) (x : Cluster) : (s.setCluster k x).reqTxn = s.reqTxn := rfl
@[simp] theorem setCluster_posted (s : State) (k : Nat) (x : Cluster) : (s.setCluster k x).posted = s.posted := rfl
@[simp] theorem setCluster_msc (s : State) (k : Nat) (x : Cluster) : (s.setCluster k x).msc = s.msc := rfl
@[simp] theorem setCluster_sealed (s : State) (k : Nat) (x : Cluster) : (s.setCluster k x).sealed = s.sealed := rfl
@[simp] theorem setCluster_resetDue (s : State) (k : Nat) (x : Cluster) : (s.setCluster k x).resetDue = s.resetDue := rfl
@[simp] theorem setCluster_offMore (s : State) (k : Nat) (x : Cluster) : (s.setCluster k x).offMore = s.offMore := rfl
@[simp] theorem setCluster_heldSnp (s : State) (k : Nat) (x : Cluster) : (s.setCluster k x).heldSnp = s.heldSnp := rfl
@[simp] theorem setCluster_media (s : State) (k : Nat) (x : Cluster) : (s.setCluster k x).media = s.media := rfl
@[simp] theorem setCluster_corr (s : State) (k : Nat) (x : Cluster) : (s.setCluster k x).corr = s.corr := rfl
@[simp] theorem setCluster_heat (s : State) (k : Nat) (x : Cluster) : (s.setCluster k x).heat = s.heat := rfl
@[simp] theorem setCluster_heatVal (s : State) (k : Nat) (x : Cluster) : (s.setCluster k x).heatVal = s.heatVal := rfl
@[simp] theorem setCluster_ctls (s : State) (k : Nat) (x : Cluster) : (s.setCluster k x).ctls = s.ctls := rfl
@[simp] theorem setCluster_miss (s : State) (k : Nat) (x : Cluster) : (s.setCluster k x).miss = s.miss := rfl
@[simp] theorem setCluster_moves (s : State) (k : Nat) (x : Cluster) : (s.setCluster k x).moves = s.moves := rfl
@[simp] theorem setCluster_autos (s : State) (k : Nat) (x : Cluster) : (s.setCluster k x).autos = s.autos := rfl
@[simp] theorem setCluster_keys (s : State) (k : Nat) (x : Cluster) : (s.setCluster k x).keys = s.keys := rfl
@[simp] theorem setCluster_secIntegrity (s : State) (k : Nat) (x : Cluster) : (s.setCluster k x).secIntegrity = s.secIntegrity := rfl
@[simp] theorem setCluster_secAuth (s : State) (k : Nat) (x : Cluster) : (s.setCluster k x).secAuth = s.secAuth := rfl
@[simp] theorem setCluster_secLast (s : State) (k : Nat) (x : Cluster) : (s.setCluster k x).secLast = s.secLast := rfl
@[simp] theorem setCluster_traffic (s : State) (k : Nat) (x : Cluster) : (s.setCluster k x).traffic = s.traffic := rfl
@[simp] theorem setCluster_snpTxn (s : State) (k : Nat) (x : Cluster) : (s.setCluster k x).snpTxn = s.snpTxn := rfl
@[simp] theorem setCluster_useStamp (s : State) (k : Nat) (x : Cluster) : (s.setCluster k x).useStamp = s.useStamp := rfl
@[simp] theorem setCluster_mem (s : State) (k : Nat) (x : Cluster) : (s.setCluster k x).mem = s.mem := rfl
@[simp] theorem setCluster_pot (s : State) (k : Nat) (x : Cluster) : (s.setCluster k x).pot = s.pot := rfl
@[simp] theorem setCluster_pool (s : State) (k : Nat) (x : Cluster) : (s.setCluster k x).pool = s.pool := rfl
@[simp] theorem setCluster_moved (s : State) (k : Nat) (x : Cluster) : (s.setCluster k x).moved = s.moved := rfl
@[simp] theorem setCluster_granA (s : State) (k : Nat) (x : Cluster) : (s.setCluster k x).granA = s.granA := rfl
@[simp] theorem setCluster_granB (s : State) (k : Nat) (x : Cluster) : (s.setCluster k x).granB = s.granB := rfl
@[simp] theorem setCluster_granC (s : State) (k : Nat) (x : Cluster) : (s.setCluster k x).granC = s.granC := rfl
@[simp] theorem setCluster_offline (s : State) (k : Nat) (x : Cluster) : (s.setCluster k x).offline = s.offline := rfl
@[simp] theorem setCluster_offOverflow (s : State) (k : Nat) (x : Cluster) : (s.setCluster k x).offOverflow = s.offOverflow := rfl
@[simp] theorem setCluster_opSeconds (s : State) (k : Nat) (x : Cluster) : (s.setCluster k x).opSeconds = s.opSeconds := rfl
@[simp] theorem setCluster_ctxs (s : State) (k : Nat) (x : Cluster) : (s.setCluster k x).ctxs = s.ctxs := rfl
@[simp] theorem setCluster_allocs (s : State) (k : Nat) (x : Cluster) : (s.setCluster k x).allocs = s.allocs := rfl
@[simp] theorem setCluster_shoots (s : State) (k : Nat) (x : Cluster) : (s.setCluster k x).shoots = s.shoots := rfl
@[simp] theorem setCluster_changes (s : State) (k : Nat) (x : Cluster) : (s.setCluster k x).changes = s.changes := rfl
@[simp] theorem setCluster_halted (s : State) (k : Nat) (x : Cluster) : (s.setCluster k x).halted = s.halted := rfl
@[simp] theorem setCluster_drops (s : State) (k : Nat) (x : Cluster) : (s.setCluster k x).drops = s.drops := rfl
@[simp] theorem setCluster_queues (s : State) (k : Nat) (x : Cluster) : (s.setCluster k x).queues = s.queues := rfl
@[simp] theorem setCluster_fences (s : State) (k : Nat) (x : Cluster) : (s.setCluster k x).fences = s.fences := rfl
@[simp] theorem setCluster_fenceBlocks (s : State) (k : Nat) (x : Cluster) : (s.setCluster k x).fenceBlocks = s.fenceBlocks := rfl
@[simp] theorem setCluster_launches (s : State) (k : Nat) (x : Cluster) : (s.setCluster k x).launches = s.launches := rfl
@[simp] theorem setCluster_resv (s : State) (k : Nat) (x : Cluster) : (s.setCluster k x).resv = s.resv := rfl
@[simp] theorem setCluster_served (s : State) (k : Nat) (x : Cluster) : (s.setCluster k x).served = s.served := rfl
@[simp] theorem setCluster_insts (s : State) (k : Nat) (x : Cluster) : (s.setCluster k x).insts = s.insts := rfl
@[simp] theorem setCluster_evt (s : State) (k : Nat) (x : Cluster) : (s.setCluster k x).evt = s.evt := rfl
@[simp] theorem setCluster_frings (s : State) (k : Nat) (x : Cluster) : (s.setCluster k x).frings = s.frings := rfl
@[simp] theorem setCluster_cmd (s : State) (k : Nat) (x : Cluster) : (s.setCluster k x).cmd = s.cmd := rfl
@[simp] theorem setCluster_accepted (s : State) (k : Nat) (x : Cluster) : (s.setCluster k x).accepted = s.accepted := rfl
@[simp] theorem setCluster_mbx (s : State) (k : Nat) (x : Cluster) : (s.setCluster k x).mbx = s.mbx := rfl
@[simp] theorem setCluster_txns (s : State) (k : Nat) (x : Cluster) : (s.setCluster k x).txns = s.txns := rfl
@[simp] theorem setCluster_nextTxn (s : State) (k : Nat) (x : Cluster) : (s.setCluster k x).nextTxn = s.nextTxn := rfl
@[simp] theorem setCluster_cfgGen (s : State) (k : Nat) (x : Cluster) : (s.setCluster k x).cfgGen = s.cfgGen := rfl
@[simp] theorem setCluster_gens (s : State) (k : Nat) (x : Cluster) : (s.setCluster k x).gens = s.gens := rfl
@[simp] theorem setCluster_lastCommit (s : State) (k : Nat) (x : Cluster) : (s.setCluster k x).lastCommit = s.lastCommit := rfl
@[simp] theorem setCluster_flashJournal (s : State) (k : Nat) (x : Cluster) : (s.setCluster k x).flashJournal = s.flashJournal := rfl
@[simp] theorem setCluster_journal (s : State) (k : Nat) (x : Cluster) : (s.setCluster k x).journal = s.journal := rfl
@[simp] theorem setCluster_txnConflicts (s : State) (k : Nat) (x : Cluster) : (s.setCluster k x).txnConflicts = s.txnConflicts := rfl
@[simp] theorem setCluster_txnAborts (s : State) (k : Nat) (x : Cluster) : (s.setCluster k x).txnAborts = s.txnAborts := rfl
@[simp] theorem setCluster_out (s : State) (k : Nat) (x : Cluster) : (s.setCluster k x).out = s.out := rfl
@[simp] theorem setCluster_free (s : State) (k : Nat) (x : Cluster) : (s.setCluster k x).free = s.free := rfl
@[simp] theorem setCluster_pending (s : State) (k : Nat) (x : Cluster) : (s.setCluster k x).pending = s.pending := rfl

@[simp] theorem setLine_regs (s : State) (k : Nat) (x : Line) : (s.setLine k x).regs = s.regs := rfl
@[simp] theorem setLine_fuse (s : State) (k : Nat) (x : Line) : (s.setLine k x).fuse = s.fuse := rfl
@[simp] theorem setLine_flash (s : State) (k : Nat) (x : Line) : (s.setLine k x).flash = s.flash := rfl
@[simp] theorem setLine_sec (s : State) (k : Nat) (x : Line) : (s.setLine k x).sec = s.sec := rfl
@[simp] theorem setLine_clocks (s : State) (k : Nat) (x : Line) : (s.setLine k x).clocks = s.clocks := rfl
@[simp] theorem setLine_rst (s : State) (k : Nat) (x : Line) : (s.setLine k x).rst = s.rst := rfl
@[simp] theorem setLine_co (s : State) (k : Nat) (x : Line) : (s.setLine k x).co = s.co := rfl
@[simp] theorem setLine_power (s : State) (k : Nat) (x : Line) : (s.setLine k x).power = s.power := rfl
@[simp] theorem setLine_parts (s : State) (k : Nat) (x : Line) : (s.setLine k x).parts = s.parts := rfl
@[simp] theorem setLine_sites (s : State) (k : Nat) (x : Line) : (s.setLine k x).sites = s.sites := rfl
@[simp] theorem setLine_siteRecs (s : State) (k : Nat) (x : Line) : (s.setLine k x).siteRecs = s.siteRecs := rfl
@[simp] theorem setLine_slPorts (s : State) (k : Nat) (x : Line) : (s.setLine k x).slPorts = s.slPorts := rfl
@[simp] theorem setLine_slConf (s : State) (k : Nat) (x : Line) : (s.setLine k x).slConf = s.slConf := rfl
@[simp] theorem setLine_winOut (s : State) (k : Nat) (x : Line) : (s.setLine k x).winOut = s.winOut := rfl
@[simp] theorem setLine_winIn (s : State) (k : Nat) (x : Line) : (s.setLine k x).winIn = s.winIn := rfl
@[simp] theorem setLine_port (s : State) (k : Nat) (x : Line) : (s.setLine k x).port = s.port := rfl
@[simp] theorem setLine_cores (s : State) (k : Nat) (x : Line) : (s.setLine k x).cores = s.cores := rfl
@[simp] theorem setLine_fuseSeg (s : State) (k : Nat) (x : Line) : (s.setLine k x).fuseSeg = s.fuseSeg := rfl
@[simp] theorem setLine_rep (s : State) (k : Nat) (x : Line) : (s.setLine k x).rep = s.rep := rfl
@[simp] theorem setLine_clusters (s : State) (k : Nat) (x : Line) : (s.setLine k x).clusters = s.clusters := rfl
@[simp] theorem setLine_net (s : State) (k : Nat) (x : Line) : (s.setLine k x).net = s.net := rfl
@[simp] theorem setLine_ans (s : State) (k : Nat) (x : Line) : (s.setLine k x).ans = s.ans := rfl
@[simp] theorem setLine_asked (s : State) (k : Nat) (x : Line) : (s.setLine k x).asked = s.asked := rfl
@[simp] theorem setLine_reqTxn (s : State) (k : Nat) (x : Line) : (s.setLine k x).reqTxn = s.reqTxn := rfl
@[simp] theorem setLine_posted (s : State) (k : Nat) (x : Line) : (s.setLine k x).posted = s.posted := rfl
@[simp] theorem setLine_msc (s : State) (k : Nat) (x : Line) : (s.setLine k x).msc = s.msc := rfl
@[simp] theorem setLine_sealed (s : State) (k : Nat) (x : Line) : (s.setLine k x).sealed = s.sealed := rfl
@[simp] theorem setLine_resetDue (s : State) (k : Nat) (x : Line) : (s.setLine k x).resetDue = s.resetDue := rfl
@[simp] theorem setLine_offMore (s : State) (k : Nat) (x : Line) : (s.setLine k x).offMore = s.offMore := rfl
@[simp] theorem setLine_heldSnp (s : State) (k : Nat) (x : Line) : (s.setLine k x).heldSnp = s.heldSnp := rfl
@[simp] theorem setLine_media (s : State) (k : Nat) (x : Line) : (s.setLine k x).media = s.media := rfl
@[simp] theorem setLine_corr (s : State) (k : Nat) (x : Line) : (s.setLine k x).corr = s.corr := rfl
@[simp] theorem setLine_heat (s : State) (k : Nat) (x : Line) : (s.setLine k x).heat = s.heat := rfl
@[simp] theorem setLine_heatVal (s : State) (k : Nat) (x : Line) : (s.setLine k x).heatVal = s.heatVal := rfl
@[simp] theorem setLine_ctls (s : State) (k : Nat) (x : Line) : (s.setLine k x).ctls = s.ctls := rfl
@[simp] theorem setLine_miss (s : State) (k : Nat) (x : Line) : (s.setLine k x).miss = s.miss := rfl
@[simp] theorem setLine_moves (s : State) (k : Nat) (x : Line) : (s.setLine k x).moves = s.moves := rfl
@[simp] theorem setLine_autos (s : State) (k : Nat) (x : Line) : (s.setLine k x).autos = s.autos := rfl
@[simp] theorem setLine_keys (s : State) (k : Nat) (x : Line) : (s.setLine k x).keys = s.keys := rfl
@[simp] theorem setLine_secIntegrity (s : State) (k : Nat) (x : Line) : (s.setLine k x).secIntegrity = s.secIntegrity := rfl
@[simp] theorem setLine_secAuth (s : State) (k : Nat) (x : Line) : (s.setLine k x).secAuth = s.secAuth := rfl
@[simp] theorem setLine_secLast (s : State) (k : Nat) (x : Line) : (s.setLine k x).secLast = s.secLast := rfl
@[simp] theorem setLine_traffic (s : State) (k : Nat) (x : Line) : (s.setLine k x).traffic = s.traffic := rfl
@[simp] theorem setLine_snpTxn (s : State) (k : Nat) (x : Line) : (s.setLine k x).snpTxn = s.snpTxn := rfl
@[simp] theorem setLine_useStamp (s : State) (k : Nat) (x : Line) : (s.setLine k x).useStamp = s.useStamp := rfl
@[simp] theorem setLine_mem (s : State) (k : Nat) (x : Line) : (s.setLine k x).mem = s.mem := rfl
@[simp] theorem setLine_pot (s : State) (k : Nat) (x : Line) : (s.setLine k x).pot = s.pot := rfl
@[simp] theorem setLine_pool (s : State) (k : Nat) (x : Line) : (s.setLine k x).pool = s.pool := rfl
@[simp] theorem setLine_moved (s : State) (k : Nat) (x : Line) : (s.setLine k x).moved = s.moved := rfl
@[simp] theorem setLine_granA (s : State) (k : Nat) (x : Line) : (s.setLine k x).granA = s.granA := rfl
@[simp] theorem setLine_granB (s : State) (k : Nat) (x : Line) : (s.setLine k x).granB = s.granB := rfl
@[simp] theorem setLine_granC (s : State) (k : Nat) (x : Line) : (s.setLine k x).granC = s.granC := rfl
@[simp] theorem setLine_offline (s : State) (k : Nat) (x : Line) : (s.setLine k x).offline = s.offline := rfl
@[simp] theorem setLine_offOverflow (s : State) (k : Nat) (x : Line) : (s.setLine k x).offOverflow = s.offOverflow := rfl
@[simp] theorem setLine_opSeconds (s : State) (k : Nat) (x : Line) : (s.setLine k x).opSeconds = s.opSeconds := rfl
@[simp] theorem setLine_ctxs (s : State) (k : Nat) (x : Line) : (s.setLine k x).ctxs = s.ctxs := rfl
@[simp] theorem setLine_allocs (s : State) (k : Nat) (x : Line) : (s.setLine k x).allocs = s.allocs := rfl
@[simp] theorem setLine_shoots (s : State) (k : Nat) (x : Line) : (s.setLine k x).shoots = s.shoots := rfl
@[simp] theorem setLine_changes (s : State) (k : Nat) (x : Line) : (s.setLine k x).changes = s.changes := rfl
@[simp] theorem setLine_halted (s : State) (k : Nat) (x : Line) : (s.setLine k x).halted = s.halted := rfl
@[simp] theorem setLine_drops (s : State) (k : Nat) (x : Line) : (s.setLine k x).drops = s.drops := rfl
@[simp] theorem setLine_queues (s : State) (k : Nat) (x : Line) : (s.setLine k x).queues = s.queues := rfl
@[simp] theorem setLine_fences (s : State) (k : Nat) (x : Line) : (s.setLine k x).fences = s.fences := rfl
@[simp] theorem setLine_fenceBlocks (s : State) (k : Nat) (x : Line) : (s.setLine k x).fenceBlocks = s.fenceBlocks := rfl
@[simp] theorem setLine_launches (s : State) (k : Nat) (x : Line) : (s.setLine k x).launches = s.launches := rfl
@[simp] theorem setLine_resv (s : State) (k : Nat) (x : Line) : (s.setLine k x).resv = s.resv := rfl
@[simp] theorem setLine_served (s : State) (k : Nat) (x : Line) : (s.setLine k x).served = s.served := rfl
@[simp] theorem setLine_insts (s : State) (k : Nat) (x : Line) : (s.setLine k x).insts = s.insts := rfl
@[simp] theorem setLine_evt (s : State) (k : Nat) (x : Line) : (s.setLine k x).evt = s.evt := rfl
@[simp] theorem setLine_frings (s : State) (k : Nat) (x : Line) : (s.setLine k x).frings = s.frings := rfl
@[simp] theorem setLine_cmd (s : State) (k : Nat) (x : Line) : (s.setLine k x).cmd = s.cmd := rfl
@[simp] theorem setLine_accepted (s : State) (k : Nat) (x : Line) : (s.setLine k x).accepted = s.accepted := rfl
@[simp] theorem setLine_mbx (s : State) (k : Nat) (x : Line) : (s.setLine k x).mbx = s.mbx := rfl
@[simp] theorem setLine_txns (s : State) (k : Nat) (x : Line) : (s.setLine k x).txns = s.txns := rfl
@[simp] theorem setLine_nextTxn (s : State) (k : Nat) (x : Line) : (s.setLine k x).nextTxn = s.nextTxn := rfl
@[simp] theorem setLine_cfgGen (s : State) (k : Nat) (x : Line) : (s.setLine k x).cfgGen = s.cfgGen := rfl
@[simp] theorem setLine_gens (s : State) (k : Nat) (x : Line) : (s.setLine k x).gens = s.gens := rfl
@[simp] theorem setLine_lastCommit (s : State) (k : Nat) (x : Line) : (s.setLine k x).lastCommit = s.lastCommit := rfl
@[simp] theorem setLine_flashJournal (s : State) (k : Nat) (x : Line) : (s.setLine k x).flashJournal = s.flashJournal := rfl
@[simp] theorem setLine_journal (s : State) (k : Nat) (x : Line) : (s.setLine k x).journal = s.journal := rfl
@[simp] theorem setLine_txnConflicts (s : State) (k : Nat) (x : Line) : (s.setLine k x).txnConflicts = s.txnConflicts := rfl
@[simp] theorem setLine_txnAborts (s : State) (k : Nat) (x : Line) : (s.setLine k x).txnAborts = s.txnAborts := rfl
@[simp] theorem setLine_out (s : State) (k : Nat) (x : Line) : (s.setLine k x).out = s.out := rfl
@[simp] theorem setLine_free (s : State) (k : Nat) (x : Line) : (s.setLine k x).free = s.free := rfl
@[simp] theorem setLine_pending (s : State) (k : Nat) (x : Line) : (s.setLine k x).pending = s.pending := rfl

@[simp] theorem setGran_regs (s : State) (k : Nat) (x : Gran) : (s.setGran k x).regs = s.regs := rfl
@[simp] theorem setGran_fuse (s : State) (k : Nat) (x : Gran) : (s.setGran k x).fuse = s.fuse := rfl
@[simp] theorem setGran_flash (s : State) (k : Nat) (x : Gran) : (s.setGran k x).flash = s.flash := rfl
@[simp] theorem setGran_sec (s : State) (k : Nat) (x : Gran) : (s.setGran k x).sec = s.sec := rfl
@[simp] theorem setGran_clocks (s : State) (k : Nat) (x : Gran) : (s.setGran k x).clocks = s.clocks := rfl
@[simp] theorem setGran_rst (s : State) (k : Nat) (x : Gran) : (s.setGran k x).rst = s.rst := rfl
@[simp] theorem setGran_co (s : State) (k : Nat) (x : Gran) : (s.setGran k x).co = s.co := rfl
@[simp] theorem setGran_power (s : State) (k : Nat) (x : Gran) : (s.setGran k x).power = s.power := rfl
@[simp] theorem setGran_parts (s : State) (k : Nat) (x : Gran) : (s.setGran k x).parts = s.parts := rfl
@[simp] theorem setGran_sites (s : State) (k : Nat) (x : Gran) : (s.setGran k x).sites = s.sites := rfl
@[simp] theorem setGran_siteRecs (s : State) (k : Nat) (x : Gran) : (s.setGran k x).siteRecs = s.siteRecs := rfl
@[simp] theorem setGran_slPorts (s : State) (k : Nat) (x : Gran) : (s.setGran k x).slPorts = s.slPorts := rfl
@[simp] theorem setGran_slConf (s : State) (k : Nat) (x : Gran) : (s.setGran k x).slConf = s.slConf := rfl
@[simp] theorem setGran_winOut (s : State) (k : Nat) (x : Gran) : (s.setGran k x).winOut = s.winOut := rfl
@[simp] theorem setGran_winIn (s : State) (k : Nat) (x : Gran) : (s.setGran k x).winIn = s.winIn := rfl
@[simp] theorem setGran_port (s : State) (k : Nat) (x : Gran) : (s.setGran k x).port = s.port := rfl
@[simp] theorem setGran_cores (s : State) (k : Nat) (x : Gran) : (s.setGran k x).cores = s.cores := rfl
@[simp] theorem setGran_fuseSeg (s : State) (k : Nat) (x : Gran) : (s.setGran k x).fuseSeg = s.fuseSeg := rfl
@[simp] theorem setGran_rep (s : State) (k : Nat) (x : Gran) : (s.setGran k x).rep = s.rep := rfl
@[simp] theorem setGran_clusters (s : State) (k : Nat) (x : Gran) : (s.setGran k x).clusters = s.clusters := rfl
@[simp] theorem setGran_lines (s : State) (k : Nat) (x : Gran) : (s.setGran k x).lines = s.lines := rfl
@[simp] theorem setGran_net (s : State) (k : Nat) (x : Gran) : (s.setGran k x).net = s.net := rfl
@[simp] theorem setGran_ans (s : State) (k : Nat) (x : Gran) : (s.setGran k x).ans = s.ans := rfl
@[simp] theorem setGran_asked (s : State) (k : Nat) (x : Gran) : (s.setGran k x).asked = s.asked := rfl
@[simp] theorem setGran_reqTxn (s : State) (k : Nat) (x : Gran) : (s.setGran k x).reqTxn = s.reqTxn := rfl
@[simp] theorem setGran_posted (s : State) (k : Nat) (x : Gran) : (s.setGran k x).posted = s.posted := rfl
@[simp] theorem setGran_msc (s : State) (k : Nat) (x : Gran) : (s.setGran k x).msc = s.msc := rfl
@[simp] theorem setGran_sealed (s : State) (k : Nat) (x : Gran) : (s.setGran k x).sealed = s.sealed := rfl
@[simp] theorem setGran_resetDue (s : State) (k : Nat) (x : Gran) : (s.setGran k x).resetDue = s.resetDue := rfl
@[simp] theorem setGran_offMore (s : State) (k : Nat) (x : Gran) : (s.setGran k x).offMore = s.offMore := rfl
@[simp] theorem setGran_heldSnp (s : State) (k : Nat) (x : Gran) : (s.setGran k x).heldSnp = s.heldSnp := rfl
@[simp] theorem setGran_media (s : State) (k : Nat) (x : Gran) : (s.setGran k x).media = s.media := rfl
@[simp] theorem setGran_corr (s : State) (k : Nat) (x : Gran) : (s.setGran k x).corr = s.corr := rfl
@[simp] theorem setGran_heat (s : State) (k : Nat) (x : Gran) : (s.setGran k x).heat = s.heat := rfl
@[simp] theorem setGran_heatVal (s : State) (k : Nat) (x : Gran) : (s.setGran k x).heatVal = s.heatVal := rfl
@[simp] theorem setGran_ctls (s : State) (k : Nat) (x : Gran) : (s.setGran k x).ctls = s.ctls := rfl
@[simp] theorem setGran_miss (s : State) (k : Nat) (x : Gran) : (s.setGran k x).miss = s.miss := rfl
@[simp] theorem setGran_moves (s : State) (k : Nat) (x : Gran) : (s.setGran k x).moves = s.moves := rfl
@[simp] theorem setGran_autos (s : State) (k : Nat) (x : Gran) : (s.setGran k x).autos = s.autos := rfl
@[simp] theorem setGran_keys (s : State) (k : Nat) (x : Gran) : (s.setGran k x).keys = s.keys := rfl
@[simp] theorem setGran_secIntegrity (s : State) (k : Nat) (x : Gran) : (s.setGran k x).secIntegrity = s.secIntegrity := rfl
@[simp] theorem setGran_secAuth (s : State) (k : Nat) (x : Gran) : (s.setGran k x).secAuth = s.secAuth := rfl
@[simp] theorem setGran_secLast (s : State) (k : Nat) (x : Gran) : (s.setGran k x).secLast = s.secLast := rfl
@[simp] theorem setGran_traffic (s : State) (k : Nat) (x : Gran) : (s.setGran k x).traffic = s.traffic := rfl
@[simp] theorem setGran_snpTxn (s : State) (k : Nat) (x : Gran) : (s.setGran k x).snpTxn = s.snpTxn := rfl
@[simp] theorem setGran_useStamp (s : State) (k : Nat) (x : Gran) : (s.setGran k x).useStamp = s.useStamp := rfl
@[simp] theorem setGran_mem (s : State) (k : Nat) (x : Gran) : (s.setGran k x).mem = s.mem := rfl
@[simp] theorem setGran_pool (s : State) (k : Nat) (x : Gran) : (s.setGran k x).pool = s.pool := rfl
@[simp] theorem setGran_moved (s : State) (k : Nat) (x : Gran) : (s.setGran k x).moved = s.moved := rfl
@[simp] theorem setGran_granA (s : State) (k : Nat) (x : Gran) : (s.setGran k x).granA = s.granA := rfl
@[simp] theorem setGran_granB (s : State) (k : Nat) (x : Gran) : (s.setGran k x).granB = s.granB := rfl
@[simp] theorem setGran_granC (s : State) (k : Nat) (x : Gran) : (s.setGran k x).granC = s.granC := rfl
@[simp] theorem setGran_offline (s : State) (k : Nat) (x : Gran) : (s.setGran k x).offline = s.offline := rfl
@[simp] theorem setGran_offOverflow (s : State) (k : Nat) (x : Gran) : (s.setGran k x).offOverflow = s.offOverflow := rfl
@[simp] theorem setGran_opSeconds (s : State) (k : Nat) (x : Gran) : (s.setGran k x).opSeconds = s.opSeconds := rfl
@[simp] theorem setGran_ctxs (s : State) (k : Nat) (x : Gran) : (s.setGran k x).ctxs = s.ctxs := rfl
@[simp] theorem setGran_allocs (s : State) (k : Nat) (x : Gran) : (s.setGran k x).allocs = s.allocs := rfl
@[simp] theorem setGran_shoots (s : State) (k : Nat) (x : Gran) : (s.setGran k x).shoots = s.shoots := rfl
@[simp] theorem setGran_changes (s : State) (k : Nat) (x : Gran) : (s.setGran k x).changes = s.changes := rfl
@[simp] theorem setGran_halted (s : State) (k : Nat) (x : Gran) : (s.setGran k x).halted = s.halted := rfl
@[simp] theorem setGran_drops (s : State) (k : Nat) (x : Gran) : (s.setGran k x).drops = s.drops := rfl
@[simp] theorem setGran_queues (s : State) (k : Nat) (x : Gran) : (s.setGran k x).queues = s.queues := rfl
@[simp] theorem setGran_fences (s : State) (k : Nat) (x : Gran) : (s.setGran k x).fences = s.fences := rfl
@[simp] theorem setGran_fenceBlocks (s : State) (k : Nat) (x : Gran) : (s.setGran k x).fenceBlocks = s.fenceBlocks := rfl
@[simp] theorem setGran_launches (s : State) (k : Nat) (x : Gran) : (s.setGran k x).launches = s.launches := rfl
@[simp] theorem setGran_resv (s : State) (k : Nat) (x : Gran) : (s.setGran k x).resv = s.resv := rfl
@[simp] theorem setGran_served (s : State) (k : Nat) (x : Gran) : (s.setGran k x).served = s.served := rfl
@[simp] theorem setGran_insts (s : State) (k : Nat) (x : Gran) : (s.setGran k x).insts = s.insts := rfl
@[simp] theorem setGran_evt (s : State) (k : Nat) (x : Gran) : (s.setGran k x).evt = s.evt := rfl
@[simp] theorem setGran_frings (s : State) (k : Nat) (x : Gran) : (s.setGran k x).frings = s.frings := rfl
@[simp] theorem setGran_cmd (s : State) (k : Nat) (x : Gran) : (s.setGran k x).cmd = s.cmd := rfl
@[simp] theorem setGran_accepted (s : State) (k : Nat) (x : Gran) : (s.setGran k x).accepted = s.accepted := rfl
@[simp] theorem setGran_mbx (s : State) (k : Nat) (x : Gran) : (s.setGran k x).mbx = s.mbx := rfl
@[simp] theorem setGran_txns (s : State) (k : Nat) (x : Gran) : (s.setGran k x).txns = s.txns := rfl
@[simp] theorem setGran_nextTxn (s : State) (k : Nat) (x : Gran) : (s.setGran k x).nextTxn = s.nextTxn := rfl
@[simp] theorem setGran_cfgGen (s : State) (k : Nat) (x : Gran) : (s.setGran k x).cfgGen = s.cfgGen := rfl
@[simp] theorem setGran_gens (s : State) (k : Nat) (x : Gran) : (s.setGran k x).gens = s.gens := rfl
@[simp] theorem setGran_lastCommit (s : State) (k : Nat) (x : Gran) : (s.setGran k x).lastCommit = s.lastCommit := rfl
@[simp] theorem setGran_flashJournal (s : State) (k : Nat) (x : Gran) : (s.setGran k x).flashJournal = s.flashJournal := rfl
@[simp] theorem setGran_journal (s : State) (k : Nat) (x : Gran) : (s.setGran k x).journal = s.journal := rfl
@[simp] theorem setGran_txnConflicts (s : State) (k : Nat) (x : Gran) : (s.setGran k x).txnConflicts = s.txnConflicts := rfl
@[simp] theorem setGran_txnAborts (s : State) (k : Nat) (x : Gran) : (s.setGran k x).txnAborts = s.txnAborts := rfl
@[simp] theorem setGran_out (s : State) (k : Nat) (x : Gran) : (s.setGran k x).out = s.out := rfl
@[simp] theorem setGran_free (s : State) (k : Nat) (x : Gran) : (s.setGran k x).free = s.free := rfl
@[simp] theorem setGran_pending (s : State) (k : Nat) (x : Gran) : (s.setGran k x).pending = s.pending := rfl

@[simp] theorem setSite_regs (s : State) (k : Nat) (x : Site) : (s.setSite k x).regs = s.regs := rfl
@[simp] theorem setSite_fuse (s : State) (k : Nat) (x : Site) : (s.setSite k x).fuse = s.fuse := rfl
@[simp] theorem setSite_flash (s : State) (k : Nat) (x : Site) : (s.setSite k x).flash = s.flash := rfl
@[simp] theorem setSite_sec (s : State) (k : Nat) (x : Site) : (s.setSite k x).sec = s.sec := rfl
@[simp] theorem setSite_clocks (s : State) (k : Nat) (x : Site) : (s.setSite k x).clocks = s.clocks := rfl
@[simp] theorem setSite_rst (s : State) (k : Nat) (x : Site) : (s.setSite k x).rst = s.rst := rfl
@[simp] theorem setSite_co (s : State) (k : Nat) (x : Site) : (s.setSite k x).co = s.co := rfl
@[simp] theorem setSite_power (s : State) (k : Nat) (x : Site) : (s.setSite k x).power = s.power := rfl
@[simp] theorem setSite_parts (s : State) (k : Nat) (x : Site) : (s.setSite k x).parts = s.parts := rfl
@[simp] theorem setSite_siteRecs (s : State) (k : Nat) (x : Site) : (s.setSite k x).siteRecs = s.siteRecs := rfl
@[simp] theorem setSite_slPorts (s : State) (k : Nat) (x : Site) : (s.setSite k x).slPorts = s.slPorts := rfl
@[simp] theorem setSite_slConf (s : State) (k : Nat) (x : Site) : (s.setSite k x).slConf = s.slConf := rfl
@[simp] theorem setSite_winOut (s : State) (k : Nat) (x : Site) : (s.setSite k x).winOut = s.winOut := rfl
@[simp] theorem setSite_winIn (s : State) (k : Nat) (x : Site) : (s.setSite k x).winIn = s.winIn := rfl
@[simp] theorem setSite_port (s : State) (k : Nat) (x : Site) : (s.setSite k x).port = s.port := rfl
@[simp] theorem setSite_cores (s : State) (k : Nat) (x : Site) : (s.setSite k x).cores = s.cores := rfl
@[simp] theorem setSite_fuseSeg (s : State) (k : Nat) (x : Site) : (s.setSite k x).fuseSeg = s.fuseSeg := rfl
@[simp] theorem setSite_rep (s : State) (k : Nat) (x : Site) : (s.setSite k x).rep = s.rep := rfl
@[simp] theorem setSite_clusters (s : State) (k : Nat) (x : Site) : (s.setSite k x).clusters = s.clusters := rfl
@[simp] theorem setSite_lines (s : State) (k : Nat) (x : Site) : (s.setSite k x).lines = s.lines := rfl
@[simp] theorem setSite_net (s : State) (k : Nat) (x : Site) : (s.setSite k x).net = s.net := rfl
@[simp] theorem setSite_ans (s : State) (k : Nat) (x : Site) : (s.setSite k x).ans = s.ans := rfl
@[simp] theorem setSite_asked (s : State) (k : Nat) (x : Site) : (s.setSite k x).asked = s.asked := rfl
@[simp] theorem setSite_reqTxn (s : State) (k : Nat) (x : Site) : (s.setSite k x).reqTxn = s.reqTxn := rfl
@[simp] theorem setSite_posted (s : State) (k : Nat) (x : Site) : (s.setSite k x).posted = s.posted := rfl
@[simp] theorem setSite_msc (s : State) (k : Nat) (x : Site) : (s.setSite k x).msc = s.msc := rfl
@[simp] theorem setSite_sealed (s : State) (k : Nat) (x : Site) : (s.setSite k x).sealed = s.sealed := rfl
@[simp] theorem setSite_resetDue (s : State) (k : Nat) (x : Site) : (s.setSite k x).resetDue = s.resetDue := rfl
@[simp] theorem setSite_offMore (s : State) (k : Nat) (x : Site) : (s.setSite k x).offMore = s.offMore := rfl
@[simp] theorem setSite_heldSnp (s : State) (k : Nat) (x : Site) : (s.setSite k x).heldSnp = s.heldSnp := rfl
@[simp] theorem setSite_media (s : State) (k : Nat) (x : Site) : (s.setSite k x).media = s.media := rfl
@[simp] theorem setSite_corr (s : State) (k : Nat) (x : Site) : (s.setSite k x).corr = s.corr := rfl
@[simp] theorem setSite_heat (s : State) (k : Nat) (x : Site) : (s.setSite k x).heat = s.heat := rfl
@[simp] theorem setSite_heatVal (s : State) (k : Nat) (x : Site) : (s.setSite k x).heatVal = s.heatVal := rfl
@[simp] theorem setSite_ctls (s : State) (k : Nat) (x : Site) : (s.setSite k x).ctls = s.ctls := rfl
@[simp] theorem setSite_miss (s : State) (k : Nat) (x : Site) : (s.setSite k x).miss = s.miss := rfl
@[simp] theorem setSite_moves (s : State) (k : Nat) (x : Site) : (s.setSite k x).moves = s.moves := rfl
@[simp] theorem setSite_autos (s : State) (k : Nat) (x : Site) : (s.setSite k x).autos = s.autos := rfl
@[simp] theorem setSite_keys (s : State) (k : Nat) (x : Site) : (s.setSite k x).keys = s.keys := rfl
@[simp] theorem setSite_secIntegrity (s : State) (k : Nat) (x : Site) : (s.setSite k x).secIntegrity = s.secIntegrity := rfl
@[simp] theorem setSite_secAuth (s : State) (k : Nat) (x : Site) : (s.setSite k x).secAuth = s.secAuth := rfl
@[simp] theorem setSite_secLast (s : State) (k : Nat) (x : Site) : (s.setSite k x).secLast = s.secLast := rfl
@[simp] theorem setSite_traffic (s : State) (k : Nat) (x : Site) : (s.setSite k x).traffic = s.traffic := rfl
@[simp] theorem setSite_snpTxn (s : State) (k : Nat) (x : Site) : (s.setSite k x).snpTxn = s.snpTxn := rfl
@[simp] theorem setSite_useStamp (s : State) (k : Nat) (x : Site) : (s.setSite k x).useStamp = s.useStamp := rfl
@[simp] theorem setSite_mem (s : State) (k : Nat) (x : Site) : (s.setSite k x).mem = s.mem := rfl
@[simp] theorem setSite_pot (s : State) (k : Nat) (x : Site) : (s.setSite k x).pot = s.pot := rfl
@[simp] theorem setSite_pool (s : State) (k : Nat) (x : Site) : (s.setSite k x).pool = s.pool := rfl
@[simp] theorem setSite_moved (s : State) (k : Nat) (x : Site) : (s.setSite k x).moved = s.moved := rfl
@[simp] theorem setSite_granA (s : State) (k : Nat) (x : Site) : (s.setSite k x).granA = s.granA := rfl
@[simp] theorem setSite_granB (s : State) (k : Nat) (x : Site) : (s.setSite k x).granB = s.granB := rfl
@[simp] theorem setSite_granC (s : State) (k : Nat) (x : Site) : (s.setSite k x).granC = s.granC := rfl
@[simp] theorem setSite_offline (s : State) (k : Nat) (x : Site) : (s.setSite k x).offline = s.offline := rfl
@[simp] theorem setSite_offOverflow (s : State) (k : Nat) (x : Site) : (s.setSite k x).offOverflow = s.offOverflow := rfl
@[simp] theorem setSite_opSeconds (s : State) (k : Nat) (x : Site) : (s.setSite k x).opSeconds = s.opSeconds := rfl
@[simp] theorem setSite_ctxs (s : State) (k : Nat) (x : Site) : (s.setSite k x).ctxs = s.ctxs := rfl
@[simp] theorem setSite_allocs (s : State) (k : Nat) (x : Site) : (s.setSite k x).allocs = s.allocs := rfl
@[simp] theorem setSite_shoots (s : State) (k : Nat) (x : Site) : (s.setSite k x).shoots = s.shoots := rfl
@[simp] theorem setSite_changes (s : State) (k : Nat) (x : Site) : (s.setSite k x).changes = s.changes := rfl
@[simp] theorem setSite_halted (s : State) (k : Nat) (x : Site) : (s.setSite k x).halted = s.halted := rfl
@[simp] theorem setSite_drops (s : State) (k : Nat) (x : Site) : (s.setSite k x).drops = s.drops := rfl
@[simp] theorem setSite_queues (s : State) (k : Nat) (x : Site) : (s.setSite k x).queues = s.queues := rfl
@[simp] theorem setSite_fences (s : State) (k : Nat) (x : Site) : (s.setSite k x).fences = s.fences := rfl
@[simp] theorem setSite_fenceBlocks (s : State) (k : Nat) (x : Site) : (s.setSite k x).fenceBlocks = s.fenceBlocks := rfl
@[simp] theorem setSite_launches (s : State) (k : Nat) (x : Site) : (s.setSite k x).launches = s.launches := rfl
@[simp] theorem setSite_resv (s : State) (k : Nat) (x : Site) : (s.setSite k x).resv = s.resv := rfl
@[simp] theorem setSite_served (s : State) (k : Nat) (x : Site) : (s.setSite k x).served = s.served := rfl
@[simp] theorem setSite_insts (s : State) (k : Nat) (x : Site) : (s.setSite k x).insts = s.insts := rfl
@[simp] theorem setSite_evt (s : State) (k : Nat) (x : Site) : (s.setSite k x).evt = s.evt := rfl
@[simp] theorem setSite_frings (s : State) (k : Nat) (x : Site) : (s.setSite k x).frings = s.frings := rfl
@[simp] theorem setSite_cmd (s : State) (k : Nat) (x : Site) : (s.setSite k x).cmd = s.cmd := rfl
@[simp] theorem setSite_accepted (s : State) (k : Nat) (x : Site) : (s.setSite k x).accepted = s.accepted := rfl
@[simp] theorem setSite_mbx (s : State) (k : Nat) (x : Site) : (s.setSite k x).mbx = s.mbx := rfl
@[simp] theorem setSite_txns (s : State) (k : Nat) (x : Site) : (s.setSite k x).txns = s.txns := rfl
@[simp] theorem setSite_nextTxn (s : State) (k : Nat) (x : Site) : (s.setSite k x).nextTxn = s.nextTxn := rfl
@[simp] theorem setSite_cfgGen (s : State) (k : Nat) (x : Site) : (s.setSite k x).cfgGen = s.cfgGen := rfl
@[simp] theorem setSite_gens (s : State) (k : Nat) (x : Site) : (s.setSite k x).gens = s.gens := rfl
@[simp] theorem setSite_lastCommit (s : State) (k : Nat) (x : Site) : (s.setSite k x).lastCommit = s.lastCommit := rfl
@[simp] theorem setSite_flashJournal (s : State) (k : Nat) (x : Site) : (s.setSite k x).flashJournal = s.flashJournal := rfl
@[simp] theorem setSite_journal (s : State) (k : Nat) (x : Site) : (s.setSite k x).journal = s.journal := rfl
@[simp] theorem setSite_txnConflicts (s : State) (k : Nat) (x : Site) : (s.setSite k x).txnConflicts = s.txnConflicts := rfl
@[simp] theorem setSite_txnAborts (s : State) (k : Nat) (x : Site) : (s.setSite k x).txnAborts = s.txnAborts := rfl
@[simp] theorem setSite_out (s : State) (k : Nat) (x : Site) : (s.setSite k x).out = s.out := rfl
@[simp] theorem setSite_free (s : State) (k : Nat) (x : Site) : (s.setSite k x).free = s.free := rfl
@[simp] theorem setSite_pending (s : State) (k : Nat) (x : Site) : (s.setSite k x).pending = s.pending := rfl

@[simp] theorem setPart_regs (s : State) (k : Nat) (x : Part) : (s.setPart k x).regs = s.regs := rfl
@[simp] theorem setPart_fuse (s : State) (k : Nat) (x : Part) : (s.setPart k x).fuse = s.fuse := rfl
@[simp] theorem setPart_flash (s : State) (k : Nat) (x : Part) : (s.setPart k x).flash = s.flash := rfl
@[simp] theorem setPart_sec (s : State) (k : Nat) (x : Part) : (s.setPart k x).sec = s.sec := rfl
@[simp] theorem setPart_clocks (s : State) (k : Nat) (x : Part) : (s.setPart k x).clocks = s.clocks := rfl
@[simp] theorem setPart_rst (s : State) (k : Nat) (x : Part) : (s.setPart k x).rst = s.rst := rfl
@[simp] theorem setPart_co (s : State) (k : Nat) (x : Part) : (s.setPart k x).co = s.co := rfl
@[simp] theorem setPart_power (s : State) (k : Nat) (x : Part) : (s.setPart k x).power = s.power := rfl
@[simp] theorem setPart_sites (s : State) (k : Nat) (x : Part) : (s.setPart k x).sites = s.sites := rfl
@[simp] theorem setPart_siteRecs (s : State) (k : Nat) (x : Part) : (s.setPart k x).siteRecs = s.siteRecs := rfl
@[simp] theorem setPart_slPorts (s : State) (k : Nat) (x : Part) : (s.setPart k x).slPorts = s.slPorts := rfl
@[simp] theorem setPart_slConf (s : State) (k : Nat) (x : Part) : (s.setPart k x).slConf = s.slConf := rfl
@[simp] theorem setPart_winOut (s : State) (k : Nat) (x : Part) : (s.setPart k x).winOut = s.winOut := rfl
@[simp] theorem setPart_winIn (s : State) (k : Nat) (x : Part) : (s.setPart k x).winIn = s.winIn := rfl
@[simp] theorem setPart_port (s : State) (k : Nat) (x : Part) : (s.setPart k x).port = s.port := rfl
@[simp] theorem setPart_cores (s : State) (k : Nat) (x : Part) : (s.setPart k x).cores = s.cores := rfl
@[simp] theorem setPart_fuseSeg (s : State) (k : Nat) (x : Part) : (s.setPart k x).fuseSeg = s.fuseSeg := rfl
@[simp] theorem setPart_rep (s : State) (k : Nat) (x : Part) : (s.setPart k x).rep = s.rep := rfl
@[simp] theorem setPart_clusters (s : State) (k : Nat) (x : Part) : (s.setPart k x).clusters = s.clusters := rfl
@[simp] theorem setPart_lines (s : State) (k : Nat) (x : Part) : (s.setPart k x).lines = s.lines := rfl
@[simp] theorem setPart_net (s : State) (k : Nat) (x : Part) : (s.setPart k x).net = s.net := rfl
@[simp] theorem setPart_ans (s : State) (k : Nat) (x : Part) : (s.setPart k x).ans = s.ans := rfl
@[simp] theorem setPart_asked (s : State) (k : Nat) (x : Part) : (s.setPart k x).asked = s.asked := rfl
@[simp] theorem setPart_reqTxn (s : State) (k : Nat) (x : Part) : (s.setPart k x).reqTxn = s.reqTxn := rfl
@[simp] theorem setPart_posted (s : State) (k : Nat) (x : Part) : (s.setPart k x).posted = s.posted := rfl
@[simp] theorem setPart_msc (s : State) (k : Nat) (x : Part) : (s.setPart k x).msc = s.msc := rfl
@[simp] theorem setPart_sealed (s : State) (k : Nat) (x : Part) : (s.setPart k x).sealed = s.sealed := rfl
@[simp] theorem setPart_resetDue (s : State) (k : Nat) (x : Part) : (s.setPart k x).resetDue = s.resetDue := rfl
@[simp] theorem setPart_offMore (s : State) (k : Nat) (x : Part) : (s.setPart k x).offMore = s.offMore := rfl
@[simp] theorem setPart_heldSnp (s : State) (k : Nat) (x : Part) : (s.setPart k x).heldSnp = s.heldSnp := rfl
@[simp] theorem setPart_media (s : State) (k : Nat) (x : Part) : (s.setPart k x).media = s.media := rfl
@[simp] theorem setPart_corr (s : State) (k : Nat) (x : Part) : (s.setPart k x).corr = s.corr := rfl
@[simp] theorem setPart_heat (s : State) (k : Nat) (x : Part) : (s.setPart k x).heat = s.heat := rfl
@[simp] theorem setPart_heatVal (s : State) (k : Nat) (x : Part) : (s.setPart k x).heatVal = s.heatVal := rfl
@[simp] theorem setPart_ctls (s : State) (k : Nat) (x : Part) : (s.setPart k x).ctls = s.ctls := rfl
@[simp] theorem setPart_miss (s : State) (k : Nat) (x : Part) : (s.setPart k x).miss = s.miss := rfl
@[simp] theorem setPart_moves (s : State) (k : Nat) (x : Part) : (s.setPart k x).moves = s.moves := rfl
@[simp] theorem setPart_autos (s : State) (k : Nat) (x : Part) : (s.setPart k x).autos = s.autos := rfl
@[simp] theorem setPart_keys (s : State) (k : Nat) (x : Part) : (s.setPart k x).keys = s.keys := rfl
@[simp] theorem setPart_secIntegrity (s : State) (k : Nat) (x : Part) : (s.setPart k x).secIntegrity = s.secIntegrity := rfl
@[simp] theorem setPart_secAuth (s : State) (k : Nat) (x : Part) : (s.setPart k x).secAuth = s.secAuth := rfl
@[simp] theorem setPart_secLast (s : State) (k : Nat) (x : Part) : (s.setPart k x).secLast = s.secLast := rfl
@[simp] theorem setPart_traffic (s : State) (k : Nat) (x : Part) : (s.setPart k x).traffic = s.traffic := rfl
@[simp] theorem setPart_snpTxn (s : State) (k : Nat) (x : Part) : (s.setPart k x).snpTxn = s.snpTxn := rfl
@[simp] theorem setPart_useStamp (s : State) (k : Nat) (x : Part) : (s.setPart k x).useStamp = s.useStamp := rfl
@[simp] theorem setPart_mem (s : State) (k : Nat) (x : Part) : (s.setPart k x).mem = s.mem := rfl
@[simp] theorem setPart_pot (s : State) (k : Nat) (x : Part) : (s.setPart k x).pot = s.pot := rfl
@[simp] theorem setPart_pool (s : State) (k : Nat) (x : Part) : (s.setPart k x).pool = s.pool := rfl
@[simp] theorem setPart_moved (s : State) (k : Nat) (x : Part) : (s.setPart k x).moved = s.moved := rfl
@[simp] theorem setPart_granA (s : State) (k : Nat) (x : Part) : (s.setPart k x).granA = s.granA := rfl
@[simp] theorem setPart_granB (s : State) (k : Nat) (x : Part) : (s.setPart k x).granB = s.granB := rfl
@[simp] theorem setPart_granC (s : State) (k : Nat) (x : Part) : (s.setPart k x).granC = s.granC := rfl
@[simp] theorem setPart_offline (s : State) (k : Nat) (x : Part) : (s.setPart k x).offline = s.offline := rfl
@[simp] theorem setPart_offOverflow (s : State) (k : Nat) (x : Part) : (s.setPart k x).offOverflow = s.offOverflow := rfl
@[simp] theorem setPart_opSeconds (s : State) (k : Nat) (x : Part) : (s.setPart k x).opSeconds = s.opSeconds := rfl
@[simp] theorem setPart_ctxs (s : State) (k : Nat) (x : Part) : (s.setPart k x).ctxs = s.ctxs := rfl
@[simp] theorem setPart_allocs (s : State) (k : Nat) (x : Part) : (s.setPart k x).allocs = s.allocs := rfl
@[simp] theorem setPart_shoots (s : State) (k : Nat) (x : Part) : (s.setPart k x).shoots = s.shoots := rfl
@[simp] theorem setPart_changes (s : State) (k : Nat) (x : Part) : (s.setPart k x).changes = s.changes := rfl
@[simp] theorem setPart_halted (s : State) (k : Nat) (x : Part) : (s.setPart k x).halted = s.halted := rfl
@[simp] theorem setPart_drops (s : State) (k : Nat) (x : Part) : (s.setPart k x).drops = s.drops := rfl
@[simp] theorem setPart_queues (s : State) (k : Nat) (x : Part) : (s.setPart k x).queues = s.queues := rfl
@[simp] theorem setPart_fences (s : State) (k : Nat) (x : Part) : (s.setPart k x).fences = s.fences := rfl
@[simp] theorem setPart_fenceBlocks (s : State) (k : Nat) (x : Part) : (s.setPart k x).fenceBlocks = s.fenceBlocks := rfl
@[simp] theorem setPart_launches (s : State) (k : Nat) (x : Part) : (s.setPart k x).launches = s.launches := rfl
@[simp] theorem setPart_resv (s : State) (k : Nat) (x : Part) : (s.setPart k x).resv = s.resv := rfl
@[simp] theorem setPart_served (s : State) (k : Nat) (x : Part) : (s.setPart k x).served = s.served := rfl
@[simp] theorem setPart_insts (s : State) (k : Nat) (x : Part) : (s.setPart k x).insts = s.insts := rfl
@[simp] theorem setPart_evt (s : State) (k : Nat) (x : Part) : (s.setPart k x).evt = s.evt := rfl
@[simp] theorem setPart_frings (s : State) (k : Nat) (x : Part) : (s.setPart k x).frings = s.frings := rfl
@[simp] theorem setPart_cmd (s : State) (k : Nat) (x : Part) : (s.setPart k x).cmd = s.cmd := rfl
@[simp] theorem setPart_accepted (s : State) (k : Nat) (x : Part) : (s.setPart k x).accepted = s.accepted := rfl
@[simp] theorem setPart_mbx (s : State) (k : Nat) (x : Part) : (s.setPart k x).mbx = s.mbx := rfl
@[simp] theorem setPart_txns (s : State) (k : Nat) (x : Part) : (s.setPart k x).txns = s.txns := rfl
@[simp] theorem setPart_nextTxn (s : State) (k : Nat) (x : Part) : (s.setPart k x).nextTxn = s.nextTxn := rfl
@[simp] theorem setPart_cfgGen (s : State) (k : Nat) (x : Part) : (s.setPart k x).cfgGen = s.cfgGen := rfl
@[simp] theorem setPart_gens (s : State) (k : Nat) (x : Part) : (s.setPart k x).gens = s.gens := rfl
@[simp] theorem setPart_lastCommit (s : State) (k : Nat) (x : Part) : (s.setPart k x).lastCommit = s.lastCommit := rfl
@[simp] theorem setPart_flashJournal (s : State) (k : Nat) (x : Part) : (s.setPart k x).flashJournal = s.flashJournal := rfl
@[simp] theorem setPart_journal (s : State) (k : Nat) (x : Part) : (s.setPart k x).journal = s.journal := rfl
@[simp] theorem setPart_txnConflicts (s : State) (k : Nat) (x : Part) : (s.setPart k x).txnConflicts = s.txnConflicts := rfl
@[simp] theorem setPart_txnAborts (s : State) (k : Nat) (x : Part) : (s.setPart k x).txnAborts = s.txnAborts := rfl
@[simp] theorem setPart_out (s : State) (k : Nat) (x : Part) : (s.setPart k x).out = s.out := rfl
@[simp] theorem setPart_free (s : State) (k : Nat) (x : Part) : (s.setPart k x).free = s.free := rfl
@[simp] theorem setPart_pending (s : State) (k : Nat) (x : Part) : (s.setPart k x).pending = s.pending := rfl

@[simp] theorem setCtx_regs (s : State) (k : Nat) (x : Ctx) : (s.setCtx k x).regs = s.regs := rfl
@[simp] theorem setCtx_fuse (s : State) (k : Nat) (x : Ctx) : (s.setCtx k x).fuse = s.fuse := rfl
@[simp] theorem setCtx_flash (s : State) (k : Nat) (x : Ctx) : (s.setCtx k x).flash = s.flash := rfl
@[simp] theorem setCtx_sec (s : State) (k : Nat) (x : Ctx) : (s.setCtx k x).sec = s.sec := rfl
@[simp] theorem setCtx_clocks (s : State) (k : Nat) (x : Ctx) : (s.setCtx k x).clocks = s.clocks := rfl
@[simp] theorem setCtx_rst (s : State) (k : Nat) (x : Ctx) : (s.setCtx k x).rst = s.rst := rfl
@[simp] theorem setCtx_co (s : State) (k : Nat) (x : Ctx) : (s.setCtx k x).co = s.co := rfl
@[simp] theorem setCtx_power (s : State) (k : Nat) (x : Ctx) : (s.setCtx k x).power = s.power := rfl
@[simp] theorem setCtx_parts (s : State) (k : Nat) (x : Ctx) : (s.setCtx k x).parts = s.parts := rfl
@[simp] theorem setCtx_sites (s : State) (k : Nat) (x : Ctx) : (s.setCtx k x).sites = s.sites := rfl
@[simp] theorem setCtx_siteRecs (s : State) (k : Nat) (x : Ctx) : (s.setCtx k x).siteRecs = s.siteRecs := rfl
@[simp] theorem setCtx_slPorts (s : State) (k : Nat) (x : Ctx) : (s.setCtx k x).slPorts = s.slPorts := rfl
@[simp] theorem setCtx_slConf (s : State) (k : Nat) (x : Ctx) : (s.setCtx k x).slConf = s.slConf := rfl
@[simp] theorem setCtx_winOut (s : State) (k : Nat) (x : Ctx) : (s.setCtx k x).winOut = s.winOut := rfl
@[simp] theorem setCtx_winIn (s : State) (k : Nat) (x : Ctx) : (s.setCtx k x).winIn = s.winIn := rfl
@[simp] theorem setCtx_port (s : State) (k : Nat) (x : Ctx) : (s.setCtx k x).port = s.port := rfl
@[simp] theorem setCtx_cores (s : State) (k : Nat) (x : Ctx) : (s.setCtx k x).cores = s.cores := rfl
@[simp] theorem setCtx_fuseSeg (s : State) (k : Nat) (x : Ctx) : (s.setCtx k x).fuseSeg = s.fuseSeg := rfl
@[simp] theorem setCtx_rep (s : State) (k : Nat) (x : Ctx) : (s.setCtx k x).rep = s.rep := rfl
@[simp] theorem setCtx_clusters (s : State) (k : Nat) (x : Ctx) : (s.setCtx k x).clusters = s.clusters := rfl
@[simp] theorem setCtx_lines (s : State) (k : Nat) (x : Ctx) : (s.setCtx k x).lines = s.lines := rfl
@[simp] theorem setCtx_net (s : State) (k : Nat) (x : Ctx) : (s.setCtx k x).net = s.net := rfl
@[simp] theorem setCtx_ans (s : State) (k : Nat) (x : Ctx) : (s.setCtx k x).ans = s.ans := rfl
@[simp] theorem setCtx_asked (s : State) (k : Nat) (x : Ctx) : (s.setCtx k x).asked = s.asked := rfl
@[simp] theorem setCtx_reqTxn (s : State) (k : Nat) (x : Ctx) : (s.setCtx k x).reqTxn = s.reqTxn := rfl
@[simp] theorem setCtx_posted (s : State) (k : Nat) (x : Ctx) : (s.setCtx k x).posted = s.posted := rfl
@[simp] theorem setCtx_msc (s : State) (k : Nat) (x : Ctx) : (s.setCtx k x).msc = s.msc := rfl
@[simp] theorem setCtx_sealed (s : State) (k : Nat) (x : Ctx) : (s.setCtx k x).sealed = s.sealed := rfl
@[simp] theorem setCtx_resetDue (s : State) (k : Nat) (x : Ctx) : (s.setCtx k x).resetDue = s.resetDue := rfl
@[simp] theorem setCtx_offMore (s : State) (k : Nat) (x : Ctx) : (s.setCtx k x).offMore = s.offMore := rfl
@[simp] theorem setCtx_heldSnp (s : State) (k : Nat) (x : Ctx) : (s.setCtx k x).heldSnp = s.heldSnp := rfl
@[simp] theorem setCtx_media (s : State) (k : Nat) (x : Ctx) : (s.setCtx k x).media = s.media := rfl
@[simp] theorem setCtx_corr (s : State) (k : Nat) (x : Ctx) : (s.setCtx k x).corr = s.corr := rfl
@[simp] theorem setCtx_heat (s : State) (k : Nat) (x : Ctx) : (s.setCtx k x).heat = s.heat := rfl
@[simp] theorem setCtx_heatVal (s : State) (k : Nat) (x : Ctx) : (s.setCtx k x).heatVal = s.heatVal := rfl
@[simp] theorem setCtx_ctls (s : State) (k : Nat) (x : Ctx) : (s.setCtx k x).ctls = s.ctls := rfl
@[simp] theorem setCtx_miss (s : State) (k : Nat) (x : Ctx) : (s.setCtx k x).miss = s.miss := rfl
@[simp] theorem setCtx_moves (s : State) (k : Nat) (x : Ctx) : (s.setCtx k x).moves = s.moves := rfl
@[simp] theorem setCtx_autos (s : State) (k : Nat) (x : Ctx) : (s.setCtx k x).autos = s.autos := rfl
@[simp] theorem setCtx_keys (s : State) (k : Nat) (x : Ctx) : (s.setCtx k x).keys = s.keys := rfl
@[simp] theorem setCtx_secIntegrity (s : State) (k : Nat) (x : Ctx) : (s.setCtx k x).secIntegrity = s.secIntegrity := rfl
@[simp] theorem setCtx_secAuth (s : State) (k : Nat) (x : Ctx) : (s.setCtx k x).secAuth = s.secAuth := rfl
@[simp] theorem setCtx_secLast (s : State) (k : Nat) (x : Ctx) : (s.setCtx k x).secLast = s.secLast := rfl
@[simp] theorem setCtx_traffic (s : State) (k : Nat) (x : Ctx) : (s.setCtx k x).traffic = s.traffic := rfl
@[simp] theorem setCtx_snpTxn (s : State) (k : Nat) (x : Ctx) : (s.setCtx k x).snpTxn = s.snpTxn := rfl
@[simp] theorem setCtx_useStamp (s : State) (k : Nat) (x : Ctx) : (s.setCtx k x).useStamp = s.useStamp := rfl
@[simp] theorem setCtx_mem (s : State) (k : Nat) (x : Ctx) : (s.setCtx k x).mem = s.mem := rfl
@[simp] theorem setCtx_pot (s : State) (k : Nat) (x : Ctx) : (s.setCtx k x).pot = s.pot := rfl
@[simp] theorem setCtx_pool (s : State) (k : Nat) (x : Ctx) : (s.setCtx k x).pool = s.pool := rfl
@[simp] theorem setCtx_moved (s : State) (k : Nat) (x : Ctx) : (s.setCtx k x).moved = s.moved := rfl
@[simp] theorem setCtx_granA (s : State) (k : Nat) (x : Ctx) : (s.setCtx k x).granA = s.granA := rfl
@[simp] theorem setCtx_granB (s : State) (k : Nat) (x : Ctx) : (s.setCtx k x).granB = s.granB := rfl
@[simp] theorem setCtx_granC (s : State) (k : Nat) (x : Ctx) : (s.setCtx k x).granC = s.granC := rfl
@[simp] theorem setCtx_offline (s : State) (k : Nat) (x : Ctx) : (s.setCtx k x).offline = s.offline := rfl
@[simp] theorem setCtx_offOverflow (s : State) (k : Nat) (x : Ctx) : (s.setCtx k x).offOverflow = s.offOverflow := rfl
@[simp] theorem setCtx_opSeconds (s : State) (k : Nat) (x : Ctx) : (s.setCtx k x).opSeconds = s.opSeconds := rfl
@[simp] theorem setCtx_allocs (s : State) (k : Nat) (x : Ctx) : (s.setCtx k x).allocs = s.allocs := rfl
@[simp] theorem setCtx_shoots (s : State) (k : Nat) (x : Ctx) : (s.setCtx k x).shoots = s.shoots := rfl
@[simp] theorem setCtx_changes (s : State) (k : Nat) (x : Ctx) : (s.setCtx k x).changes = s.changes := rfl
@[simp] theorem setCtx_halted (s : State) (k : Nat) (x : Ctx) : (s.setCtx k x).halted = s.halted := rfl
@[simp] theorem setCtx_drops (s : State) (k : Nat) (x : Ctx) : (s.setCtx k x).drops = s.drops := rfl
@[simp] theorem setCtx_queues (s : State) (k : Nat) (x : Ctx) : (s.setCtx k x).queues = s.queues := rfl
@[simp] theorem setCtx_fences (s : State) (k : Nat) (x : Ctx) : (s.setCtx k x).fences = s.fences := rfl
@[simp] theorem setCtx_fenceBlocks (s : State) (k : Nat) (x : Ctx) : (s.setCtx k x).fenceBlocks = s.fenceBlocks := rfl
@[simp] theorem setCtx_launches (s : State) (k : Nat) (x : Ctx) : (s.setCtx k x).launches = s.launches := rfl
@[simp] theorem setCtx_resv (s : State) (k : Nat) (x : Ctx) : (s.setCtx k x).resv = s.resv := rfl
@[simp] theorem setCtx_served (s : State) (k : Nat) (x : Ctx) : (s.setCtx k x).served = s.served := rfl
@[simp] theorem setCtx_insts (s : State) (k : Nat) (x : Ctx) : (s.setCtx k x).insts = s.insts := rfl
@[simp] theorem setCtx_evt (s : State) (k : Nat) (x : Ctx) : (s.setCtx k x).evt = s.evt := rfl
@[simp] theorem setCtx_frings (s : State) (k : Nat) (x : Ctx) : (s.setCtx k x).frings = s.frings := rfl
@[simp] theorem setCtx_cmd (s : State) (k : Nat) (x : Ctx) : (s.setCtx k x).cmd = s.cmd := rfl
@[simp] theorem setCtx_accepted (s : State) (k : Nat) (x : Ctx) : (s.setCtx k x).accepted = s.accepted := rfl
@[simp] theorem setCtx_mbx (s : State) (k : Nat) (x : Ctx) : (s.setCtx k x).mbx = s.mbx := rfl
@[simp] theorem setCtx_txns (s : State) (k : Nat) (x : Ctx) : (s.setCtx k x).txns = s.txns := rfl
@[simp] theorem setCtx_nextTxn (s : State) (k : Nat) (x : Ctx) : (s.setCtx k x).nextTxn = s.nextTxn := rfl
@[simp] theorem setCtx_cfgGen (s : State) (k : Nat) (x : Ctx) : (s.setCtx k x).cfgGen = s.cfgGen := rfl
@[simp] theorem setCtx_gens (s : State) (k : Nat) (x : Ctx) : (s.setCtx k x).gens = s.gens := rfl
@[simp] theorem setCtx_lastCommit (s : State) (k : Nat) (x : Ctx) : (s.setCtx k x).lastCommit = s.lastCommit := rfl
@[simp] theorem setCtx_flashJournal (s : State) (k : Nat) (x : Ctx) : (s.setCtx k x).flashJournal = s.flashJournal := rfl
@[simp] theorem setCtx_journal (s : State) (k : Nat) (x : Ctx) : (s.setCtx k x).journal = s.journal := rfl
@[simp] theorem setCtx_txnConflicts (s : State) (k : Nat) (x : Ctx) : (s.setCtx k x).txnConflicts = s.txnConflicts := rfl
@[simp] theorem setCtx_txnAborts (s : State) (k : Nat) (x : Ctx) : (s.setCtx k x).txnAborts = s.txnAborts := rfl
@[simp] theorem setCtx_out (s : State) (k : Nat) (x : Ctx) : (s.setCtx k x).out = s.out := rfl
@[simp] theorem setCtx_free (s : State) (k : Nat) (x : Ctx) : (s.setCtx k x).free = s.free := rfl
@[simp] theorem setCtx_pending (s : State) (k : Nat) (x : Ctx) : (s.setCtx k x).pending = s.pending := rfl

@[simp] theorem setQueue_regs (s : State) (k : Nat) (x : Queue) : (s.setQueue k x).regs = s.regs := rfl
@[simp] theorem setQueue_fuse (s : State) (k : Nat) (x : Queue) : (s.setQueue k x).fuse = s.fuse := rfl
@[simp] theorem setQueue_flash (s : State) (k : Nat) (x : Queue) : (s.setQueue k x).flash = s.flash := rfl
@[simp] theorem setQueue_sec (s : State) (k : Nat) (x : Queue) : (s.setQueue k x).sec = s.sec := rfl
@[simp] theorem setQueue_clocks (s : State) (k : Nat) (x : Queue) : (s.setQueue k x).clocks = s.clocks := rfl
@[simp] theorem setQueue_rst (s : State) (k : Nat) (x : Queue) : (s.setQueue k x).rst = s.rst := rfl
@[simp] theorem setQueue_co (s : State) (k : Nat) (x : Queue) : (s.setQueue k x).co = s.co := rfl
@[simp] theorem setQueue_power (s : State) (k : Nat) (x : Queue) : (s.setQueue k x).power = s.power := rfl
@[simp] theorem setQueue_parts (s : State) (k : Nat) (x : Queue) : (s.setQueue k x).parts = s.parts := rfl
@[simp] theorem setQueue_sites (s : State) (k : Nat) (x : Queue) : (s.setQueue k x).sites = s.sites := rfl
@[simp] theorem setQueue_siteRecs (s : State) (k : Nat) (x : Queue) : (s.setQueue k x).siteRecs = s.siteRecs := rfl
@[simp] theorem setQueue_slPorts (s : State) (k : Nat) (x : Queue) : (s.setQueue k x).slPorts = s.slPorts := rfl
@[simp] theorem setQueue_slConf (s : State) (k : Nat) (x : Queue) : (s.setQueue k x).slConf = s.slConf := rfl
@[simp] theorem setQueue_winOut (s : State) (k : Nat) (x : Queue) : (s.setQueue k x).winOut = s.winOut := rfl
@[simp] theorem setQueue_winIn (s : State) (k : Nat) (x : Queue) : (s.setQueue k x).winIn = s.winIn := rfl
@[simp] theorem setQueue_port (s : State) (k : Nat) (x : Queue) : (s.setQueue k x).port = s.port := rfl
@[simp] theorem setQueue_cores (s : State) (k : Nat) (x : Queue) : (s.setQueue k x).cores = s.cores := rfl
@[simp] theorem setQueue_fuseSeg (s : State) (k : Nat) (x : Queue) : (s.setQueue k x).fuseSeg = s.fuseSeg := rfl
@[simp] theorem setQueue_rep (s : State) (k : Nat) (x : Queue) : (s.setQueue k x).rep = s.rep := rfl
@[simp] theorem setQueue_clusters (s : State) (k : Nat) (x : Queue) : (s.setQueue k x).clusters = s.clusters := rfl
@[simp] theorem setQueue_lines (s : State) (k : Nat) (x : Queue) : (s.setQueue k x).lines = s.lines := rfl
@[simp] theorem setQueue_net (s : State) (k : Nat) (x : Queue) : (s.setQueue k x).net = s.net := rfl
@[simp] theorem setQueue_ans (s : State) (k : Nat) (x : Queue) : (s.setQueue k x).ans = s.ans := rfl
@[simp] theorem setQueue_asked (s : State) (k : Nat) (x : Queue) : (s.setQueue k x).asked = s.asked := rfl
@[simp] theorem setQueue_reqTxn (s : State) (k : Nat) (x : Queue) : (s.setQueue k x).reqTxn = s.reqTxn := rfl
@[simp] theorem setQueue_posted (s : State) (k : Nat) (x : Queue) : (s.setQueue k x).posted = s.posted := rfl
@[simp] theorem setQueue_msc (s : State) (k : Nat) (x : Queue) : (s.setQueue k x).msc = s.msc := rfl
@[simp] theorem setQueue_sealed (s : State) (k : Nat) (x : Queue) : (s.setQueue k x).sealed = s.sealed := rfl
@[simp] theorem setQueue_resetDue (s : State) (k : Nat) (x : Queue) : (s.setQueue k x).resetDue = s.resetDue := rfl
@[simp] theorem setQueue_offMore (s : State) (k : Nat) (x : Queue) : (s.setQueue k x).offMore = s.offMore := rfl
@[simp] theorem setQueue_heldSnp (s : State) (k : Nat) (x : Queue) : (s.setQueue k x).heldSnp = s.heldSnp := rfl
@[simp] theorem setQueue_media (s : State) (k : Nat) (x : Queue) : (s.setQueue k x).media = s.media := rfl
@[simp] theorem setQueue_corr (s : State) (k : Nat) (x : Queue) : (s.setQueue k x).corr = s.corr := rfl
@[simp] theorem setQueue_heat (s : State) (k : Nat) (x : Queue) : (s.setQueue k x).heat = s.heat := rfl
@[simp] theorem setQueue_heatVal (s : State) (k : Nat) (x : Queue) : (s.setQueue k x).heatVal = s.heatVal := rfl
@[simp] theorem setQueue_ctls (s : State) (k : Nat) (x : Queue) : (s.setQueue k x).ctls = s.ctls := rfl
@[simp] theorem setQueue_miss (s : State) (k : Nat) (x : Queue) : (s.setQueue k x).miss = s.miss := rfl
@[simp] theorem setQueue_moves (s : State) (k : Nat) (x : Queue) : (s.setQueue k x).moves = s.moves := rfl
@[simp] theorem setQueue_autos (s : State) (k : Nat) (x : Queue) : (s.setQueue k x).autos = s.autos := rfl
@[simp] theorem setQueue_keys (s : State) (k : Nat) (x : Queue) : (s.setQueue k x).keys = s.keys := rfl
@[simp] theorem setQueue_secIntegrity (s : State) (k : Nat) (x : Queue) : (s.setQueue k x).secIntegrity = s.secIntegrity := rfl
@[simp] theorem setQueue_secAuth (s : State) (k : Nat) (x : Queue) : (s.setQueue k x).secAuth = s.secAuth := rfl
@[simp] theorem setQueue_secLast (s : State) (k : Nat) (x : Queue) : (s.setQueue k x).secLast = s.secLast := rfl
@[simp] theorem setQueue_traffic (s : State) (k : Nat) (x : Queue) : (s.setQueue k x).traffic = s.traffic := rfl
@[simp] theorem setQueue_snpTxn (s : State) (k : Nat) (x : Queue) : (s.setQueue k x).snpTxn = s.snpTxn := rfl
@[simp] theorem setQueue_useStamp (s : State) (k : Nat) (x : Queue) : (s.setQueue k x).useStamp = s.useStamp := rfl
@[simp] theorem setQueue_mem (s : State) (k : Nat) (x : Queue) : (s.setQueue k x).mem = s.mem := rfl
@[simp] theorem setQueue_pot (s : State) (k : Nat) (x : Queue) : (s.setQueue k x).pot = s.pot := rfl
@[simp] theorem setQueue_pool (s : State) (k : Nat) (x : Queue) : (s.setQueue k x).pool = s.pool := rfl
@[simp] theorem setQueue_moved (s : State) (k : Nat) (x : Queue) : (s.setQueue k x).moved = s.moved := rfl
@[simp] theorem setQueue_granA (s : State) (k : Nat) (x : Queue) : (s.setQueue k x).granA = s.granA := rfl
@[simp] theorem setQueue_granB (s : State) (k : Nat) (x : Queue) : (s.setQueue k x).granB = s.granB := rfl
@[simp] theorem setQueue_granC (s : State) (k : Nat) (x : Queue) : (s.setQueue k x).granC = s.granC := rfl
@[simp] theorem setQueue_offline (s : State) (k : Nat) (x : Queue) : (s.setQueue k x).offline = s.offline := rfl
@[simp] theorem setQueue_offOverflow (s : State) (k : Nat) (x : Queue) : (s.setQueue k x).offOverflow = s.offOverflow := rfl
@[simp] theorem setQueue_opSeconds (s : State) (k : Nat) (x : Queue) : (s.setQueue k x).opSeconds = s.opSeconds := rfl
@[simp] theorem setQueue_ctxs (s : State) (k : Nat) (x : Queue) : (s.setQueue k x).ctxs = s.ctxs := rfl
@[simp] theorem setQueue_allocs (s : State) (k : Nat) (x : Queue) : (s.setQueue k x).allocs = s.allocs := rfl
@[simp] theorem setQueue_shoots (s : State) (k : Nat) (x : Queue) : (s.setQueue k x).shoots = s.shoots := rfl
@[simp] theorem setQueue_changes (s : State) (k : Nat) (x : Queue) : (s.setQueue k x).changes = s.changes := rfl
@[simp] theorem setQueue_halted (s : State) (k : Nat) (x : Queue) : (s.setQueue k x).halted = s.halted := rfl
@[simp] theorem setQueue_drops (s : State) (k : Nat) (x : Queue) : (s.setQueue k x).drops = s.drops := rfl
@[simp] theorem setQueue_fences (s : State) (k : Nat) (x : Queue) : (s.setQueue k x).fences = s.fences := rfl
@[simp] theorem setQueue_fenceBlocks (s : State) (k : Nat) (x : Queue) : (s.setQueue k x).fenceBlocks = s.fenceBlocks := rfl
@[simp] theorem setQueue_launches (s : State) (k : Nat) (x : Queue) : (s.setQueue k x).launches = s.launches := rfl
@[simp] theorem setQueue_resv (s : State) (k : Nat) (x : Queue) : (s.setQueue k x).resv = s.resv := rfl
@[simp] theorem setQueue_served (s : State) (k : Nat) (x : Queue) : (s.setQueue k x).served = s.served := rfl
@[simp] theorem setQueue_insts (s : State) (k : Nat) (x : Queue) : (s.setQueue k x).insts = s.insts := rfl
@[simp] theorem setQueue_evt (s : State) (k : Nat) (x : Queue) : (s.setQueue k x).evt = s.evt := rfl
@[simp] theorem setQueue_frings (s : State) (k : Nat) (x : Queue) : (s.setQueue k x).frings = s.frings := rfl
@[simp] theorem setQueue_cmd (s : State) (k : Nat) (x : Queue) : (s.setQueue k x).cmd = s.cmd := rfl
@[simp] theorem setQueue_accepted (s : State) (k : Nat) (x : Queue) : (s.setQueue k x).accepted = s.accepted := rfl
@[simp] theorem setQueue_mbx (s : State) (k : Nat) (x : Queue) : (s.setQueue k x).mbx = s.mbx := rfl
@[simp] theorem setQueue_txns (s : State) (k : Nat) (x : Queue) : (s.setQueue k x).txns = s.txns := rfl
@[simp] theorem setQueue_nextTxn (s : State) (k : Nat) (x : Queue) : (s.setQueue k x).nextTxn = s.nextTxn := rfl
@[simp] theorem setQueue_cfgGen (s : State) (k : Nat) (x : Queue) : (s.setQueue k x).cfgGen = s.cfgGen := rfl
@[simp] theorem setQueue_gens (s : State) (k : Nat) (x : Queue) : (s.setQueue k x).gens = s.gens := rfl
@[simp] theorem setQueue_lastCommit (s : State) (k : Nat) (x : Queue) : (s.setQueue k x).lastCommit = s.lastCommit := rfl
@[simp] theorem setQueue_flashJournal (s : State) (k : Nat) (x : Queue) : (s.setQueue k x).flashJournal = s.flashJournal := rfl
@[simp] theorem setQueue_journal (s : State) (k : Nat) (x : Queue) : (s.setQueue k x).journal = s.journal := rfl
@[simp] theorem setQueue_txnConflicts (s : State) (k : Nat) (x : Queue) : (s.setQueue k x).txnConflicts = s.txnConflicts := rfl
@[simp] theorem setQueue_txnAborts (s : State) (k : Nat) (x : Queue) : (s.setQueue k x).txnAborts = s.txnAborts := rfl
@[simp] theorem setQueue_out (s : State) (k : Nat) (x : Queue) : (s.setQueue k x).out = s.out := rfl
@[simp] theorem setQueue_free (s : State) (k : Nat) (x : Queue) : (s.setQueue k x).free = s.free := rfl
@[simp] theorem setQueue_pending (s : State) (k : Nat) (x : Queue) : (s.setQueue k x).pending = s.pending := rfl

@[simp] theorem setFence_regs (s : State) (k : Nat) (x : Fence) : (s.setFence k x).regs = s.regs := rfl
@[simp] theorem setFence_fuse (s : State) (k : Nat) (x : Fence) : (s.setFence k x).fuse = s.fuse := rfl
@[simp] theorem setFence_flash (s : State) (k : Nat) (x : Fence) : (s.setFence k x).flash = s.flash := rfl
@[simp] theorem setFence_sec (s : State) (k : Nat) (x : Fence) : (s.setFence k x).sec = s.sec := rfl
@[simp] theorem setFence_clocks (s : State) (k : Nat) (x : Fence) : (s.setFence k x).clocks = s.clocks := rfl
@[simp] theorem setFence_rst (s : State) (k : Nat) (x : Fence) : (s.setFence k x).rst = s.rst := rfl
@[simp] theorem setFence_co (s : State) (k : Nat) (x : Fence) : (s.setFence k x).co = s.co := rfl
@[simp] theorem setFence_power (s : State) (k : Nat) (x : Fence) : (s.setFence k x).power = s.power := rfl
@[simp] theorem setFence_parts (s : State) (k : Nat) (x : Fence) : (s.setFence k x).parts = s.parts := rfl
@[simp] theorem setFence_sites (s : State) (k : Nat) (x : Fence) : (s.setFence k x).sites = s.sites := rfl
@[simp] theorem setFence_siteRecs (s : State) (k : Nat) (x : Fence) : (s.setFence k x).siteRecs = s.siteRecs := rfl
@[simp] theorem setFence_slPorts (s : State) (k : Nat) (x : Fence) : (s.setFence k x).slPorts = s.slPorts := rfl
@[simp] theorem setFence_slConf (s : State) (k : Nat) (x : Fence) : (s.setFence k x).slConf = s.slConf := rfl
@[simp] theorem setFence_winOut (s : State) (k : Nat) (x : Fence) : (s.setFence k x).winOut = s.winOut := rfl
@[simp] theorem setFence_winIn (s : State) (k : Nat) (x : Fence) : (s.setFence k x).winIn = s.winIn := rfl
@[simp] theorem setFence_port (s : State) (k : Nat) (x : Fence) : (s.setFence k x).port = s.port := rfl
@[simp] theorem setFence_cores (s : State) (k : Nat) (x : Fence) : (s.setFence k x).cores = s.cores := rfl
@[simp] theorem setFence_fuseSeg (s : State) (k : Nat) (x : Fence) : (s.setFence k x).fuseSeg = s.fuseSeg := rfl
@[simp] theorem setFence_rep (s : State) (k : Nat) (x : Fence) : (s.setFence k x).rep = s.rep := rfl
@[simp] theorem setFence_clusters (s : State) (k : Nat) (x : Fence) : (s.setFence k x).clusters = s.clusters := rfl
@[simp] theorem setFence_lines (s : State) (k : Nat) (x : Fence) : (s.setFence k x).lines = s.lines := rfl
@[simp] theorem setFence_net (s : State) (k : Nat) (x : Fence) : (s.setFence k x).net = s.net := rfl
@[simp] theorem setFence_ans (s : State) (k : Nat) (x : Fence) : (s.setFence k x).ans = s.ans := rfl
@[simp] theorem setFence_asked (s : State) (k : Nat) (x : Fence) : (s.setFence k x).asked = s.asked := rfl
@[simp] theorem setFence_reqTxn (s : State) (k : Nat) (x : Fence) : (s.setFence k x).reqTxn = s.reqTxn := rfl
@[simp] theorem setFence_posted (s : State) (k : Nat) (x : Fence) : (s.setFence k x).posted = s.posted := rfl
@[simp] theorem setFence_msc (s : State) (k : Nat) (x : Fence) : (s.setFence k x).msc = s.msc := rfl
@[simp] theorem setFence_sealed (s : State) (k : Nat) (x : Fence) : (s.setFence k x).sealed = s.sealed := rfl
@[simp] theorem setFence_resetDue (s : State) (k : Nat) (x : Fence) : (s.setFence k x).resetDue = s.resetDue := rfl
@[simp] theorem setFence_offMore (s : State) (k : Nat) (x : Fence) : (s.setFence k x).offMore = s.offMore := rfl
@[simp] theorem setFence_heldSnp (s : State) (k : Nat) (x : Fence) : (s.setFence k x).heldSnp = s.heldSnp := rfl
@[simp] theorem setFence_media (s : State) (k : Nat) (x : Fence) : (s.setFence k x).media = s.media := rfl
@[simp] theorem setFence_corr (s : State) (k : Nat) (x : Fence) : (s.setFence k x).corr = s.corr := rfl
@[simp] theorem setFence_heat (s : State) (k : Nat) (x : Fence) : (s.setFence k x).heat = s.heat := rfl
@[simp] theorem setFence_heatVal (s : State) (k : Nat) (x : Fence) : (s.setFence k x).heatVal = s.heatVal := rfl
@[simp] theorem setFence_ctls (s : State) (k : Nat) (x : Fence) : (s.setFence k x).ctls = s.ctls := rfl
@[simp] theorem setFence_miss (s : State) (k : Nat) (x : Fence) : (s.setFence k x).miss = s.miss := rfl
@[simp] theorem setFence_moves (s : State) (k : Nat) (x : Fence) : (s.setFence k x).moves = s.moves := rfl
@[simp] theorem setFence_autos (s : State) (k : Nat) (x : Fence) : (s.setFence k x).autos = s.autos := rfl
@[simp] theorem setFence_keys (s : State) (k : Nat) (x : Fence) : (s.setFence k x).keys = s.keys := rfl
@[simp] theorem setFence_secIntegrity (s : State) (k : Nat) (x : Fence) : (s.setFence k x).secIntegrity = s.secIntegrity := rfl
@[simp] theorem setFence_secAuth (s : State) (k : Nat) (x : Fence) : (s.setFence k x).secAuth = s.secAuth := rfl
@[simp] theorem setFence_secLast (s : State) (k : Nat) (x : Fence) : (s.setFence k x).secLast = s.secLast := rfl
@[simp] theorem setFence_traffic (s : State) (k : Nat) (x : Fence) : (s.setFence k x).traffic = s.traffic := rfl
@[simp] theorem setFence_snpTxn (s : State) (k : Nat) (x : Fence) : (s.setFence k x).snpTxn = s.snpTxn := rfl
@[simp] theorem setFence_useStamp (s : State) (k : Nat) (x : Fence) : (s.setFence k x).useStamp = s.useStamp := rfl
@[simp] theorem setFence_mem (s : State) (k : Nat) (x : Fence) : (s.setFence k x).mem = s.mem := rfl
@[simp] theorem setFence_pot (s : State) (k : Nat) (x : Fence) : (s.setFence k x).pot = s.pot := rfl
@[simp] theorem setFence_pool (s : State) (k : Nat) (x : Fence) : (s.setFence k x).pool = s.pool := rfl
@[simp] theorem setFence_moved (s : State) (k : Nat) (x : Fence) : (s.setFence k x).moved = s.moved := rfl
@[simp] theorem setFence_granA (s : State) (k : Nat) (x : Fence) : (s.setFence k x).granA = s.granA := rfl
@[simp] theorem setFence_granB (s : State) (k : Nat) (x : Fence) : (s.setFence k x).granB = s.granB := rfl
@[simp] theorem setFence_granC (s : State) (k : Nat) (x : Fence) : (s.setFence k x).granC = s.granC := rfl
@[simp] theorem setFence_offline (s : State) (k : Nat) (x : Fence) : (s.setFence k x).offline = s.offline := rfl
@[simp] theorem setFence_offOverflow (s : State) (k : Nat) (x : Fence) : (s.setFence k x).offOverflow = s.offOverflow := rfl
@[simp] theorem setFence_opSeconds (s : State) (k : Nat) (x : Fence) : (s.setFence k x).opSeconds = s.opSeconds := rfl
@[simp] theorem setFence_ctxs (s : State) (k : Nat) (x : Fence) : (s.setFence k x).ctxs = s.ctxs := rfl
@[simp] theorem setFence_allocs (s : State) (k : Nat) (x : Fence) : (s.setFence k x).allocs = s.allocs := rfl
@[simp] theorem setFence_shoots (s : State) (k : Nat) (x : Fence) : (s.setFence k x).shoots = s.shoots := rfl
@[simp] theorem setFence_changes (s : State) (k : Nat) (x : Fence) : (s.setFence k x).changes = s.changes := rfl
@[simp] theorem setFence_halted (s : State) (k : Nat) (x : Fence) : (s.setFence k x).halted = s.halted := rfl
@[simp] theorem setFence_drops (s : State) (k : Nat) (x : Fence) : (s.setFence k x).drops = s.drops := rfl
@[simp] theorem setFence_queues (s : State) (k : Nat) (x : Fence) : (s.setFence k x).queues = s.queues := rfl
@[simp] theorem setFence_fenceBlocks (s : State) (k : Nat) (x : Fence) : (s.setFence k x).fenceBlocks = s.fenceBlocks := rfl
@[simp] theorem setFence_launches (s : State) (k : Nat) (x : Fence) : (s.setFence k x).launches = s.launches := rfl
@[simp] theorem setFence_resv (s : State) (k : Nat) (x : Fence) : (s.setFence k x).resv = s.resv := rfl
@[simp] theorem setFence_served (s : State) (k : Nat) (x : Fence) : (s.setFence k x).served = s.served := rfl
@[simp] theorem setFence_insts (s : State) (k : Nat) (x : Fence) : (s.setFence k x).insts = s.insts := rfl
@[simp] theorem setFence_evt (s : State) (k : Nat) (x : Fence) : (s.setFence k x).evt = s.evt := rfl
@[simp] theorem setFence_frings (s : State) (k : Nat) (x : Fence) : (s.setFence k x).frings = s.frings := rfl
@[simp] theorem setFence_cmd (s : State) (k : Nat) (x : Fence) : (s.setFence k x).cmd = s.cmd := rfl
@[simp] theorem setFence_accepted (s : State) (k : Nat) (x : Fence) : (s.setFence k x).accepted = s.accepted := rfl
@[simp] theorem setFence_mbx (s : State) (k : Nat) (x : Fence) : (s.setFence k x).mbx = s.mbx := rfl
@[simp] theorem setFence_txns (s : State) (k : Nat) (x : Fence) : (s.setFence k x).txns = s.txns := rfl
@[simp] theorem setFence_nextTxn (s : State) (k : Nat) (x : Fence) : (s.setFence k x).nextTxn = s.nextTxn := rfl
@[simp] theorem setFence_cfgGen (s : State) (k : Nat) (x : Fence) : (s.setFence k x).cfgGen = s.cfgGen := rfl
@[simp] theorem setFence_gens (s : State) (k : Nat) (x : Fence) : (s.setFence k x).gens = s.gens := rfl
@[simp] theorem setFence_lastCommit (s : State) (k : Nat) (x : Fence) : (s.setFence k x).lastCommit = s.lastCommit := rfl
@[simp] theorem setFence_flashJournal (s : State) (k : Nat) (x : Fence) : (s.setFence k x).flashJournal = s.flashJournal := rfl
@[simp] theorem setFence_journal (s : State) (k : Nat) (x : Fence) : (s.setFence k x).journal = s.journal := rfl
@[simp] theorem setFence_txnConflicts (s : State) (k : Nat) (x : Fence) : (s.setFence k x).txnConflicts = s.txnConflicts := rfl
@[simp] theorem setFence_txnAborts (s : State) (k : Nat) (x : Fence) : (s.setFence k x).txnAborts = s.txnAborts := rfl
@[simp] theorem setFence_out (s : State) (k : Nat) (x : Fence) : (s.setFence k x).out = s.out := rfl
@[simp] theorem setFence_free (s : State) (k : Nat) (x : Fence) : (s.setFence k x).free = s.free := rfl
@[simp] theorem setFence_pending (s : State) (k : Nat) (x : Fence) : (s.setFence k x).pending = s.pending := rfl

@[simp] theorem setRing_regs (s : State) (k : Nat) (x : EvRing) : (s.setRing k x).regs = s.regs := rfl
@[simp] theorem setRing_fuse (s : State) (k : Nat) (x : EvRing) : (s.setRing k x).fuse = s.fuse := rfl
@[simp] theorem setRing_flash (s : State) (k : Nat) (x : EvRing) : (s.setRing k x).flash = s.flash := rfl
@[simp] theorem setRing_sec (s : State) (k : Nat) (x : EvRing) : (s.setRing k x).sec = s.sec := rfl
@[simp] theorem setRing_clocks (s : State) (k : Nat) (x : EvRing) : (s.setRing k x).clocks = s.clocks := rfl
@[simp] theorem setRing_rst (s : State) (k : Nat) (x : EvRing) : (s.setRing k x).rst = s.rst := rfl
@[simp] theorem setRing_co (s : State) (k : Nat) (x : EvRing) : (s.setRing k x).co = s.co := rfl
@[simp] theorem setRing_power (s : State) (k : Nat) (x : EvRing) : (s.setRing k x).power = s.power := rfl
@[simp] theorem setRing_parts (s : State) (k : Nat) (x : EvRing) : (s.setRing k x).parts = s.parts := rfl
@[simp] theorem setRing_sites (s : State) (k : Nat) (x : EvRing) : (s.setRing k x).sites = s.sites := rfl
@[simp] theorem setRing_siteRecs (s : State) (k : Nat) (x : EvRing) : (s.setRing k x).siteRecs = s.siteRecs := rfl
@[simp] theorem setRing_slPorts (s : State) (k : Nat) (x : EvRing) : (s.setRing k x).slPorts = s.slPorts := rfl
@[simp] theorem setRing_slConf (s : State) (k : Nat) (x : EvRing) : (s.setRing k x).slConf = s.slConf := rfl
@[simp] theorem setRing_winOut (s : State) (k : Nat) (x : EvRing) : (s.setRing k x).winOut = s.winOut := rfl
@[simp] theorem setRing_winIn (s : State) (k : Nat) (x : EvRing) : (s.setRing k x).winIn = s.winIn := rfl
@[simp] theorem setRing_port (s : State) (k : Nat) (x : EvRing) : (s.setRing k x).port = s.port := rfl
@[simp] theorem setRing_cores (s : State) (k : Nat) (x : EvRing) : (s.setRing k x).cores = s.cores := rfl
@[simp] theorem setRing_fuseSeg (s : State) (k : Nat) (x : EvRing) : (s.setRing k x).fuseSeg = s.fuseSeg := rfl
@[simp] theorem setRing_rep (s : State) (k : Nat) (x : EvRing) : (s.setRing k x).rep = s.rep := rfl
@[simp] theorem setRing_clusters (s : State) (k : Nat) (x : EvRing) : (s.setRing k x).clusters = s.clusters := rfl
@[simp] theorem setRing_lines (s : State) (k : Nat) (x : EvRing) : (s.setRing k x).lines = s.lines := rfl
@[simp] theorem setRing_net (s : State) (k : Nat) (x : EvRing) : (s.setRing k x).net = s.net := rfl
@[simp] theorem setRing_ans (s : State) (k : Nat) (x : EvRing) : (s.setRing k x).ans = s.ans := rfl
@[simp] theorem setRing_asked (s : State) (k : Nat) (x : EvRing) : (s.setRing k x).asked = s.asked := rfl
@[simp] theorem setRing_reqTxn (s : State) (k : Nat) (x : EvRing) : (s.setRing k x).reqTxn = s.reqTxn := rfl
@[simp] theorem setRing_posted (s : State) (k : Nat) (x : EvRing) : (s.setRing k x).posted = s.posted := rfl
@[simp] theorem setRing_msc (s : State) (k : Nat) (x : EvRing) : (s.setRing k x).msc = s.msc := rfl
@[simp] theorem setRing_sealed (s : State) (k : Nat) (x : EvRing) : (s.setRing k x).sealed = s.sealed := rfl
@[simp] theorem setRing_resetDue (s : State) (k : Nat) (x : EvRing) : (s.setRing k x).resetDue = s.resetDue := rfl
@[simp] theorem setRing_offMore (s : State) (k : Nat) (x : EvRing) : (s.setRing k x).offMore = s.offMore := rfl
@[simp] theorem setRing_heldSnp (s : State) (k : Nat) (x : EvRing) : (s.setRing k x).heldSnp = s.heldSnp := rfl
@[simp] theorem setRing_media (s : State) (k : Nat) (x : EvRing) : (s.setRing k x).media = s.media := rfl
@[simp] theorem setRing_corr (s : State) (k : Nat) (x : EvRing) : (s.setRing k x).corr = s.corr := rfl
@[simp] theorem setRing_heat (s : State) (k : Nat) (x : EvRing) : (s.setRing k x).heat = s.heat := rfl
@[simp] theorem setRing_heatVal (s : State) (k : Nat) (x : EvRing) : (s.setRing k x).heatVal = s.heatVal := rfl
@[simp] theorem setRing_ctls (s : State) (k : Nat) (x : EvRing) : (s.setRing k x).ctls = s.ctls := rfl
@[simp] theorem setRing_miss (s : State) (k : Nat) (x : EvRing) : (s.setRing k x).miss = s.miss := rfl
@[simp] theorem setRing_moves (s : State) (k : Nat) (x : EvRing) : (s.setRing k x).moves = s.moves := rfl
@[simp] theorem setRing_autos (s : State) (k : Nat) (x : EvRing) : (s.setRing k x).autos = s.autos := rfl
@[simp] theorem setRing_keys (s : State) (k : Nat) (x : EvRing) : (s.setRing k x).keys = s.keys := rfl
@[simp] theorem setRing_secIntegrity (s : State) (k : Nat) (x : EvRing) : (s.setRing k x).secIntegrity = s.secIntegrity := rfl
@[simp] theorem setRing_secAuth (s : State) (k : Nat) (x : EvRing) : (s.setRing k x).secAuth = s.secAuth := rfl
@[simp] theorem setRing_secLast (s : State) (k : Nat) (x : EvRing) : (s.setRing k x).secLast = s.secLast := rfl
@[simp] theorem setRing_traffic (s : State) (k : Nat) (x : EvRing) : (s.setRing k x).traffic = s.traffic := rfl
@[simp] theorem setRing_snpTxn (s : State) (k : Nat) (x : EvRing) : (s.setRing k x).snpTxn = s.snpTxn := rfl
@[simp] theorem setRing_useStamp (s : State) (k : Nat) (x : EvRing) : (s.setRing k x).useStamp = s.useStamp := rfl
@[simp] theorem setRing_mem (s : State) (k : Nat) (x : EvRing) : (s.setRing k x).mem = s.mem := rfl
@[simp] theorem setRing_pot (s : State) (k : Nat) (x : EvRing) : (s.setRing k x).pot = s.pot := rfl
@[simp] theorem setRing_pool (s : State) (k : Nat) (x : EvRing) : (s.setRing k x).pool = s.pool := rfl
@[simp] theorem setRing_moved (s : State) (k : Nat) (x : EvRing) : (s.setRing k x).moved = s.moved := rfl
@[simp] theorem setRing_granA (s : State) (k : Nat) (x : EvRing) : (s.setRing k x).granA = s.granA := rfl
@[simp] theorem setRing_granB (s : State) (k : Nat) (x : EvRing) : (s.setRing k x).granB = s.granB := rfl
@[simp] theorem setRing_granC (s : State) (k : Nat) (x : EvRing) : (s.setRing k x).granC = s.granC := rfl
@[simp] theorem setRing_offline (s : State) (k : Nat) (x : EvRing) : (s.setRing k x).offline = s.offline := rfl
@[simp] theorem setRing_offOverflow (s : State) (k : Nat) (x : EvRing) : (s.setRing k x).offOverflow = s.offOverflow := rfl
@[simp] theorem setRing_opSeconds (s : State) (k : Nat) (x : EvRing) : (s.setRing k x).opSeconds = s.opSeconds := rfl
@[simp] theorem setRing_ctxs (s : State) (k : Nat) (x : EvRing) : (s.setRing k x).ctxs = s.ctxs := rfl
@[simp] theorem setRing_allocs (s : State) (k : Nat) (x : EvRing) : (s.setRing k x).allocs = s.allocs := rfl
@[simp] theorem setRing_shoots (s : State) (k : Nat) (x : EvRing) : (s.setRing k x).shoots = s.shoots := rfl
@[simp] theorem setRing_changes (s : State) (k : Nat) (x : EvRing) : (s.setRing k x).changes = s.changes := rfl
@[simp] theorem setRing_halted (s : State) (k : Nat) (x : EvRing) : (s.setRing k x).halted = s.halted := rfl
@[simp] theorem setRing_drops (s : State) (k : Nat) (x : EvRing) : (s.setRing k x).drops = s.drops := rfl
@[simp] theorem setRing_queues (s : State) (k : Nat) (x : EvRing) : (s.setRing k x).queues = s.queues := rfl
@[simp] theorem setRing_fences (s : State) (k : Nat) (x : EvRing) : (s.setRing k x).fences = s.fences := rfl
@[simp] theorem setRing_fenceBlocks (s : State) (k : Nat) (x : EvRing) : (s.setRing k x).fenceBlocks = s.fenceBlocks := rfl
@[simp] theorem setRing_launches (s : State) (k : Nat) (x : EvRing) : (s.setRing k x).launches = s.launches := rfl
@[simp] theorem setRing_resv (s : State) (k : Nat) (x : EvRing) : (s.setRing k x).resv = s.resv := rfl
@[simp] theorem setRing_served (s : State) (k : Nat) (x : EvRing) : (s.setRing k x).served = s.served := rfl
@[simp] theorem setRing_insts (s : State) (k : Nat) (x : EvRing) : (s.setRing k x).insts = s.insts := rfl
@[simp] theorem setRing_frings (s : State) (k : Nat) (x : EvRing) : (s.setRing k x).frings = s.frings := rfl
@[simp] theorem setRing_cmd (s : State) (k : Nat) (x : EvRing) : (s.setRing k x).cmd = s.cmd := rfl
@[simp] theorem setRing_accepted (s : State) (k : Nat) (x : EvRing) : (s.setRing k x).accepted = s.accepted := rfl
@[simp] theorem setRing_mbx (s : State) (k : Nat) (x : EvRing) : (s.setRing k x).mbx = s.mbx := rfl
@[simp] theorem setRing_txns (s : State) (k : Nat) (x : EvRing) : (s.setRing k x).txns = s.txns := rfl
@[simp] theorem setRing_nextTxn (s : State) (k : Nat) (x : EvRing) : (s.setRing k x).nextTxn = s.nextTxn := rfl
@[simp] theorem setRing_cfgGen (s : State) (k : Nat) (x : EvRing) : (s.setRing k x).cfgGen = s.cfgGen := rfl
@[simp] theorem setRing_gens (s : State) (k : Nat) (x : EvRing) : (s.setRing k x).gens = s.gens := rfl
@[simp] theorem setRing_lastCommit (s : State) (k : Nat) (x : EvRing) : (s.setRing k x).lastCommit = s.lastCommit := rfl
@[simp] theorem setRing_flashJournal (s : State) (k : Nat) (x : EvRing) : (s.setRing k x).flashJournal = s.flashJournal := rfl
@[simp] theorem setRing_journal (s : State) (k : Nat) (x : EvRing) : (s.setRing k x).journal = s.journal := rfl
@[simp] theorem setRing_txnConflicts (s : State) (k : Nat) (x : EvRing) : (s.setRing k x).txnConflicts = s.txnConflicts := rfl
@[simp] theorem setRing_txnAborts (s : State) (k : Nat) (x : EvRing) : (s.setRing k x).txnAborts = s.txnAborts := rfl
@[simp] theorem setRing_out (s : State) (k : Nat) (x : EvRing) : (s.setRing k x).out = s.out := rfl
@[simp] theorem setRing_free (s : State) (k : Nat) (x : EvRing) : (s.setRing k x).free = s.free := rfl
@[simp] theorem setRing_pending (s : State) (k : Nat) (x : EvRing) : (s.setRing k x).pending = s.pending := rfl

@[simp] theorem setFring_regs (s : State) (k : Nat) (x : FaultRing) : (s.setFring k x).regs = s.regs := rfl
@[simp] theorem setFring_fuse (s : State) (k : Nat) (x : FaultRing) : (s.setFring k x).fuse = s.fuse := rfl
@[simp] theorem setFring_flash (s : State) (k : Nat) (x : FaultRing) : (s.setFring k x).flash = s.flash := rfl
@[simp] theorem setFring_sec (s : State) (k : Nat) (x : FaultRing) : (s.setFring k x).sec = s.sec := rfl
@[simp] theorem setFring_clocks (s : State) (k : Nat) (x : FaultRing) : (s.setFring k x).clocks = s.clocks := rfl
@[simp] theorem setFring_rst (s : State) (k : Nat) (x : FaultRing) : (s.setFring k x).rst = s.rst := rfl
@[simp] theorem setFring_co (s : State) (k : Nat) (x : FaultRing) : (s.setFring k x).co = s.co := rfl
@[simp] theorem setFring_power (s : State) (k : Nat) (x : FaultRing) : (s.setFring k x).power = s.power := rfl
@[simp] theorem setFring_parts (s : State) (k : Nat) (x : FaultRing) : (s.setFring k x).parts = s.parts := rfl
@[simp] theorem setFring_sites (s : State) (k : Nat) (x : FaultRing) : (s.setFring k x).sites = s.sites := rfl
@[simp] theorem setFring_siteRecs (s : State) (k : Nat) (x : FaultRing) : (s.setFring k x).siteRecs = s.siteRecs := rfl
@[simp] theorem setFring_slPorts (s : State) (k : Nat) (x : FaultRing) : (s.setFring k x).slPorts = s.slPorts := rfl
@[simp] theorem setFring_slConf (s : State) (k : Nat) (x : FaultRing) : (s.setFring k x).slConf = s.slConf := rfl
@[simp] theorem setFring_winOut (s : State) (k : Nat) (x : FaultRing) : (s.setFring k x).winOut = s.winOut := rfl
@[simp] theorem setFring_winIn (s : State) (k : Nat) (x : FaultRing) : (s.setFring k x).winIn = s.winIn := rfl
@[simp] theorem setFring_port (s : State) (k : Nat) (x : FaultRing) : (s.setFring k x).port = s.port := rfl
@[simp] theorem setFring_cores (s : State) (k : Nat) (x : FaultRing) : (s.setFring k x).cores = s.cores := rfl
@[simp] theorem setFring_fuseSeg (s : State) (k : Nat) (x : FaultRing) : (s.setFring k x).fuseSeg = s.fuseSeg := rfl
@[simp] theorem setFring_rep (s : State) (k : Nat) (x : FaultRing) : (s.setFring k x).rep = s.rep := rfl
@[simp] theorem setFring_clusters (s : State) (k : Nat) (x : FaultRing) : (s.setFring k x).clusters = s.clusters := rfl
@[simp] theorem setFring_lines (s : State) (k : Nat) (x : FaultRing) : (s.setFring k x).lines = s.lines := rfl
@[simp] theorem setFring_net (s : State) (k : Nat) (x : FaultRing) : (s.setFring k x).net = s.net := rfl
@[simp] theorem setFring_ans (s : State) (k : Nat) (x : FaultRing) : (s.setFring k x).ans = s.ans := rfl
@[simp] theorem setFring_asked (s : State) (k : Nat) (x : FaultRing) : (s.setFring k x).asked = s.asked := rfl
@[simp] theorem setFring_reqTxn (s : State) (k : Nat) (x : FaultRing) : (s.setFring k x).reqTxn = s.reqTxn := rfl
@[simp] theorem setFring_posted (s : State) (k : Nat) (x : FaultRing) : (s.setFring k x).posted = s.posted := rfl
@[simp] theorem setFring_msc (s : State) (k : Nat) (x : FaultRing) : (s.setFring k x).msc = s.msc := rfl
@[simp] theorem setFring_sealed (s : State) (k : Nat) (x : FaultRing) : (s.setFring k x).sealed = s.sealed := rfl
@[simp] theorem setFring_resetDue (s : State) (k : Nat) (x : FaultRing) : (s.setFring k x).resetDue = s.resetDue := rfl
@[simp] theorem setFring_offMore (s : State) (k : Nat) (x : FaultRing) : (s.setFring k x).offMore = s.offMore := rfl
@[simp] theorem setFring_heldSnp (s : State) (k : Nat) (x : FaultRing) : (s.setFring k x).heldSnp = s.heldSnp := rfl
@[simp] theorem setFring_media (s : State) (k : Nat) (x : FaultRing) : (s.setFring k x).media = s.media := rfl
@[simp] theorem setFring_corr (s : State) (k : Nat) (x : FaultRing) : (s.setFring k x).corr = s.corr := rfl
@[simp] theorem setFring_heat (s : State) (k : Nat) (x : FaultRing) : (s.setFring k x).heat = s.heat := rfl
@[simp] theorem setFring_heatVal (s : State) (k : Nat) (x : FaultRing) : (s.setFring k x).heatVal = s.heatVal := rfl
@[simp] theorem setFring_ctls (s : State) (k : Nat) (x : FaultRing) : (s.setFring k x).ctls = s.ctls := rfl
@[simp] theorem setFring_miss (s : State) (k : Nat) (x : FaultRing) : (s.setFring k x).miss = s.miss := rfl
@[simp] theorem setFring_moves (s : State) (k : Nat) (x : FaultRing) : (s.setFring k x).moves = s.moves := rfl
@[simp] theorem setFring_autos (s : State) (k : Nat) (x : FaultRing) : (s.setFring k x).autos = s.autos := rfl
@[simp] theorem setFring_keys (s : State) (k : Nat) (x : FaultRing) : (s.setFring k x).keys = s.keys := rfl
@[simp] theorem setFring_secIntegrity (s : State) (k : Nat) (x : FaultRing) : (s.setFring k x).secIntegrity = s.secIntegrity := rfl
@[simp] theorem setFring_secAuth (s : State) (k : Nat) (x : FaultRing) : (s.setFring k x).secAuth = s.secAuth := rfl
@[simp] theorem setFring_secLast (s : State) (k : Nat) (x : FaultRing) : (s.setFring k x).secLast = s.secLast := rfl
@[simp] theorem setFring_traffic (s : State) (k : Nat) (x : FaultRing) : (s.setFring k x).traffic = s.traffic := rfl
@[simp] theorem setFring_snpTxn (s : State) (k : Nat) (x : FaultRing) : (s.setFring k x).snpTxn = s.snpTxn := rfl
@[simp] theorem setFring_useStamp (s : State) (k : Nat) (x : FaultRing) : (s.setFring k x).useStamp = s.useStamp := rfl
@[simp] theorem setFring_mem (s : State) (k : Nat) (x : FaultRing) : (s.setFring k x).mem = s.mem := rfl
@[simp] theorem setFring_pot (s : State) (k : Nat) (x : FaultRing) : (s.setFring k x).pot = s.pot := rfl
@[simp] theorem setFring_pool (s : State) (k : Nat) (x : FaultRing) : (s.setFring k x).pool = s.pool := rfl
@[simp] theorem setFring_moved (s : State) (k : Nat) (x : FaultRing) : (s.setFring k x).moved = s.moved := rfl
@[simp] theorem setFring_granA (s : State) (k : Nat) (x : FaultRing) : (s.setFring k x).granA = s.granA := rfl
@[simp] theorem setFring_granB (s : State) (k : Nat) (x : FaultRing) : (s.setFring k x).granB = s.granB := rfl
@[simp] theorem setFring_granC (s : State) (k : Nat) (x : FaultRing) : (s.setFring k x).granC = s.granC := rfl
@[simp] theorem setFring_offline (s : State) (k : Nat) (x : FaultRing) : (s.setFring k x).offline = s.offline := rfl
@[simp] theorem setFring_offOverflow (s : State) (k : Nat) (x : FaultRing) : (s.setFring k x).offOverflow = s.offOverflow := rfl
@[simp] theorem setFring_opSeconds (s : State) (k : Nat) (x : FaultRing) : (s.setFring k x).opSeconds = s.opSeconds := rfl
@[simp] theorem setFring_ctxs (s : State) (k : Nat) (x : FaultRing) : (s.setFring k x).ctxs = s.ctxs := rfl
@[simp] theorem setFring_allocs (s : State) (k : Nat) (x : FaultRing) : (s.setFring k x).allocs = s.allocs := rfl
@[simp] theorem setFring_shoots (s : State) (k : Nat) (x : FaultRing) : (s.setFring k x).shoots = s.shoots := rfl
@[simp] theorem setFring_changes (s : State) (k : Nat) (x : FaultRing) : (s.setFring k x).changes = s.changes := rfl
@[simp] theorem setFring_halted (s : State) (k : Nat) (x : FaultRing) : (s.setFring k x).halted = s.halted := rfl
@[simp] theorem setFring_drops (s : State) (k : Nat) (x : FaultRing) : (s.setFring k x).drops = s.drops := rfl
@[simp] theorem setFring_queues (s : State) (k : Nat) (x : FaultRing) : (s.setFring k x).queues = s.queues := rfl
@[simp] theorem setFring_fences (s : State) (k : Nat) (x : FaultRing) : (s.setFring k x).fences = s.fences := rfl
@[simp] theorem setFring_fenceBlocks (s : State) (k : Nat) (x : FaultRing) : (s.setFring k x).fenceBlocks = s.fenceBlocks := rfl
@[simp] theorem setFring_launches (s : State) (k : Nat) (x : FaultRing) : (s.setFring k x).launches = s.launches := rfl
@[simp] theorem setFring_resv (s : State) (k : Nat) (x : FaultRing) : (s.setFring k x).resv = s.resv := rfl
@[simp] theorem setFring_served (s : State) (k : Nat) (x : FaultRing) : (s.setFring k x).served = s.served := rfl
@[simp] theorem setFring_insts (s : State) (k : Nat) (x : FaultRing) : (s.setFring k x).insts = s.insts := rfl
@[simp] theorem setFring_evt (s : State) (k : Nat) (x : FaultRing) : (s.setFring k x).evt = s.evt := rfl
@[simp] theorem setFring_cmd (s : State) (k : Nat) (x : FaultRing) : (s.setFring k x).cmd = s.cmd := rfl
@[simp] theorem setFring_accepted (s : State) (k : Nat) (x : FaultRing) : (s.setFring k x).accepted = s.accepted := rfl
@[simp] theorem setFring_mbx (s : State) (k : Nat) (x : FaultRing) : (s.setFring k x).mbx = s.mbx := rfl
@[simp] theorem setFring_txns (s : State) (k : Nat) (x : FaultRing) : (s.setFring k x).txns = s.txns := rfl
@[simp] theorem setFring_nextTxn (s : State) (k : Nat) (x : FaultRing) : (s.setFring k x).nextTxn = s.nextTxn := rfl
@[simp] theorem setFring_cfgGen (s : State) (k : Nat) (x : FaultRing) : (s.setFring k x).cfgGen = s.cfgGen := rfl
@[simp] theorem setFring_gens (s : State) (k : Nat) (x : FaultRing) : (s.setFring k x).gens = s.gens := rfl
@[simp] theorem setFring_lastCommit (s : State) (k : Nat) (x : FaultRing) : (s.setFring k x).lastCommit = s.lastCommit := rfl
@[simp] theorem setFring_flashJournal (s : State) (k : Nat) (x : FaultRing) : (s.setFring k x).flashJournal = s.flashJournal := rfl
@[simp] theorem setFring_journal (s : State) (k : Nat) (x : FaultRing) : (s.setFring k x).journal = s.journal := rfl
@[simp] theorem setFring_txnConflicts (s : State) (k : Nat) (x : FaultRing) : (s.setFring k x).txnConflicts = s.txnConflicts := rfl
@[simp] theorem setFring_txnAborts (s : State) (k : Nat) (x : FaultRing) : (s.setFring k x).txnAborts = s.txnAborts := rfl
@[simp] theorem setFring_out (s : State) (k : Nat) (x : FaultRing) : (s.setFring k x).out = s.out := rfl
@[simp] theorem setFring_free (s : State) (k : Nat) (x : FaultRing) : (s.setFring k x).free = s.free := rfl
@[simp] theorem setFring_pending (s : State) (k : Nat) (x : FaultRing) : (s.setFring k x).pending = s.pending := rfl

@[simp] theorem setCtl_regs (s : State) (k : Nat) (x : Ctl) : (s.setCtl k x).regs = s.regs := rfl
@[simp] theorem setCtl_fuse (s : State) (k : Nat) (x : Ctl) : (s.setCtl k x).fuse = s.fuse := rfl
@[simp] theorem setCtl_flash (s : State) (k : Nat) (x : Ctl) : (s.setCtl k x).flash = s.flash := rfl
@[simp] theorem setCtl_sec (s : State) (k : Nat) (x : Ctl) : (s.setCtl k x).sec = s.sec := rfl
@[simp] theorem setCtl_clocks (s : State) (k : Nat) (x : Ctl) : (s.setCtl k x).clocks = s.clocks := rfl
@[simp] theorem setCtl_rst (s : State) (k : Nat) (x : Ctl) : (s.setCtl k x).rst = s.rst := rfl
@[simp] theorem setCtl_co (s : State) (k : Nat) (x : Ctl) : (s.setCtl k x).co = s.co := rfl
@[simp] theorem setCtl_power (s : State) (k : Nat) (x : Ctl) : (s.setCtl k x).power = s.power := rfl
@[simp] theorem setCtl_parts (s : State) (k : Nat) (x : Ctl) : (s.setCtl k x).parts = s.parts := rfl
@[simp] theorem setCtl_sites (s : State) (k : Nat) (x : Ctl) : (s.setCtl k x).sites = s.sites := rfl
@[simp] theorem setCtl_siteRecs (s : State) (k : Nat) (x : Ctl) : (s.setCtl k x).siteRecs = s.siteRecs := rfl
@[simp] theorem setCtl_slPorts (s : State) (k : Nat) (x : Ctl) : (s.setCtl k x).slPorts = s.slPorts := rfl
@[simp] theorem setCtl_slConf (s : State) (k : Nat) (x : Ctl) : (s.setCtl k x).slConf = s.slConf := rfl
@[simp] theorem setCtl_winOut (s : State) (k : Nat) (x : Ctl) : (s.setCtl k x).winOut = s.winOut := rfl
@[simp] theorem setCtl_winIn (s : State) (k : Nat) (x : Ctl) : (s.setCtl k x).winIn = s.winIn := rfl
@[simp] theorem setCtl_port (s : State) (k : Nat) (x : Ctl) : (s.setCtl k x).port = s.port := rfl
@[simp] theorem setCtl_cores (s : State) (k : Nat) (x : Ctl) : (s.setCtl k x).cores = s.cores := rfl
@[simp] theorem setCtl_fuseSeg (s : State) (k : Nat) (x : Ctl) : (s.setCtl k x).fuseSeg = s.fuseSeg := rfl
@[simp] theorem setCtl_rep (s : State) (k : Nat) (x : Ctl) : (s.setCtl k x).rep = s.rep := rfl
@[simp] theorem setCtl_clusters (s : State) (k : Nat) (x : Ctl) : (s.setCtl k x).clusters = s.clusters := rfl
@[simp] theorem setCtl_lines (s : State) (k : Nat) (x : Ctl) : (s.setCtl k x).lines = s.lines := rfl
@[simp] theorem setCtl_net (s : State) (k : Nat) (x : Ctl) : (s.setCtl k x).net = s.net := rfl
@[simp] theorem setCtl_ans (s : State) (k : Nat) (x : Ctl) : (s.setCtl k x).ans = s.ans := rfl
@[simp] theorem setCtl_asked (s : State) (k : Nat) (x : Ctl) : (s.setCtl k x).asked = s.asked := rfl
@[simp] theorem setCtl_reqTxn (s : State) (k : Nat) (x : Ctl) : (s.setCtl k x).reqTxn = s.reqTxn := rfl
@[simp] theorem setCtl_posted (s : State) (k : Nat) (x : Ctl) : (s.setCtl k x).posted = s.posted := rfl
@[simp] theorem setCtl_msc (s : State) (k : Nat) (x : Ctl) : (s.setCtl k x).msc = s.msc := rfl
@[simp] theorem setCtl_sealed (s : State) (k : Nat) (x : Ctl) : (s.setCtl k x).sealed = s.sealed := rfl
@[simp] theorem setCtl_resetDue (s : State) (k : Nat) (x : Ctl) : (s.setCtl k x).resetDue = s.resetDue := rfl
@[simp] theorem setCtl_offMore (s : State) (k : Nat) (x : Ctl) : (s.setCtl k x).offMore = s.offMore := rfl
@[simp] theorem setCtl_heldSnp (s : State) (k : Nat) (x : Ctl) : (s.setCtl k x).heldSnp = s.heldSnp := rfl
@[simp] theorem setCtl_media (s : State) (k : Nat) (x : Ctl) : (s.setCtl k x).media = s.media := rfl
@[simp] theorem setCtl_corr (s : State) (k : Nat) (x : Ctl) : (s.setCtl k x).corr = s.corr := rfl
@[simp] theorem setCtl_heat (s : State) (k : Nat) (x : Ctl) : (s.setCtl k x).heat = s.heat := rfl
@[simp] theorem setCtl_heatVal (s : State) (k : Nat) (x : Ctl) : (s.setCtl k x).heatVal = s.heatVal := rfl
@[simp] theorem setCtl_miss (s : State) (k : Nat) (x : Ctl) : (s.setCtl k x).miss = s.miss := rfl
@[simp] theorem setCtl_moves (s : State) (k : Nat) (x : Ctl) : (s.setCtl k x).moves = s.moves := rfl
@[simp] theorem setCtl_autos (s : State) (k : Nat) (x : Ctl) : (s.setCtl k x).autos = s.autos := rfl
@[simp] theorem setCtl_keys (s : State) (k : Nat) (x : Ctl) : (s.setCtl k x).keys = s.keys := rfl
@[simp] theorem setCtl_secIntegrity (s : State) (k : Nat) (x : Ctl) : (s.setCtl k x).secIntegrity = s.secIntegrity := rfl
@[simp] theorem setCtl_secAuth (s : State) (k : Nat) (x : Ctl) : (s.setCtl k x).secAuth = s.secAuth := rfl
@[simp] theorem setCtl_secLast (s : State) (k : Nat) (x : Ctl) : (s.setCtl k x).secLast = s.secLast := rfl
@[simp] theorem setCtl_traffic (s : State) (k : Nat) (x : Ctl) : (s.setCtl k x).traffic = s.traffic := rfl
@[simp] theorem setCtl_snpTxn (s : State) (k : Nat) (x : Ctl) : (s.setCtl k x).snpTxn = s.snpTxn := rfl
@[simp] theorem setCtl_useStamp (s : State) (k : Nat) (x : Ctl) : (s.setCtl k x).useStamp = s.useStamp := rfl
@[simp] theorem setCtl_mem (s : State) (k : Nat) (x : Ctl) : (s.setCtl k x).mem = s.mem := rfl
@[simp] theorem setCtl_pot (s : State) (k : Nat) (x : Ctl) : (s.setCtl k x).pot = s.pot := rfl
@[simp] theorem setCtl_pool (s : State) (k : Nat) (x : Ctl) : (s.setCtl k x).pool = s.pool := rfl
@[simp] theorem setCtl_moved (s : State) (k : Nat) (x : Ctl) : (s.setCtl k x).moved = s.moved := rfl
@[simp] theorem setCtl_granA (s : State) (k : Nat) (x : Ctl) : (s.setCtl k x).granA = s.granA := rfl
@[simp] theorem setCtl_granB (s : State) (k : Nat) (x : Ctl) : (s.setCtl k x).granB = s.granB := rfl
@[simp] theorem setCtl_granC (s : State) (k : Nat) (x : Ctl) : (s.setCtl k x).granC = s.granC := rfl
@[simp] theorem setCtl_offline (s : State) (k : Nat) (x : Ctl) : (s.setCtl k x).offline = s.offline := rfl
@[simp] theorem setCtl_offOverflow (s : State) (k : Nat) (x : Ctl) : (s.setCtl k x).offOverflow = s.offOverflow := rfl
@[simp] theorem setCtl_opSeconds (s : State) (k : Nat) (x : Ctl) : (s.setCtl k x).opSeconds = s.opSeconds := rfl
@[simp] theorem setCtl_ctxs (s : State) (k : Nat) (x : Ctl) : (s.setCtl k x).ctxs = s.ctxs := rfl
@[simp] theorem setCtl_allocs (s : State) (k : Nat) (x : Ctl) : (s.setCtl k x).allocs = s.allocs := rfl
@[simp] theorem setCtl_shoots (s : State) (k : Nat) (x : Ctl) : (s.setCtl k x).shoots = s.shoots := rfl
@[simp] theorem setCtl_changes (s : State) (k : Nat) (x : Ctl) : (s.setCtl k x).changes = s.changes := rfl
@[simp] theorem setCtl_halted (s : State) (k : Nat) (x : Ctl) : (s.setCtl k x).halted = s.halted := rfl
@[simp] theorem setCtl_drops (s : State) (k : Nat) (x : Ctl) : (s.setCtl k x).drops = s.drops := rfl
@[simp] theorem setCtl_queues (s : State) (k : Nat) (x : Ctl) : (s.setCtl k x).queues = s.queues := rfl
@[simp] theorem setCtl_fences (s : State) (k : Nat) (x : Ctl) : (s.setCtl k x).fences = s.fences := rfl
@[simp] theorem setCtl_fenceBlocks (s : State) (k : Nat) (x : Ctl) : (s.setCtl k x).fenceBlocks = s.fenceBlocks := rfl
@[simp] theorem setCtl_launches (s : State) (k : Nat) (x : Ctl) : (s.setCtl k x).launches = s.launches := rfl
@[simp] theorem setCtl_resv (s : State) (k : Nat) (x : Ctl) : (s.setCtl k x).resv = s.resv := rfl
@[simp] theorem setCtl_served (s : State) (k : Nat) (x : Ctl) : (s.setCtl k x).served = s.served := rfl
@[simp] theorem setCtl_insts (s : State) (k : Nat) (x : Ctl) : (s.setCtl k x).insts = s.insts := rfl
@[simp] theorem setCtl_evt (s : State) (k : Nat) (x : Ctl) : (s.setCtl k x).evt = s.evt := rfl
@[simp] theorem setCtl_frings (s : State) (k : Nat) (x : Ctl) : (s.setCtl k x).frings = s.frings := rfl
@[simp] theorem setCtl_cmd (s : State) (k : Nat) (x : Ctl) : (s.setCtl k x).cmd = s.cmd := rfl
@[simp] theorem setCtl_accepted (s : State) (k : Nat) (x : Ctl) : (s.setCtl k x).accepted = s.accepted := rfl
@[simp] theorem setCtl_mbx (s : State) (k : Nat) (x : Ctl) : (s.setCtl k x).mbx = s.mbx := rfl
@[simp] theorem setCtl_txns (s : State) (k : Nat) (x : Ctl) : (s.setCtl k x).txns = s.txns := rfl
@[simp] theorem setCtl_nextTxn (s : State) (k : Nat) (x : Ctl) : (s.setCtl k x).nextTxn = s.nextTxn := rfl
@[simp] theorem setCtl_cfgGen (s : State) (k : Nat) (x : Ctl) : (s.setCtl k x).cfgGen = s.cfgGen := rfl
@[simp] theorem setCtl_gens (s : State) (k : Nat) (x : Ctl) : (s.setCtl k x).gens = s.gens := rfl
@[simp] theorem setCtl_lastCommit (s : State) (k : Nat) (x : Ctl) : (s.setCtl k x).lastCommit = s.lastCommit := rfl
@[simp] theorem setCtl_flashJournal (s : State) (k : Nat) (x : Ctl) : (s.setCtl k x).flashJournal = s.flashJournal := rfl
@[simp] theorem setCtl_journal (s : State) (k : Nat) (x : Ctl) : (s.setCtl k x).journal = s.journal := rfl
@[simp] theorem setCtl_txnConflicts (s : State) (k : Nat) (x : Ctl) : (s.setCtl k x).txnConflicts = s.txnConflicts := rfl
@[simp] theorem setCtl_txnAborts (s : State) (k : Nat) (x : Ctl) : (s.setCtl k x).txnAborts = s.txnAborts := rfl
@[simp] theorem setCtl_out (s : State) (k : Nat) (x : Ctl) : (s.setCtl k x).out = s.out := rfl
@[simp] theorem setCtl_free (s : State) (k : Nat) (x : Ctl) : (s.setCtl k x).free = s.free := rfl
@[simp] theorem setCtl_pending (s : State) (k : Nat) (x : Ctl) : (s.setCtl k x).pending = s.pending := rfl

@[simp] theorem setReg_fuse (s : State) (k : Nat) (x : Nat) : (s.setReg k x).fuse = s.fuse := rfl
@[simp] theorem setReg_flash (s : State) (k : Nat) (x : Nat) : (s.setReg k x).flash = s.flash := rfl
@[simp] theorem setReg_sec (s : State) (k : Nat) (x : Nat) : (s.setReg k x).sec = s.sec := rfl
@[simp] theorem setReg_clocks (s : State) (k : Nat) (x : Nat) : (s.setReg k x).clocks = s.clocks := rfl
@[simp] theorem setReg_rst (s : State) (k : Nat) (x : Nat) : (s.setReg k x).rst = s.rst := rfl
@[simp] theorem setReg_co (s : State) (k : Nat) (x : Nat) : (s.setReg k x).co = s.co := rfl
@[simp] theorem setReg_power (s : State) (k : Nat) (x : Nat) : (s.setReg k x).power = s.power := rfl
@[simp] theorem setReg_parts (s : State) (k : Nat) (x : Nat) : (s.setReg k x).parts = s.parts := rfl
@[simp] theorem setReg_sites (s : State) (k : Nat) (x : Nat) : (s.setReg k x).sites = s.sites := rfl
@[simp] theorem setReg_siteRecs (s : State) (k : Nat) (x : Nat) : (s.setReg k x).siteRecs = s.siteRecs := rfl
@[simp] theorem setReg_slPorts (s : State) (k : Nat) (x : Nat) : (s.setReg k x).slPorts = s.slPorts := rfl
@[simp] theorem setReg_slConf (s : State) (k : Nat) (x : Nat) : (s.setReg k x).slConf = s.slConf := rfl
@[simp] theorem setReg_winOut (s : State) (k : Nat) (x : Nat) : (s.setReg k x).winOut = s.winOut := rfl
@[simp] theorem setReg_winIn (s : State) (k : Nat) (x : Nat) : (s.setReg k x).winIn = s.winIn := rfl
@[simp] theorem setReg_port (s : State) (k : Nat) (x : Nat) : (s.setReg k x).port = s.port := rfl
@[simp] theorem setReg_cores (s : State) (k : Nat) (x : Nat) : (s.setReg k x).cores = s.cores := rfl
@[simp] theorem setReg_fuseSeg (s : State) (k : Nat) (x : Nat) : (s.setReg k x).fuseSeg = s.fuseSeg := rfl
@[simp] theorem setReg_rep (s : State) (k : Nat) (x : Nat) : (s.setReg k x).rep = s.rep := rfl
@[simp] theorem setReg_clusters (s : State) (k : Nat) (x : Nat) : (s.setReg k x).clusters = s.clusters := rfl
@[simp] theorem setReg_lines (s : State) (k : Nat) (x : Nat) : (s.setReg k x).lines = s.lines := rfl
@[simp] theorem setReg_net (s : State) (k : Nat) (x : Nat) : (s.setReg k x).net = s.net := rfl
@[simp] theorem setReg_ans (s : State) (k : Nat) (x : Nat) : (s.setReg k x).ans = s.ans := rfl
@[simp] theorem setReg_asked (s : State) (k : Nat) (x : Nat) : (s.setReg k x).asked = s.asked := rfl
@[simp] theorem setReg_reqTxn (s : State) (k : Nat) (x : Nat) : (s.setReg k x).reqTxn = s.reqTxn := rfl
@[simp] theorem setReg_posted (s : State) (k : Nat) (x : Nat) : (s.setReg k x).posted = s.posted := rfl
@[simp] theorem setReg_msc (s : State) (k : Nat) (x : Nat) : (s.setReg k x).msc = s.msc := rfl
@[simp] theorem setReg_sealed (s : State) (k : Nat) (x : Nat) : (s.setReg k x).sealed = s.sealed := rfl
@[simp] theorem setReg_resetDue (s : State) (k : Nat) (x : Nat) : (s.setReg k x).resetDue = s.resetDue := rfl
@[simp] theorem setReg_offMore (s : State) (k : Nat) (x : Nat) : (s.setReg k x).offMore = s.offMore := rfl
@[simp] theorem setReg_heldSnp (s : State) (k : Nat) (x : Nat) : (s.setReg k x).heldSnp = s.heldSnp := rfl
@[simp] theorem setReg_media (s : State) (k : Nat) (x : Nat) : (s.setReg k x).media = s.media := rfl
@[simp] theorem setReg_corr (s : State) (k : Nat) (x : Nat) : (s.setReg k x).corr = s.corr := rfl
@[simp] theorem setReg_heat (s : State) (k : Nat) (x : Nat) : (s.setReg k x).heat = s.heat := rfl
@[simp] theorem setReg_heatVal (s : State) (k : Nat) (x : Nat) : (s.setReg k x).heatVal = s.heatVal := rfl
@[simp] theorem setReg_ctls (s : State) (k : Nat) (x : Nat) : (s.setReg k x).ctls = s.ctls := rfl
@[simp] theorem setReg_miss (s : State) (k : Nat) (x : Nat) : (s.setReg k x).miss = s.miss := rfl
@[simp] theorem setReg_moves (s : State) (k : Nat) (x : Nat) : (s.setReg k x).moves = s.moves := rfl
@[simp] theorem setReg_autos (s : State) (k : Nat) (x : Nat) : (s.setReg k x).autos = s.autos := rfl
@[simp] theorem setReg_keys (s : State) (k : Nat) (x : Nat) : (s.setReg k x).keys = s.keys := rfl
@[simp] theorem setReg_secIntegrity (s : State) (k : Nat) (x : Nat) : (s.setReg k x).secIntegrity = s.secIntegrity := rfl
@[simp] theorem setReg_secAuth (s : State) (k : Nat) (x : Nat) : (s.setReg k x).secAuth = s.secAuth := rfl
@[simp] theorem setReg_secLast (s : State) (k : Nat) (x : Nat) : (s.setReg k x).secLast = s.secLast := rfl
@[simp] theorem setReg_traffic (s : State) (k : Nat) (x : Nat) : (s.setReg k x).traffic = s.traffic := rfl
@[simp] theorem setReg_snpTxn (s : State) (k : Nat) (x : Nat) : (s.setReg k x).snpTxn = s.snpTxn := rfl
@[simp] theorem setReg_useStamp (s : State) (k : Nat) (x : Nat) : (s.setReg k x).useStamp = s.useStamp := rfl
@[simp] theorem setReg_mem (s : State) (k : Nat) (x : Nat) : (s.setReg k x).mem = s.mem := rfl
@[simp] theorem setReg_pot (s : State) (k : Nat) (x : Nat) : (s.setReg k x).pot = s.pot := rfl
@[simp] theorem setReg_pool (s : State) (k : Nat) (x : Nat) : (s.setReg k x).pool = s.pool := rfl
@[simp] theorem setReg_moved (s : State) (k : Nat) (x : Nat) : (s.setReg k x).moved = s.moved := rfl
@[simp] theorem setReg_granA (s : State) (k : Nat) (x : Nat) : (s.setReg k x).granA = s.granA := rfl
@[simp] theorem setReg_granB (s : State) (k : Nat) (x : Nat) : (s.setReg k x).granB = s.granB := rfl
@[simp] theorem setReg_granC (s : State) (k : Nat) (x : Nat) : (s.setReg k x).granC = s.granC := rfl
@[simp] theorem setReg_offline (s : State) (k : Nat) (x : Nat) : (s.setReg k x).offline = s.offline := rfl
@[simp] theorem setReg_offOverflow (s : State) (k : Nat) (x : Nat) : (s.setReg k x).offOverflow = s.offOverflow := rfl
@[simp] theorem setReg_opSeconds (s : State) (k : Nat) (x : Nat) : (s.setReg k x).opSeconds = s.opSeconds := rfl
@[simp] theorem setReg_ctxs (s : State) (k : Nat) (x : Nat) : (s.setReg k x).ctxs = s.ctxs := rfl
@[simp] theorem setReg_allocs (s : State) (k : Nat) (x : Nat) : (s.setReg k x).allocs = s.allocs := rfl
@[simp] theorem setReg_shoots (s : State) (k : Nat) (x : Nat) : (s.setReg k x).shoots = s.shoots := rfl
@[simp] theorem setReg_changes (s : State) (k : Nat) (x : Nat) : (s.setReg k x).changes = s.changes := rfl
@[simp] theorem setReg_halted (s : State) (k : Nat) (x : Nat) : (s.setReg k x).halted = s.halted := rfl
@[simp] theorem setReg_drops (s : State) (k : Nat) (x : Nat) : (s.setReg k x).drops = s.drops := rfl
@[simp] theorem setReg_queues (s : State) (k : Nat) (x : Nat) : (s.setReg k x).queues = s.queues := rfl
@[simp] theorem setReg_fences (s : State) (k : Nat) (x : Nat) : (s.setReg k x).fences = s.fences := rfl
@[simp] theorem setReg_fenceBlocks (s : State) (k : Nat) (x : Nat) : (s.setReg k x).fenceBlocks = s.fenceBlocks := rfl
@[simp] theorem setReg_launches (s : State) (k : Nat) (x : Nat) : (s.setReg k x).launches = s.launches := rfl
@[simp] theorem setReg_resv (s : State) (k : Nat) (x : Nat) : (s.setReg k x).resv = s.resv := rfl
@[simp] theorem setReg_served (s : State) (k : Nat) (x : Nat) : (s.setReg k x).served = s.served := rfl
@[simp] theorem setReg_insts (s : State) (k : Nat) (x : Nat) : (s.setReg k x).insts = s.insts := rfl
@[simp] theorem setReg_evt (s : State) (k : Nat) (x : Nat) : (s.setReg k x).evt = s.evt := rfl
@[simp] theorem setReg_frings (s : State) (k : Nat) (x : Nat) : (s.setReg k x).frings = s.frings := rfl
@[simp] theorem setReg_cmd (s : State) (k : Nat) (x : Nat) : (s.setReg k x).cmd = s.cmd := rfl
@[simp] theorem setReg_accepted (s : State) (k : Nat) (x : Nat) : (s.setReg k x).accepted = s.accepted := rfl
@[simp] theorem setReg_mbx (s : State) (k : Nat) (x : Nat) : (s.setReg k x).mbx = s.mbx := rfl
@[simp] theorem setReg_txns (s : State) (k : Nat) (x : Nat) : (s.setReg k x).txns = s.txns := rfl
@[simp] theorem setReg_nextTxn (s : State) (k : Nat) (x : Nat) : (s.setReg k x).nextTxn = s.nextTxn := rfl
@[simp] theorem setReg_cfgGen (s : State) (k : Nat) (x : Nat) : (s.setReg k x).cfgGen = s.cfgGen := rfl
@[simp] theorem setReg_gens (s : State) (k : Nat) (x : Nat) : (s.setReg k x).gens = s.gens := rfl
@[simp] theorem setReg_lastCommit (s : State) (k : Nat) (x : Nat) : (s.setReg k x).lastCommit = s.lastCommit := rfl
@[simp] theorem setReg_flashJournal (s : State) (k : Nat) (x : Nat) : (s.setReg k x).flashJournal = s.flashJournal := rfl
@[simp] theorem setReg_journal (s : State) (k : Nat) (x : Nat) : (s.setReg k x).journal = s.journal := rfl
@[simp] theorem setReg_txnConflicts (s : State) (k : Nat) (x : Nat) : (s.setReg k x).txnConflicts = s.txnConflicts := rfl
@[simp] theorem setReg_txnAborts (s : State) (k : Nat) (x : Nat) : (s.setReg k x).txnAborts = s.txnAborts := rfl
@[simp] theorem setReg_out (s : State) (k : Nat) (x : Nat) : (s.setReg k x).out = s.out := rfl
@[simp] theorem setReg_free (s : State) (k : Nat) (x : Nat) : (s.setReg k x).free = s.free := rfl
@[simp] theorem setReg_pending (s : State) (k : Nat) (x : Nat) : (s.setReg k x).pending = s.pending := rfl

@[simp] theorem setSlPort_regs (s : State) (k : Nat) (x : SlPort) : (s.setSlPort k x).regs = s.regs := rfl
@[simp] theorem setSlPort_fuse (s : State) (k : Nat) (x : SlPort) : (s.setSlPort k x).fuse = s.fuse := rfl
@[simp] theorem setSlPort_flash (s : State) (k : Nat) (x : SlPort) : (s.setSlPort k x).flash = s.flash := rfl
@[simp] theorem setSlPort_sec (s : State) (k : Nat) (x : SlPort) : (s.setSlPort k x).sec = s.sec := rfl
@[simp] theorem setSlPort_clocks (s : State) (k : Nat) (x : SlPort) : (s.setSlPort k x).clocks = s.clocks := rfl
@[simp] theorem setSlPort_rst (s : State) (k : Nat) (x : SlPort) : (s.setSlPort k x).rst = s.rst := rfl
@[simp] theorem setSlPort_co (s : State) (k : Nat) (x : SlPort) : (s.setSlPort k x).co = s.co := rfl
@[simp] theorem setSlPort_power (s : State) (k : Nat) (x : SlPort) : (s.setSlPort k x).power = s.power := rfl
@[simp] theorem setSlPort_parts (s : State) (k : Nat) (x : SlPort) : (s.setSlPort k x).parts = s.parts := rfl
@[simp] theorem setSlPort_sites (s : State) (k : Nat) (x : SlPort) : (s.setSlPort k x).sites = s.sites := rfl
@[simp] theorem setSlPort_siteRecs (s : State) (k : Nat) (x : SlPort) : (s.setSlPort k x).siteRecs = s.siteRecs := rfl
@[simp] theorem setSlPort_slConf (s : State) (k : Nat) (x : SlPort) : (s.setSlPort k x).slConf = s.slConf := rfl
@[simp] theorem setSlPort_winOut (s : State) (k : Nat) (x : SlPort) : (s.setSlPort k x).winOut = s.winOut := rfl
@[simp] theorem setSlPort_winIn (s : State) (k : Nat) (x : SlPort) : (s.setSlPort k x).winIn = s.winIn := rfl
@[simp] theorem setSlPort_port (s : State) (k : Nat) (x : SlPort) : (s.setSlPort k x).port = s.port := rfl
@[simp] theorem setSlPort_cores (s : State) (k : Nat) (x : SlPort) : (s.setSlPort k x).cores = s.cores := rfl
@[simp] theorem setSlPort_fuseSeg (s : State) (k : Nat) (x : SlPort) : (s.setSlPort k x).fuseSeg = s.fuseSeg := rfl
@[simp] theorem setSlPort_rep (s : State) (k : Nat) (x : SlPort) : (s.setSlPort k x).rep = s.rep := rfl
@[simp] theorem setSlPort_clusters (s : State) (k : Nat) (x : SlPort) : (s.setSlPort k x).clusters = s.clusters := rfl
@[simp] theorem setSlPort_lines (s : State) (k : Nat) (x : SlPort) : (s.setSlPort k x).lines = s.lines := rfl
@[simp] theorem setSlPort_net (s : State) (k : Nat) (x : SlPort) : (s.setSlPort k x).net = s.net := rfl
@[simp] theorem setSlPort_ans (s : State) (k : Nat) (x : SlPort) : (s.setSlPort k x).ans = s.ans := rfl
@[simp] theorem setSlPort_asked (s : State) (k : Nat) (x : SlPort) : (s.setSlPort k x).asked = s.asked := rfl
@[simp] theorem setSlPort_reqTxn (s : State) (k : Nat) (x : SlPort) : (s.setSlPort k x).reqTxn = s.reqTxn := rfl
@[simp] theorem setSlPort_posted (s : State) (k : Nat) (x : SlPort) : (s.setSlPort k x).posted = s.posted := rfl
@[simp] theorem setSlPort_msc (s : State) (k : Nat) (x : SlPort) : (s.setSlPort k x).msc = s.msc := rfl
@[simp] theorem setSlPort_sealed (s : State) (k : Nat) (x : SlPort) : (s.setSlPort k x).sealed = s.sealed := rfl
@[simp] theorem setSlPort_resetDue (s : State) (k : Nat) (x : SlPort) : (s.setSlPort k x).resetDue = s.resetDue := rfl
@[simp] theorem setSlPort_offMore (s : State) (k : Nat) (x : SlPort) : (s.setSlPort k x).offMore = s.offMore := rfl
@[simp] theorem setSlPort_heldSnp (s : State) (k : Nat) (x : SlPort) : (s.setSlPort k x).heldSnp = s.heldSnp := rfl
@[simp] theorem setSlPort_media (s : State) (k : Nat) (x : SlPort) : (s.setSlPort k x).media = s.media := rfl
@[simp] theorem setSlPort_corr (s : State) (k : Nat) (x : SlPort) : (s.setSlPort k x).corr = s.corr := rfl
@[simp] theorem setSlPort_heat (s : State) (k : Nat) (x : SlPort) : (s.setSlPort k x).heat = s.heat := rfl
@[simp] theorem setSlPort_heatVal (s : State) (k : Nat) (x : SlPort) : (s.setSlPort k x).heatVal = s.heatVal := rfl
@[simp] theorem setSlPort_ctls (s : State) (k : Nat) (x : SlPort) : (s.setSlPort k x).ctls = s.ctls := rfl
@[simp] theorem setSlPort_miss (s : State) (k : Nat) (x : SlPort) : (s.setSlPort k x).miss = s.miss := rfl
@[simp] theorem setSlPort_moves (s : State) (k : Nat) (x : SlPort) : (s.setSlPort k x).moves = s.moves := rfl
@[simp] theorem setSlPort_autos (s : State) (k : Nat) (x : SlPort) : (s.setSlPort k x).autos = s.autos := rfl
@[simp] theorem setSlPort_keys (s : State) (k : Nat) (x : SlPort) : (s.setSlPort k x).keys = s.keys := rfl
@[simp] theorem setSlPort_secIntegrity (s : State) (k : Nat) (x : SlPort) : (s.setSlPort k x).secIntegrity = s.secIntegrity := rfl
@[simp] theorem setSlPort_secAuth (s : State) (k : Nat) (x : SlPort) : (s.setSlPort k x).secAuth = s.secAuth := rfl
@[simp] theorem setSlPort_secLast (s : State) (k : Nat) (x : SlPort) : (s.setSlPort k x).secLast = s.secLast := rfl
@[simp] theorem setSlPort_traffic (s : State) (k : Nat) (x : SlPort) : (s.setSlPort k x).traffic = s.traffic := rfl
@[simp] theorem setSlPort_snpTxn (s : State) (k : Nat) (x : SlPort) : (s.setSlPort k x).snpTxn = s.snpTxn := rfl
@[simp] theorem setSlPort_useStamp (s : State) (k : Nat) (x : SlPort) : (s.setSlPort k x).useStamp = s.useStamp := rfl
@[simp] theorem setSlPort_mem (s : State) (k : Nat) (x : SlPort) : (s.setSlPort k x).mem = s.mem := rfl
@[simp] theorem setSlPort_pot (s : State) (k : Nat) (x : SlPort) : (s.setSlPort k x).pot = s.pot := rfl
@[simp] theorem setSlPort_pool (s : State) (k : Nat) (x : SlPort) : (s.setSlPort k x).pool = s.pool := rfl
@[simp] theorem setSlPort_moved (s : State) (k : Nat) (x : SlPort) : (s.setSlPort k x).moved = s.moved := rfl
@[simp] theorem setSlPort_granA (s : State) (k : Nat) (x : SlPort) : (s.setSlPort k x).granA = s.granA := rfl
@[simp] theorem setSlPort_granB (s : State) (k : Nat) (x : SlPort) : (s.setSlPort k x).granB = s.granB := rfl
@[simp] theorem setSlPort_granC (s : State) (k : Nat) (x : SlPort) : (s.setSlPort k x).granC = s.granC := rfl
@[simp] theorem setSlPort_offline (s : State) (k : Nat) (x : SlPort) : (s.setSlPort k x).offline = s.offline := rfl
@[simp] theorem setSlPort_offOverflow (s : State) (k : Nat) (x : SlPort) : (s.setSlPort k x).offOverflow = s.offOverflow := rfl
@[simp] theorem setSlPort_opSeconds (s : State) (k : Nat) (x : SlPort) : (s.setSlPort k x).opSeconds = s.opSeconds := rfl
@[simp] theorem setSlPort_ctxs (s : State) (k : Nat) (x : SlPort) : (s.setSlPort k x).ctxs = s.ctxs := rfl
@[simp] theorem setSlPort_allocs (s : State) (k : Nat) (x : SlPort) : (s.setSlPort k x).allocs = s.allocs := rfl
@[simp] theorem setSlPort_shoots (s : State) (k : Nat) (x : SlPort) : (s.setSlPort k x).shoots = s.shoots := rfl
@[simp] theorem setSlPort_changes (s : State) (k : Nat) (x : SlPort) : (s.setSlPort k x).changes = s.changes := rfl
@[simp] theorem setSlPort_halted (s : State) (k : Nat) (x : SlPort) : (s.setSlPort k x).halted = s.halted := rfl
@[simp] theorem setSlPort_drops (s : State) (k : Nat) (x : SlPort) : (s.setSlPort k x).drops = s.drops := rfl
@[simp] theorem setSlPort_queues (s : State) (k : Nat) (x : SlPort) : (s.setSlPort k x).queues = s.queues := rfl
@[simp] theorem setSlPort_fences (s : State) (k : Nat) (x : SlPort) : (s.setSlPort k x).fences = s.fences := rfl
@[simp] theorem setSlPort_fenceBlocks (s : State) (k : Nat) (x : SlPort) : (s.setSlPort k x).fenceBlocks = s.fenceBlocks := rfl
@[simp] theorem setSlPort_launches (s : State) (k : Nat) (x : SlPort) : (s.setSlPort k x).launches = s.launches := rfl
@[simp] theorem setSlPort_resv (s : State) (k : Nat) (x : SlPort) : (s.setSlPort k x).resv = s.resv := rfl
@[simp] theorem setSlPort_served (s : State) (k : Nat) (x : SlPort) : (s.setSlPort k x).served = s.served := rfl
@[simp] theorem setSlPort_insts (s : State) (k : Nat) (x : SlPort) : (s.setSlPort k x).insts = s.insts := rfl
@[simp] theorem setSlPort_evt (s : State) (k : Nat) (x : SlPort) : (s.setSlPort k x).evt = s.evt := rfl
@[simp] theorem setSlPort_frings (s : State) (k : Nat) (x : SlPort) : (s.setSlPort k x).frings = s.frings := rfl
@[simp] theorem setSlPort_cmd (s : State) (k : Nat) (x : SlPort) : (s.setSlPort k x).cmd = s.cmd := rfl
@[simp] theorem setSlPort_accepted (s : State) (k : Nat) (x : SlPort) : (s.setSlPort k x).accepted = s.accepted := rfl
@[simp] theorem setSlPort_mbx (s : State) (k : Nat) (x : SlPort) : (s.setSlPort k x).mbx = s.mbx := rfl
@[simp] theorem setSlPort_txns (s : State) (k : Nat) (x : SlPort) : (s.setSlPort k x).txns = s.txns := rfl
@[simp] theorem setSlPort_nextTxn (s : State) (k : Nat) (x : SlPort) : (s.setSlPort k x).nextTxn = s.nextTxn := rfl
@[simp] theorem setSlPort_cfgGen (s : State) (k : Nat) (x : SlPort) : (s.setSlPort k x).cfgGen = s.cfgGen := rfl
@[simp] theorem setSlPort_gens (s : State) (k : Nat) (x : SlPort) : (s.setSlPort k x).gens = s.gens := rfl
@[simp] theorem setSlPort_lastCommit (s : State) (k : Nat) (x : SlPort) : (s.setSlPort k x).lastCommit = s.lastCommit := rfl
@[simp] theorem setSlPort_flashJournal (s : State) (k : Nat) (x : SlPort) : (s.setSlPort k x).flashJournal = s.flashJournal := rfl
@[simp] theorem setSlPort_journal (s : State) (k : Nat) (x : SlPort) : (s.setSlPort k x).journal = s.journal := rfl
@[simp] theorem setSlPort_txnConflicts (s : State) (k : Nat) (x : SlPort) : (s.setSlPort k x).txnConflicts = s.txnConflicts := rfl
@[simp] theorem setSlPort_txnAborts (s : State) (k : Nat) (x : SlPort) : (s.setSlPort k x).txnAborts = s.txnAborts := rfl
@[simp] theorem setSlPort_out (s : State) (k : Nat) (x : SlPort) : (s.setSlPort k x).out = s.out := rfl
@[simp] theorem setSlPort_free (s : State) (k : Nat) (x : SlPort) : (s.setSlPort k x).free = s.free := rfl
@[simp] theorem setSlPort_pending (s : State) (k : Nat) (x : SlPort) : (s.setSlPort k x).pending = s.pending := rfl

@[simp] theorem emit_regs (x : Out) (s : State) : (emit x s).regs = s.regs := rfl
@[simp] theorem emit_fuse (x : Out) (s : State) : (emit x s).fuse = s.fuse := rfl
@[simp] theorem emit_flash (x : Out) (s : State) : (emit x s).flash = s.flash := rfl
@[simp] theorem emit_sec (x : Out) (s : State) : (emit x s).sec = s.sec := rfl
@[simp] theorem emit_clocks (x : Out) (s : State) : (emit x s).clocks = s.clocks := rfl
@[simp] theorem emit_rst (x : Out) (s : State) : (emit x s).rst = s.rst := rfl
@[simp] theorem emit_co (x : Out) (s : State) : (emit x s).co = s.co := rfl
@[simp] theorem emit_power (x : Out) (s : State) : (emit x s).power = s.power := rfl
@[simp] theorem emit_parts (x : Out) (s : State) : (emit x s).parts = s.parts := rfl
@[simp] theorem emit_sites (x : Out) (s : State) : (emit x s).sites = s.sites := rfl
@[simp] theorem emit_siteRecs (x : Out) (s : State) : (emit x s).siteRecs = s.siteRecs := rfl
@[simp] theorem emit_slPorts (x : Out) (s : State) : (emit x s).slPorts = s.slPorts := rfl
@[simp] theorem emit_slConf (x : Out) (s : State) : (emit x s).slConf = s.slConf := rfl
@[simp] theorem emit_winOut (x : Out) (s : State) : (emit x s).winOut = s.winOut := rfl
@[simp] theorem emit_winIn (x : Out) (s : State) : (emit x s).winIn = s.winIn := rfl
@[simp] theorem emit_port (x : Out) (s : State) : (emit x s).port = s.port := rfl
@[simp] theorem emit_cores (x : Out) (s : State) : (emit x s).cores = s.cores := rfl
@[simp] theorem emit_fuseSeg (x : Out) (s : State) : (emit x s).fuseSeg = s.fuseSeg := rfl
@[simp] theorem emit_rep (x : Out) (s : State) : (emit x s).rep = s.rep := rfl
@[simp] theorem emit_clusters (x : Out) (s : State) : (emit x s).clusters = s.clusters := rfl
@[simp] theorem emit_lines (x : Out) (s : State) : (emit x s).lines = s.lines := rfl
@[simp] theorem emit_net (x : Out) (s : State) : (emit x s).net = s.net := rfl
@[simp] theorem emit_ans (x : Out) (s : State) : (emit x s).ans = s.ans := rfl
@[simp] theorem emit_asked (x : Out) (s : State) : (emit x s).asked = s.asked := rfl
@[simp] theorem emit_reqTxn (x : Out) (s : State) : (emit x s).reqTxn = s.reqTxn := rfl
@[simp] theorem emit_posted (x : Out) (s : State) : (emit x s).posted = s.posted := rfl
@[simp] theorem emit_msc (x : Out) (s : State) : (emit x s).msc = s.msc := rfl
@[simp] theorem emit_sealed (x : Out) (s : State) : (emit x s).sealed = s.sealed := rfl
@[simp] theorem emit_resetDue (x : Out) (s : State) : (emit x s).resetDue = s.resetDue := rfl
@[simp] theorem emit_offMore (x : Out) (s : State) : (emit x s).offMore = s.offMore := rfl
@[simp] theorem emit_heldSnp (x : Out) (s : State) : (emit x s).heldSnp = s.heldSnp := rfl
@[simp] theorem emit_media (x : Out) (s : State) : (emit x s).media = s.media := rfl
@[simp] theorem emit_corr (x : Out) (s : State) : (emit x s).corr = s.corr := rfl
@[simp] theorem emit_heat (x : Out) (s : State) : (emit x s).heat = s.heat := rfl
@[simp] theorem emit_heatVal (x : Out) (s : State) : (emit x s).heatVal = s.heatVal := rfl
@[simp] theorem emit_ctls (x : Out) (s : State) : (emit x s).ctls = s.ctls := rfl
@[simp] theorem emit_miss (x : Out) (s : State) : (emit x s).miss = s.miss := rfl
@[simp] theorem emit_moves (x : Out) (s : State) : (emit x s).moves = s.moves := rfl
@[simp] theorem emit_autos (x : Out) (s : State) : (emit x s).autos = s.autos := rfl
@[simp] theorem emit_keys (x : Out) (s : State) : (emit x s).keys = s.keys := rfl
@[simp] theorem emit_secIntegrity (x : Out) (s : State) : (emit x s).secIntegrity = s.secIntegrity := rfl
@[simp] theorem emit_secAuth (x : Out) (s : State) : (emit x s).secAuth = s.secAuth := rfl
@[simp] theorem emit_secLast (x : Out) (s : State) : (emit x s).secLast = s.secLast := rfl
@[simp] theorem emit_traffic (x : Out) (s : State) : (emit x s).traffic = s.traffic := rfl
@[simp] theorem emit_snpTxn (x : Out) (s : State) : (emit x s).snpTxn = s.snpTxn := rfl
@[simp] theorem emit_useStamp (x : Out) (s : State) : (emit x s).useStamp = s.useStamp := rfl
@[simp] theorem emit_mem (x : Out) (s : State) : (emit x s).mem = s.mem := rfl
@[simp] theorem emit_pot (x : Out) (s : State) : (emit x s).pot = s.pot := rfl
@[simp] theorem emit_pool (x : Out) (s : State) : (emit x s).pool = s.pool := rfl
@[simp] theorem emit_moved (x : Out) (s : State) : (emit x s).moved = s.moved := rfl
@[simp] theorem emit_granA (x : Out) (s : State) : (emit x s).granA = s.granA := rfl
@[simp] theorem emit_granB (x : Out) (s : State) : (emit x s).granB = s.granB := rfl
@[simp] theorem emit_granC (x : Out) (s : State) : (emit x s).granC = s.granC := rfl
@[simp] theorem emit_offline (x : Out) (s : State) : (emit x s).offline = s.offline := rfl
@[simp] theorem emit_offOverflow (x : Out) (s : State) : (emit x s).offOverflow = s.offOverflow := rfl
@[simp] theorem emit_opSeconds (x : Out) (s : State) : (emit x s).opSeconds = s.opSeconds := rfl
@[simp] theorem emit_ctxs (x : Out) (s : State) : (emit x s).ctxs = s.ctxs := rfl
@[simp] theorem emit_allocs (x : Out) (s : State) : (emit x s).allocs = s.allocs := rfl
@[simp] theorem emit_shoots (x : Out) (s : State) : (emit x s).shoots = s.shoots := rfl
@[simp] theorem emit_changes (x : Out) (s : State) : (emit x s).changes = s.changes := rfl
@[simp] theorem emit_halted (x : Out) (s : State) : (emit x s).halted = s.halted := rfl
@[simp] theorem emit_drops (x : Out) (s : State) : (emit x s).drops = s.drops := rfl
@[simp] theorem emit_queues (x : Out) (s : State) : (emit x s).queues = s.queues := rfl
@[simp] theorem emit_fences (x : Out) (s : State) : (emit x s).fences = s.fences := rfl
@[simp] theorem emit_fenceBlocks (x : Out) (s : State) : (emit x s).fenceBlocks = s.fenceBlocks := rfl
@[simp] theorem emit_launches (x : Out) (s : State) : (emit x s).launches = s.launches := rfl
@[simp] theorem emit_resv (x : Out) (s : State) : (emit x s).resv = s.resv := rfl
@[simp] theorem emit_served (x : Out) (s : State) : (emit x s).served = s.served := rfl
@[simp] theorem emit_insts (x : Out) (s : State) : (emit x s).insts = s.insts := rfl
@[simp] theorem emit_evt (x : Out) (s : State) : (emit x s).evt = s.evt := rfl
@[simp] theorem emit_frings (x : Out) (s : State) : (emit x s).frings = s.frings := rfl
@[simp] theorem emit_cmd (x : Out) (s : State) : (emit x s).cmd = s.cmd := rfl
@[simp] theorem emit_accepted (x : Out) (s : State) : (emit x s).accepted = s.accepted := rfl
@[simp] theorem emit_mbx (x : Out) (s : State) : (emit x s).mbx = s.mbx := rfl
@[simp] theorem emit_txns (x : Out) (s : State) : (emit x s).txns = s.txns := rfl
@[simp] theorem emit_nextTxn (x : Out) (s : State) : (emit x s).nextTxn = s.nextTxn := rfl
@[simp] theorem emit_cfgGen (x : Out) (s : State) : (emit x s).cfgGen = s.cfgGen := rfl
@[simp] theorem emit_gens (x : Out) (s : State) : (emit x s).gens = s.gens := rfl
@[simp] theorem emit_lastCommit (x : Out) (s : State) : (emit x s).lastCommit = s.lastCommit := rfl
@[simp] theorem emit_flashJournal (x : Out) (s : State) : (emit x s).flashJournal = s.flashJournal := rfl
@[simp] theorem emit_journal (x : Out) (s : State) : (emit x s).journal = s.journal := rfl
@[simp] theorem emit_txnConflicts (x : Out) (s : State) : (emit x s).txnConflicts = s.txnConflicts := rfl
@[simp] theorem emit_txnAborts (x : Out) (s : State) : (emit x s).txnAborts = s.txnAborts := rfl
@[simp] theorem emit_free (x : Out) (s : State) : (emit x s).free = s.free := rfl
@[simp] theorem emit_pending (x : Out) (s : State) : (emit x s).pending = s.pending := rfl

@[simp] theorem bump_regs (s : State) : s.bump.regs = s.regs := rfl
@[simp] theorem bump_fuse (s : State) : s.bump.fuse = s.fuse := rfl
@[simp] theorem bump_flash (s : State) : s.bump.flash = s.flash := rfl
@[simp] theorem bump_sec (s : State) : s.bump.sec = s.sec := rfl
@[simp] theorem bump_clocks (s : State) : s.bump.clocks = s.clocks := rfl
@[simp] theorem bump_rst (s : State) : s.bump.rst = s.rst := rfl
@[simp] theorem bump_co (s : State) : s.bump.co = s.co := rfl
@[simp] theorem bump_power (s : State) : s.bump.power = s.power := rfl
@[simp] theorem bump_parts (s : State) : s.bump.parts = s.parts := rfl
@[simp] theorem bump_sites (s : State) : s.bump.sites = s.sites := rfl
@[simp] theorem bump_siteRecs (s : State) : s.bump.siteRecs = s.siteRecs := rfl
@[simp] theorem bump_slPorts (s : State) : s.bump.slPorts = s.slPorts := rfl
@[simp] theorem bump_slConf (s : State) : s.bump.slConf = s.slConf := rfl
@[simp] theorem bump_winOut (s : State) : s.bump.winOut = s.winOut := rfl
@[simp] theorem bump_winIn (s : State) : s.bump.winIn = s.winIn := rfl
@[simp] theorem bump_port (s : State) : s.bump.port = s.port := rfl
@[simp] theorem bump_cores (s : State) : s.bump.cores = s.cores := rfl
@[simp] theorem bump_fuseSeg (s : State) : s.bump.fuseSeg = s.fuseSeg := rfl
@[simp] theorem bump_rep (s : State) : s.bump.rep = s.rep := rfl
@[simp] theorem bump_clusters (s : State) : s.bump.clusters = s.clusters := rfl
@[simp] theorem bump_lines (s : State) : s.bump.lines = s.lines := rfl
@[simp] theorem bump_net (s : State) : s.bump.net = s.net := rfl
@[simp] theorem bump_ans (s : State) : s.bump.ans = s.ans := rfl
@[simp] theorem bump_asked (s : State) : s.bump.asked = s.asked := rfl
@[simp] theorem bump_reqTxn (s : State) : s.bump.reqTxn = s.reqTxn := rfl
@[simp] theorem bump_posted (s : State) : s.bump.posted = s.posted := rfl
@[simp] theorem bump_msc (s : State) : s.bump.msc = s.msc := rfl
@[simp] theorem bump_sealed (s : State) : s.bump.sealed = s.sealed := rfl
@[simp] theorem bump_resetDue (s : State) : s.bump.resetDue = s.resetDue := rfl
@[simp] theorem bump_offMore (s : State) : s.bump.offMore = s.offMore := rfl
@[simp] theorem bump_heldSnp (s : State) : s.bump.heldSnp = s.heldSnp := rfl
@[simp] theorem bump_media (s : State) : s.bump.media = s.media := rfl
@[simp] theorem bump_corr (s : State) : s.bump.corr = s.corr := rfl
@[simp] theorem bump_heat (s : State) : s.bump.heat = s.heat := rfl
@[simp] theorem bump_heatVal (s : State) : s.bump.heatVal = s.heatVal := rfl
@[simp] theorem bump_ctls (s : State) : s.bump.ctls = s.ctls := rfl
@[simp] theorem bump_miss (s : State) : s.bump.miss = s.miss := rfl
@[simp] theorem bump_moves (s : State) : s.bump.moves = s.moves := rfl
@[simp] theorem bump_autos (s : State) : s.bump.autos = s.autos := rfl
@[simp] theorem bump_keys (s : State) : s.bump.keys = s.keys := rfl
@[simp] theorem bump_secIntegrity (s : State) : s.bump.secIntegrity = s.secIntegrity := rfl
@[simp] theorem bump_secAuth (s : State) : s.bump.secAuth = s.secAuth := rfl
@[simp] theorem bump_secLast (s : State) : s.bump.secLast = s.secLast := rfl
@[simp] theorem bump_traffic (s : State) : s.bump.traffic = s.traffic := rfl
@[simp] theorem bump_snpTxn (s : State) : s.bump.snpTxn = s.snpTxn := rfl
@[simp] theorem bump_useStamp (s : State) : s.bump.useStamp = s.useStamp := rfl
@[simp] theorem bump_mem (s : State) : s.bump.mem = s.mem := rfl
@[simp] theorem bump_pot (s : State) : s.bump.pot = s.pot := rfl
@[simp] theorem bump_pool (s : State) : s.bump.pool = s.pool := rfl
@[simp] theorem bump_moved (s : State) : s.bump.moved = s.moved := rfl
@[simp] theorem bump_granA (s : State) : s.bump.granA = s.granA := rfl
@[simp] theorem bump_granB (s : State) : s.bump.granB = s.granB := rfl
@[simp] theorem bump_granC (s : State) : s.bump.granC = s.granC := rfl
@[simp] theorem bump_offline (s : State) : s.bump.offline = s.offline := rfl
@[simp] theorem bump_offOverflow (s : State) : s.bump.offOverflow = s.offOverflow := rfl
@[simp] theorem bump_opSeconds (s : State) : s.bump.opSeconds = s.opSeconds := rfl
@[simp] theorem bump_ctxs (s : State) : s.bump.ctxs = s.ctxs := rfl
@[simp] theorem bump_allocs (s : State) : s.bump.allocs = s.allocs := rfl
@[simp] theorem bump_shoots (s : State) : s.bump.shoots = s.shoots := rfl
@[simp] theorem bump_changes (s : State) : s.bump.changes = s.changes := rfl
@[simp] theorem bump_halted (s : State) : s.bump.halted = s.halted := rfl
@[simp] theorem bump_drops (s : State) : s.bump.drops = s.drops := rfl
@[simp] theorem bump_queues (s : State) : s.bump.queues = s.queues := rfl
@[simp] theorem bump_fences (s : State) : s.bump.fences = s.fences := rfl
@[simp] theorem bump_fenceBlocks (s : State) : s.bump.fenceBlocks = s.fenceBlocks := rfl
@[simp] theorem bump_launches (s : State) : s.bump.launches = s.launches := rfl
@[simp] theorem bump_resv (s : State) : s.bump.resv = s.resv := rfl
@[simp] theorem bump_served (s : State) : s.bump.served = s.served := rfl
@[simp] theorem bump_insts (s : State) : s.bump.insts = s.insts := rfl
@[simp] theorem bump_evt (s : State) : s.bump.evt = s.evt := rfl
@[simp] theorem bump_frings (s : State) : s.bump.frings = s.frings := rfl
@[simp] theorem bump_cmd (s : State) : s.bump.cmd = s.cmd := rfl
@[simp] theorem bump_accepted (s : State) : s.bump.accepted = s.accepted := rfl
@[simp] theorem bump_mbx (s : State) : s.bump.mbx = s.mbx := rfl
@[simp] theorem bump_txns (s : State) : s.bump.txns = s.txns := rfl
@[simp] theorem bump_nextTxn (s : State) : s.bump.nextTxn = s.nextTxn := rfl
@[simp] theorem bump_cfgGen (s : State) : s.bump.cfgGen = s.cfgGen := rfl
@[simp] theorem bump_gens (s : State) : s.bump.gens = s.gens := rfl
@[simp] theorem bump_lastCommit (s : State) : s.bump.lastCommit = s.lastCommit := rfl
@[simp] theorem bump_flashJournal (s : State) : s.bump.flashJournal = s.flashJournal := rfl
@[simp] theorem bump_journal (s : State) : s.bump.journal = s.journal := rfl
@[simp] theorem bump_txnConflicts (s : State) : s.bump.txnConflicts = s.txnConflicts := rfl
@[simp] theorem bump_txnAborts (s : State) : s.bump.txnAborts = s.txnAborts := rfl
@[simp] theorem bump_out (s : State) : s.bump.out = s.out := rfl
@[simp] theorem bump_pending (s : State) : s.bump.pending = s.pending := rfl

@[simp] theorem smbSet_regs (i : Nat) (s : State) : (smbSet i s).regs = s.regs := rfl
@[simp] theorem smbSet_fuse (i : Nat) (s : State) : (smbSet i s).fuse = s.fuse := rfl
@[simp] theorem smbSet_flash (i : Nat) (s : State) : (smbSet i s).flash = s.flash := rfl
@[simp] theorem smbSet_sec (i : Nat) (s : State) : (smbSet i s).sec = s.sec := rfl
@[simp] theorem smbSet_clocks (i : Nat) (s : State) : (smbSet i s).clocks = s.clocks := rfl
@[simp] theorem smbSet_rst (i : Nat) (s : State) : (smbSet i s).rst = s.rst := rfl
@[simp] theorem smbSet_co (i : Nat) (s : State) : (smbSet i s).co = s.co := rfl
@[simp] theorem smbSet_parts (i : Nat) (s : State) : (smbSet i s).parts = s.parts := rfl
@[simp] theorem smbSet_sites (i : Nat) (s : State) : (smbSet i s).sites = s.sites := rfl
@[simp] theorem smbSet_siteRecs (i : Nat) (s : State) : (smbSet i s).siteRecs = s.siteRecs := rfl
@[simp] theorem smbSet_slPorts (i : Nat) (s : State) : (smbSet i s).slPorts = s.slPorts := rfl
@[simp] theorem smbSet_slConf (i : Nat) (s : State) : (smbSet i s).slConf = s.slConf := rfl
@[simp] theorem smbSet_winOut (i : Nat) (s : State) : (smbSet i s).winOut = s.winOut := rfl
@[simp] theorem smbSet_winIn (i : Nat) (s : State) : (smbSet i s).winIn = s.winIn := rfl
@[simp] theorem smbSet_port (i : Nat) (s : State) : (smbSet i s).port = s.port := rfl
@[simp] theorem smbSet_cores (i : Nat) (s : State) : (smbSet i s).cores = s.cores := rfl
@[simp] theorem smbSet_fuseSeg (i : Nat) (s : State) : (smbSet i s).fuseSeg = s.fuseSeg := rfl
@[simp] theorem smbSet_rep (i : Nat) (s : State) : (smbSet i s).rep = s.rep := rfl
@[simp] theorem smbSet_clusters (i : Nat) (s : State) : (smbSet i s).clusters = s.clusters := rfl
@[simp] theorem smbSet_lines (i : Nat) (s : State) : (smbSet i s).lines = s.lines := rfl
@[simp] theorem smbSet_net (i : Nat) (s : State) : (smbSet i s).net = s.net := rfl
@[simp] theorem smbSet_ans (i : Nat) (s : State) : (smbSet i s).ans = s.ans := rfl
@[simp] theorem smbSet_asked (i : Nat) (s : State) : (smbSet i s).asked = s.asked := rfl
@[simp] theorem smbSet_reqTxn (i : Nat) (s : State) : (smbSet i s).reqTxn = s.reqTxn := rfl
@[simp] theorem smbSet_posted (i : Nat) (s : State) : (smbSet i s).posted = s.posted := rfl
@[simp] theorem smbSet_msc (i : Nat) (s : State) : (smbSet i s).msc = s.msc := rfl
@[simp] theorem smbSet_sealed (i : Nat) (s : State) : (smbSet i s).sealed = s.sealed := rfl
@[simp] theorem smbSet_resetDue (i : Nat) (s : State) : (smbSet i s).resetDue = s.resetDue := rfl
@[simp] theorem smbSet_offMore (i : Nat) (s : State) : (smbSet i s).offMore = s.offMore := rfl
@[simp] theorem smbSet_heldSnp (i : Nat) (s : State) : (smbSet i s).heldSnp = s.heldSnp := rfl
@[simp] theorem smbSet_media (i : Nat) (s : State) : (smbSet i s).media = s.media := rfl
@[simp] theorem smbSet_corr (i : Nat) (s : State) : (smbSet i s).corr = s.corr := rfl
@[simp] theorem smbSet_heat (i : Nat) (s : State) : (smbSet i s).heat = s.heat := rfl
@[simp] theorem smbSet_heatVal (i : Nat) (s : State) : (smbSet i s).heatVal = s.heatVal := rfl
@[simp] theorem smbSet_ctls (i : Nat) (s : State) : (smbSet i s).ctls = s.ctls := rfl
@[simp] theorem smbSet_miss (i : Nat) (s : State) : (smbSet i s).miss = s.miss := rfl
@[simp] theorem smbSet_moves (i : Nat) (s : State) : (smbSet i s).moves = s.moves := rfl
@[simp] theorem smbSet_autos (i : Nat) (s : State) : (smbSet i s).autos = s.autos := rfl
@[simp] theorem smbSet_keys (i : Nat) (s : State) : (smbSet i s).keys = s.keys := rfl
@[simp] theorem smbSet_secIntegrity (i : Nat) (s : State) : (smbSet i s).secIntegrity = s.secIntegrity := rfl
@[simp] theorem smbSet_secAuth (i : Nat) (s : State) : (smbSet i s).secAuth = s.secAuth := rfl
@[simp] theorem smbSet_secLast (i : Nat) (s : State) : (smbSet i s).secLast = s.secLast := rfl
@[simp] theorem smbSet_traffic (i : Nat) (s : State) : (smbSet i s).traffic = s.traffic := rfl
@[simp] theorem smbSet_snpTxn (i : Nat) (s : State) : (smbSet i s).snpTxn = s.snpTxn := rfl
@[simp] theorem smbSet_useStamp (i : Nat) (s : State) : (smbSet i s).useStamp = s.useStamp := rfl
@[simp] theorem smbSet_mem (i : Nat) (s : State) : (smbSet i s).mem = s.mem := rfl
@[simp] theorem smbSet_pot (i : Nat) (s : State) : (smbSet i s).pot = s.pot := rfl
@[simp] theorem smbSet_pool (i : Nat) (s : State) : (smbSet i s).pool = s.pool := rfl
@[simp] theorem smbSet_moved (i : Nat) (s : State) : (smbSet i s).moved = s.moved := rfl
@[simp] theorem smbSet_granA (i : Nat) (s : State) : (smbSet i s).granA = s.granA := rfl
@[simp] theorem smbSet_granB (i : Nat) (s : State) : (smbSet i s).granB = s.granB := rfl
@[simp] theorem smbSet_granC (i : Nat) (s : State) : (smbSet i s).granC = s.granC := rfl
@[simp] theorem smbSet_offline (i : Nat) (s : State) : (smbSet i s).offline = s.offline := rfl
@[simp] theorem smbSet_offOverflow (i : Nat) (s : State) : (smbSet i s).offOverflow = s.offOverflow := rfl
@[simp] theorem smbSet_opSeconds (i : Nat) (s : State) : (smbSet i s).opSeconds = s.opSeconds := rfl
@[simp] theorem smbSet_ctxs (i : Nat) (s : State) : (smbSet i s).ctxs = s.ctxs := rfl
@[simp] theorem smbSet_allocs (i : Nat) (s : State) : (smbSet i s).allocs = s.allocs := rfl
@[simp] theorem smbSet_shoots (i : Nat) (s : State) : (smbSet i s).shoots = s.shoots := rfl
@[simp] theorem smbSet_changes (i : Nat) (s : State) : (smbSet i s).changes = s.changes := rfl
@[simp] theorem smbSet_halted (i : Nat) (s : State) : (smbSet i s).halted = s.halted := rfl
@[simp] theorem smbSet_drops (i : Nat) (s : State) : (smbSet i s).drops = s.drops := rfl
@[simp] theorem smbSet_queues (i : Nat) (s : State) : (smbSet i s).queues = s.queues := rfl
@[simp] theorem smbSet_fences (i : Nat) (s : State) : (smbSet i s).fences = s.fences := rfl
@[simp] theorem smbSet_fenceBlocks (i : Nat) (s : State) : (smbSet i s).fenceBlocks = s.fenceBlocks := rfl
@[simp] theorem smbSet_launches (i : Nat) (s : State) : (smbSet i s).launches = s.launches := rfl
@[simp] theorem smbSet_resv (i : Nat) (s : State) : (smbSet i s).resv = s.resv := rfl
@[simp] theorem smbSet_served (i : Nat) (s : State) : (smbSet i s).served = s.served := rfl
@[simp] theorem smbSet_insts (i : Nat) (s : State) : (smbSet i s).insts = s.insts := rfl
@[simp] theorem smbSet_evt (i : Nat) (s : State) : (smbSet i s).evt = s.evt := rfl
@[simp] theorem smbSet_frings (i : Nat) (s : State) : (smbSet i s).frings = s.frings := rfl
@[simp] theorem smbSet_cmd (i : Nat) (s : State) : (smbSet i s).cmd = s.cmd := rfl
@[simp] theorem smbSet_accepted (i : Nat) (s : State) : (smbSet i s).accepted = s.accepted := rfl
@[simp] theorem smbSet_mbx (i : Nat) (s : State) : (smbSet i s).mbx = s.mbx := rfl
@[simp] theorem smbSet_txns (i : Nat) (s : State) : (smbSet i s).txns = s.txns := rfl
@[simp] theorem smbSet_nextTxn (i : Nat) (s : State) : (smbSet i s).nextTxn = s.nextTxn := rfl
@[simp] theorem smbSet_cfgGen (i : Nat) (s : State) : (smbSet i s).cfgGen = s.cfgGen := rfl
@[simp] theorem smbSet_gens (i : Nat) (s : State) : (smbSet i s).gens = s.gens := rfl
@[simp] theorem smbSet_lastCommit (i : Nat) (s : State) : (smbSet i s).lastCommit = s.lastCommit := rfl
@[simp] theorem smbSet_flashJournal (i : Nat) (s : State) : (smbSet i s).flashJournal = s.flashJournal := rfl
@[simp] theorem smbSet_journal (i : Nat) (s : State) : (smbSet i s).journal = s.journal := rfl
@[simp] theorem smbSet_txnConflicts (i : Nat) (s : State) : (smbSet i s).txnConflicts = s.txnConflicts := rfl
@[simp] theorem smbSet_txnAborts (i : Nat) (s : State) : (smbSet i s).txnAborts = s.txnAborts := rfl
@[simp] theorem smbSet_out (i : Nat) (s : State) : (smbSet i s).out = s.out := rfl
@[simp] theorem smbSet_free (i : Nat) (s : State) : (smbSet i s).free = s.free := rfl
@[simp] theorem smbSet_pending (i : Nat) (s : State) : (smbSet i s).pending = s.pending := rfl

/-! ### What the other reads need -/

@[simp] theorem setCore_cluster (s : State) (k i : Nat) (x : Core) : (s.setCore k x).cluster i = s.cluster i := rfl
@[simp] theorem setCore_line (s : State) (k i : Nat) (x : Core) : (s.setCore k x).line i = s.line i := rfl
@[simp] theorem setCore_gran (s : State) (k i : Nat) (x : Core) : (s.setCore k x).gran i = s.gran i := rfl
@[simp] theorem setCore_site (s : State) (k i : Nat) (x : Core) : (s.setCore k x).site i = s.site i := rfl
@[simp] theorem setCore_part (s : State) (k i : Nat) (x : Core) : (s.setCore k x).part i = s.part i := rfl
@[simp] theorem setCore_ctx (s : State) (k i : Nat) (x : Core) : (s.setCore k x).ctx i = s.ctx i := rfl
@[simp] theorem setCore_queue (s : State) (k i : Nat) (x : Core) : (s.setCore k x).queue i = s.queue i := rfl
@[simp] theorem setCore_fence (s : State) (k i : Nat) (x : Core) : (s.setCore k x).fence i = s.fence i := rfl
@[simp] theorem setCore_ring (s : State) (k i : Nat) (x : Core) : (s.setCore k x).ring i = s.ring i := rfl
@[simp] theorem setCore_fring (s : State) (k i : Nat) (x : Core) : (s.setCore k x).fring i = s.fring i := rfl
@[simp] theorem setCore_ctl (s : State) (k i : Nat) (x : Core) : (s.setCore k x).ctl i = s.ctl i := rfl
@[simp] theorem setCore_slPort (s : State) (k i : Nat) (x : Core) : (s.setCore k x).slPort i = s.slPort i := rfl
@[simp] theorem setCluster_core (s : State) (k i : Nat) (x : Cluster) : (s.setCluster k x).core i = s.core i := rfl
@[simp] theorem setCluster_line (s : State) (k i : Nat) (x : Cluster) : (s.setCluster k x).line i = s.line i := rfl
@[simp] theorem setCluster_gran (s : State) (k i : Nat) (x : Cluster) : (s.setCluster k x).gran i = s.gran i := rfl
@[simp] theorem setCluster_site (s : State) (k i : Nat) (x : Cluster) : (s.setCluster k x).site i = s.site i := rfl
@[simp] theorem setCluster_part (s : State) (k i : Nat) (x : Cluster) : (s.setCluster k x).part i = s.part i := rfl
@[simp] theorem setCluster_ctx (s : State) (k i : Nat) (x : Cluster) : (s.setCluster k x).ctx i = s.ctx i := rfl
@[simp] theorem setCluster_queue (s : State) (k i : Nat) (x : Cluster) : (s.setCluster k x).queue i = s.queue i := rfl
@[simp] theorem setCluster_fence (s : State) (k i : Nat) (x : Cluster) : (s.setCluster k x).fence i = s.fence i := rfl
@[simp] theorem setCluster_ring (s : State) (k i : Nat) (x : Cluster) : (s.setCluster k x).ring i = s.ring i := rfl
@[simp] theorem setCluster_fring (s : State) (k i : Nat) (x : Cluster) : (s.setCluster k x).fring i = s.fring i := rfl
@[simp] theorem setCluster_ctl (s : State) (k i : Nat) (x : Cluster) : (s.setCluster k x).ctl i = s.ctl i := rfl
@[simp] theorem setCluster_slPort (s : State) (k i : Nat) (x : Cluster) : (s.setCluster k x).slPort i = s.slPort i := rfl
@[simp] theorem setLine_core (s : State) (k i : Nat) (x : Line) : (s.setLine k x).core i = s.core i := rfl
@[simp] theorem setLine_cluster (s : State) (k i : Nat) (x : Line) : (s.setLine k x).cluster i = s.cluster i := rfl
@[simp] theorem setLine_gran (s : State) (k i : Nat) (x : Line) : (s.setLine k x).gran i = s.gran i := rfl
@[simp] theorem setLine_site (s : State) (k i : Nat) (x : Line) : (s.setLine k x).site i = s.site i := rfl
@[simp] theorem setLine_part (s : State) (k i : Nat) (x : Line) : (s.setLine k x).part i = s.part i := rfl
@[simp] theorem setLine_ctx (s : State) (k i : Nat) (x : Line) : (s.setLine k x).ctx i = s.ctx i := rfl
@[simp] theorem setLine_queue (s : State) (k i : Nat) (x : Line) : (s.setLine k x).queue i = s.queue i := rfl
@[simp] theorem setLine_fence (s : State) (k i : Nat) (x : Line) : (s.setLine k x).fence i = s.fence i := rfl
@[simp] theorem setLine_ring (s : State) (k i : Nat) (x : Line) : (s.setLine k x).ring i = s.ring i := rfl
@[simp] theorem setLine_fring (s : State) (k i : Nat) (x : Line) : (s.setLine k x).fring i = s.fring i := rfl
@[simp] theorem setLine_ctl (s : State) (k i : Nat) (x : Line) : (s.setLine k x).ctl i = s.ctl i := rfl
@[simp] theorem setLine_slPort (s : State) (k i : Nat) (x : Line) : (s.setLine k x).slPort i = s.slPort i := rfl
@[simp] theorem setGran_core (s : State) (k i : Nat) (x : Gran) : (s.setGran k x).core i = s.core i := rfl
@[simp] theorem setGran_cluster (s : State) (k i : Nat) (x : Gran) : (s.setGran k x).cluster i = s.cluster i := rfl
@[simp] theorem setGran_line (s : State) (k i : Nat) (x : Gran) : (s.setGran k x).line i = s.line i := rfl
@[simp] theorem setGran_site (s : State) (k i : Nat) (x : Gran) : (s.setGran k x).site i = s.site i := rfl
@[simp] theorem setGran_part (s : State) (k i : Nat) (x : Gran) : (s.setGran k x).part i = s.part i := rfl
@[simp] theorem setGran_ctx (s : State) (k i : Nat) (x : Gran) : (s.setGran k x).ctx i = s.ctx i := rfl
@[simp] theorem setGran_queue (s : State) (k i : Nat) (x : Gran) : (s.setGran k x).queue i = s.queue i := rfl
@[simp] theorem setGran_fence (s : State) (k i : Nat) (x : Gran) : (s.setGran k x).fence i = s.fence i := rfl
@[simp] theorem setGran_ring (s : State) (k i : Nat) (x : Gran) : (s.setGran k x).ring i = s.ring i := rfl
@[simp] theorem setGran_fring (s : State) (k i : Nat) (x : Gran) : (s.setGran k x).fring i = s.fring i := rfl
@[simp] theorem setGran_ctl (s : State) (k i : Nat) (x : Gran) : (s.setGran k x).ctl i = s.ctl i := rfl
@[simp] theorem setGran_slPort (s : State) (k i : Nat) (x : Gran) : (s.setGran k x).slPort i = s.slPort i := rfl
@[simp] theorem setSite_core (s : State) (k i : Nat) (x : Site) : (s.setSite k x).core i = s.core i := rfl
@[simp] theorem setSite_cluster (s : State) (k i : Nat) (x : Site) : (s.setSite k x).cluster i = s.cluster i := rfl
@[simp] theorem setSite_line (s : State) (k i : Nat) (x : Site) : (s.setSite k x).line i = s.line i := rfl
@[simp] theorem setSite_gran (s : State) (k i : Nat) (x : Site) : (s.setSite k x).gran i = s.gran i := rfl
@[simp] theorem setSite_part (s : State) (k i : Nat) (x : Site) : (s.setSite k x).part i = s.part i := rfl
@[simp] theorem setSite_ctx (s : State) (k i : Nat) (x : Site) : (s.setSite k x).ctx i = s.ctx i := rfl
@[simp] theorem setSite_queue (s : State) (k i : Nat) (x : Site) : (s.setSite k x).queue i = s.queue i := rfl
@[simp] theorem setSite_fence (s : State) (k i : Nat) (x : Site) : (s.setSite k x).fence i = s.fence i := rfl
@[simp] theorem setSite_ring (s : State) (k i : Nat) (x : Site) : (s.setSite k x).ring i = s.ring i := rfl
@[simp] theorem setSite_fring (s : State) (k i : Nat) (x : Site) : (s.setSite k x).fring i = s.fring i := rfl
@[simp] theorem setSite_ctl (s : State) (k i : Nat) (x : Site) : (s.setSite k x).ctl i = s.ctl i := rfl
@[simp] theorem setSite_slPort (s : State) (k i : Nat) (x : Site) : (s.setSite k x).slPort i = s.slPort i := rfl
@[simp] theorem setPart_core (s : State) (k i : Nat) (x : Part) : (s.setPart k x).core i = s.core i := rfl
@[simp] theorem setPart_cluster (s : State) (k i : Nat) (x : Part) : (s.setPart k x).cluster i = s.cluster i := rfl
@[simp] theorem setPart_line (s : State) (k i : Nat) (x : Part) : (s.setPart k x).line i = s.line i := rfl
@[simp] theorem setPart_gran (s : State) (k i : Nat) (x : Part) : (s.setPart k x).gran i = s.gran i := rfl
@[simp] theorem setPart_site (s : State) (k i : Nat) (x : Part) : (s.setPart k x).site i = s.site i := rfl
@[simp] theorem setPart_ctx (s : State) (k i : Nat) (x : Part) : (s.setPart k x).ctx i = s.ctx i := rfl
@[simp] theorem setPart_queue (s : State) (k i : Nat) (x : Part) : (s.setPart k x).queue i = s.queue i := rfl
@[simp] theorem setPart_fence (s : State) (k i : Nat) (x : Part) : (s.setPart k x).fence i = s.fence i := rfl
@[simp] theorem setPart_ring (s : State) (k i : Nat) (x : Part) : (s.setPart k x).ring i = s.ring i := rfl
@[simp] theorem setPart_fring (s : State) (k i : Nat) (x : Part) : (s.setPart k x).fring i = s.fring i := rfl
@[simp] theorem setPart_ctl (s : State) (k i : Nat) (x : Part) : (s.setPart k x).ctl i = s.ctl i := rfl
@[simp] theorem setPart_slPort (s : State) (k i : Nat) (x : Part) : (s.setPart k x).slPort i = s.slPort i := rfl
@[simp] theorem setCtx_core (s : State) (k i : Nat) (x : Ctx) : (s.setCtx k x).core i = s.core i := rfl
@[simp] theorem setCtx_cluster (s : State) (k i : Nat) (x : Ctx) : (s.setCtx k x).cluster i = s.cluster i := rfl
@[simp] theorem setCtx_line (s : State) (k i : Nat) (x : Ctx) : (s.setCtx k x).line i = s.line i := rfl
@[simp] theorem setCtx_gran (s : State) (k i : Nat) (x : Ctx) : (s.setCtx k x).gran i = s.gran i := rfl
@[simp] theorem setCtx_site (s : State) (k i : Nat) (x : Ctx) : (s.setCtx k x).site i = s.site i := rfl
@[simp] theorem setCtx_part (s : State) (k i : Nat) (x : Ctx) : (s.setCtx k x).part i = s.part i := rfl
@[simp] theorem setCtx_queue (s : State) (k i : Nat) (x : Ctx) : (s.setCtx k x).queue i = s.queue i := rfl
@[simp] theorem setCtx_fence (s : State) (k i : Nat) (x : Ctx) : (s.setCtx k x).fence i = s.fence i := rfl
@[simp] theorem setCtx_ring (s : State) (k i : Nat) (x : Ctx) : (s.setCtx k x).ring i = s.ring i := rfl
@[simp] theorem setCtx_fring (s : State) (k i : Nat) (x : Ctx) : (s.setCtx k x).fring i = s.fring i := rfl
@[simp] theorem setCtx_ctl (s : State) (k i : Nat) (x : Ctx) : (s.setCtx k x).ctl i = s.ctl i := rfl
@[simp] theorem setCtx_slPort (s : State) (k i : Nat) (x : Ctx) : (s.setCtx k x).slPort i = s.slPort i := rfl
@[simp] theorem setQueue_core (s : State) (k i : Nat) (x : Queue) : (s.setQueue k x).core i = s.core i := rfl
@[simp] theorem setQueue_cluster (s : State) (k i : Nat) (x : Queue) : (s.setQueue k x).cluster i = s.cluster i := rfl
@[simp] theorem setQueue_line (s : State) (k i : Nat) (x : Queue) : (s.setQueue k x).line i = s.line i := rfl
@[simp] theorem setQueue_gran (s : State) (k i : Nat) (x : Queue) : (s.setQueue k x).gran i = s.gran i := rfl
@[simp] theorem setQueue_site (s : State) (k i : Nat) (x : Queue) : (s.setQueue k x).site i = s.site i := rfl
@[simp] theorem setQueue_part (s : State) (k i : Nat) (x : Queue) : (s.setQueue k x).part i = s.part i := rfl
@[simp] theorem setQueue_ctx (s : State) (k i : Nat) (x : Queue) : (s.setQueue k x).ctx i = s.ctx i := rfl
@[simp] theorem setQueue_fence (s : State) (k i : Nat) (x : Queue) : (s.setQueue k x).fence i = s.fence i := rfl
@[simp] theorem setQueue_ring (s : State) (k i : Nat) (x : Queue) : (s.setQueue k x).ring i = s.ring i := rfl
@[simp] theorem setQueue_fring (s : State) (k i : Nat) (x : Queue) : (s.setQueue k x).fring i = s.fring i := rfl
@[simp] theorem setQueue_ctl (s : State) (k i : Nat) (x : Queue) : (s.setQueue k x).ctl i = s.ctl i := rfl
@[simp] theorem setQueue_slPort (s : State) (k i : Nat) (x : Queue) : (s.setQueue k x).slPort i = s.slPort i := rfl
@[simp] theorem setFence_core (s : State) (k i : Nat) (x : Fence) : (s.setFence k x).core i = s.core i := rfl
@[simp] theorem setFence_cluster (s : State) (k i : Nat) (x : Fence) : (s.setFence k x).cluster i = s.cluster i := rfl
@[simp] theorem setFence_line (s : State) (k i : Nat) (x : Fence) : (s.setFence k x).line i = s.line i := rfl
@[simp] theorem setFence_gran (s : State) (k i : Nat) (x : Fence) : (s.setFence k x).gran i = s.gran i := rfl
@[simp] theorem setFence_site (s : State) (k i : Nat) (x : Fence) : (s.setFence k x).site i = s.site i := rfl
@[simp] theorem setFence_part (s : State) (k i : Nat) (x : Fence) : (s.setFence k x).part i = s.part i := rfl
@[simp] theorem setFence_ctx (s : State) (k i : Nat) (x : Fence) : (s.setFence k x).ctx i = s.ctx i := rfl
@[simp] theorem setFence_queue (s : State) (k i : Nat) (x : Fence) : (s.setFence k x).queue i = s.queue i := rfl
@[simp] theorem setFence_ring (s : State) (k i : Nat) (x : Fence) : (s.setFence k x).ring i = s.ring i := rfl
@[simp] theorem setFence_fring (s : State) (k i : Nat) (x : Fence) : (s.setFence k x).fring i = s.fring i := rfl
@[simp] theorem setFence_ctl (s : State) (k i : Nat) (x : Fence) : (s.setFence k x).ctl i = s.ctl i := rfl
@[simp] theorem setFence_slPort (s : State) (k i : Nat) (x : Fence) : (s.setFence k x).slPort i = s.slPort i := rfl
@[simp] theorem setRing_core (s : State) (k i : Nat) (x : EvRing) : (s.setRing k x).core i = s.core i := rfl
@[simp] theorem setRing_cluster (s : State) (k i : Nat) (x : EvRing) : (s.setRing k x).cluster i = s.cluster i := rfl
@[simp] theorem setRing_line (s : State) (k i : Nat) (x : EvRing) : (s.setRing k x).line i = s.line i := rfl
@[simp] theorem setRing_gran (s : State) (k i : Nat) (x : EvRing) : (s.setRing k x).gran i = s.gran i := rfl
@[simp] theorem setRing_site (s : State) (k i : Nat) (x : EvRing) : (s.setRing k x).site i = s.site i := rfl
@[simp] theorem setRing_part (s : State) (k i : Nat) (x : EvRing) : (s.setRing k x).part i = s.part i := rfl
@[simp] theorem setRing_ctx (s : State) (k i : Nat) (x : EvRing) : (s.setRing k x).ctx i = s.ctx i := rfl
@[simp] theorem setRing_queue (s : State) (k i : Nat) (x : EvRing) : (s.setRing k x).queue i = s.queue i := rfl
@[simp] theorem setRing_fence (s : State) (k i : Nat) (x : EvRing) : (s.setRing k x).fence i = s.fence i := rfl
@[simp] theorem setRing_fring (s : State) (k i : Nat) (x : EvRing) : (s.setRing k x).fring i = s.fring i := rfl
@[simp] theorem setRing_ctl (s : State) (k i : Nat) (x : EvRing) : (s.setRing k x).ctl i = s.ctl i := rfl
@[simp] theorem setRing_slPort (s : State) (k i : Nat) (x : EvRing) : (s.setRing k x).slPort i = s.slPort i := rfl
@[simp] theorem setFring_core (s : State) (k i : Nat) (x : FaultRing) : (s.setFring k x).core i = s.core i := rfl
@[simp] theorem setFring_cluster (s : State) (k i : Nat) (x : FaultRing) : (s.setFring k x).cluster i = s.cluster i := rfl
@[simp] theorem setFring_line (s : State) (k i : Nat) (x : FaultRing) : (s.setFring k x).line i = s.line i := rfl
@[simp] theorem setFring_gran (s : State) (k i : Nat) (x : FaultRing) : (s.setFring k x).gran i = s.gran i := rfl
@[simp] theorem setFring_site (s : State) (k i : Nat) (x : FaultRing) : (s.setFring k x).site i = s.site i := rfl
@[simp] theorem setFring_part (s : State) (k i : Nat) (x : FaultRing) : (s.setFring k x).part i = s.part i := rfl
@[simp] theorem setFring_ctx (s : State) (k i : Nat) (x : FaultRing) : (s.setFring k x).ctx i = s.ctx i := rfl
@[simp] theorem setFring_queue (s : State) (k i : Nat) (x : FaultRing) : (s.setFring k x).queue i = s.queue i := rfl
@[simp] theorem setFring_fence (s : State) (k i : Nat) (x : FaultRing) : (s.setFring k x).fence i = s.fence i := rfl
@[simp] theorem setFring_ring (s : State) (k i : Nat) (x : FaultRing) : (s.setFring k x).ring i = s.ring i := rfl
@[simp] theorem setFring_ctl (s : State) (k i : Nat) (x : FaultRing) : (s.setFring k x).ctl i = s.ctl i := rfl
@[simp] theorem setFring_slPort (s : State) (k i : Nat) (x : FaultRing) : (s.setFring k x).slPort i = s.slPort i := rfl
@[simp] theorem setCtl_core (s : State) (k i : Nat) (x : Ctl) : (s.setCtl k x).core i = s.core i := rfl
@[simp] theorem setCtl_cluster (s : State) (k i : Nat) (x : Ctl) : (s.setCtl k x).cluster i = s.cluster i := rfl
@[simp] theorem setCtl_line (s : State) (k i : Nat) (x : Ctl) : (s.setCtl k x).line i = s.line i := rfl
@[simp] theorem setCtl_gran (s : State) (k i : Nat) (x : Ctl) : (s.setCtl k x).gran i = s.gran i := rfl
@[simp] theorem setCtl_site (s : State) (k i : Nat) (x : Ctl) : (s.setCtl k x).site i = s.site i := rfl
@[simp] theorem setCtl_part (s : State) (k i : Nat) (x : Ctl) : (s.setCtl k x).part i = s.part i := rfl
@[simp] theorem setCtl_ctx (s : State) (k i : Nat) (x : Ctl) : (s.setCtl k x).ctx i = s.ctx i := rfl
@[simp] theorem setCtl_queue (s : State) (k i : Nat) (x : Ctl) : (s.setCtl k x).queue i = s.queue i := rfl
@[simp] theorem setCtl_fence (s : State) (k i : Nat) (x : Ctl) : (s.setCtl k x).fence i = s.fence i := rfl
@[simp] theorem setCtl_ring (s : State) (k i : Nat) (x : Ctl) : (s.setCtl k x).ring i = s.ring i := rfl
@[simp] theorem setCtl_fring (s : State) (k i : Nat) (x : Ctl) : (s.setCtl k x).fring i = s.fring i := rfl
@[simp] theorem setCtl_slPort (s : State) (k i : Nat) (x : Ctl) : (s.setCtl k x).slPort i = s.slPort i := rfl
@[simp] theorem setReg_core (s : State) (k i : Nat) (x : Nat) : (s.setReg k x).core i = s.core i := rfl
@[simp] theorem setReg_cluster (s : State) (k i : Nat) (x : Nat) : (s.setReg k x).cluster i = s.cluster i := rfl
@[simp] theorem setReg_line (s : State) (k i : Nat) (x : Nat) : (s.setReg k x).line i = s.line i := rfl
@[simp] theorem setReg_gran (s : State) (k i : Nat) (x : Nat) : (s.setReg k x).gran i = s.gran i := rfl
@[simp] theorem setReg_site (s : State) (k i : Nat) (x : Nat) : (s.setReg k x).site i = s.site i := rfl
@[simp] theorem setReg_part (s : State) (k i : Nat) (x : Nat) : (s.setReg k x).part i = s.part i := rfl
@[simp] theorem setReg_ctx (s : State) (k i : Nat) (x : Nat) : (s.setReg k x).ctx i = s.ctx i := rfl
@[simp] theorem setReg_queue (s : State) (k i : Nat) (x : Nat) : (s.setReg k x).queue i = s.queue i := rfl
@[simp] theorem setReg_fence (s : State) (k i : Nat) (x : Nat) : (s.setReg k x).fence i = s.fence i := rfl
@[simp] theorem setReg_ring (s : State) (k i : Nat) (x : Nat) : (s.setReg k x).ring i = s.ring i := rfl
@[simp] theorem setReg_fring (s : State) (k i : Nat) (x : Nat) : (s.setReg k x).fring i = s.fring i := rfl
@[simp] theorem setReg_ctl (s : State) (k i : Nat) (x : Nat) : (s.setReg k x).ctl i = s.ctl i := rfl
@[simp] theorem setReg_slPort (s : State) (k i : Nat) (x : Nat) : (s.setReg k x).slPort i = s.slPort i := rfl
@[simp] theorem setSlPort_core (s : State) (k i : Nat) (x : SlPort) : (s.setSlPort k x).core i = s.core i := rfl
@[simp] theorem setSlPort_cluster (s : State) (k i : Nat) (x : SlPort) : (s.setSlPort k x).cluster i = s.cluster i := rfl
@[simp] theorem setSlPort_line (s : State) (k i : Nat) (x : SlPort) : (s.setSlPort k x).line i = s.line i := rfl
@[simp] theorem setSlPort_gran (s : State) (k i : Nat) (x : SlPort) : (s.setSlPort k x).gran i = s.gran i := rfl
@[simp] theorem setSlPort_site (s : State) (k i : Nat) (x : SlPort) : (s.setSlPort k x).site i = s.site i := rfl
@[simp] theorem setSlPort_part (s : State) (k i : Nat) (x : SlPort) : (s.setSlPort k x).part i = s.part i := rfl
@[simp] theorem setSlPort_ctx (s : State) (k i : Nat) (x : SlPort) : (s.setSlPort k x).ctx i = s.ctx i := rfl
@[simp] theorem setSlPort_queue (s : State) (k i : Nat) (x : SlPort) : (s.setSlPort k x).queue i = s.queue i := rfl
@[simp] theorem setSlPort_fence (s : State) (k i : Nat) (x : SlPort) : (s.setSlPort k x).fence i = s.fence i := rfl
@[simp] theorem setSlPort_ring (s : State) (k i : Nat) (x : SlPort) : (s.setSlPort k x).ring i = s.ring i := rfl
@[simp] theorem setSlPort_fring (s : State) (k i : Nat) (x : SlPort) : (s.setSlPort k x).fring i = s.fring i := rfl
@[simp] theorem setSlPort_ctl (s : State) (k i : Nat) (x : SlPort) : (s.setSlPort k x).ctl i = s.ctl i := rfl

end Sys2Proof.Machine
end

