-- ==== Sys2Proof/Laws/Report.lean ====
section
/-!
SUPPORT. What telling the outside does: an event, a fault record, a report write and a reply change only what is sent, the
rings, the port, the command ring, the mailbox and the packets accepted.
-/
namespace Sys2Proof.Machine

/-- t is s after something was told: nothing but the rings, the port, the writes it holds, the command paths and what
is sent differs. -/
def Tells (s t : State) : Prop :=
  ∃ o e f p c m a k, t = { s with
    out := o, evt := e, frings := f, port := p, cmd := c, mbx := m, accepted := a, posted := k }

theorem Tells.refl (s : State) : Tells s s := ⟨_, _, _, _, _, _, _, _, rfl⟩

theorem Tells.trans {s t u : State} (h : Tells s t) (k : Tells t u) : Tells s u := by
  obtain ⟨o, e, f, p, c, m, a, d, rfl⟩ := h
  obtain ⟨o', e', f', p', c', m', a', d', rfl⟩ := k
  exact ⟨o', e', f', p', c', m', a', d', rfl⟩

theorem Tells.of_emit {s t : State} (x : Out) (h : Tells s t) : Tells s (emit x t) :=
  h.trans ⟨_, _, _, _, _, _, _, _, rfl⟩
theorem Tells.of_ring {s t : State} (r : Nat) (x : EvRing) (h : Tells s t) : Tells s (t.setRing r x) :=
  h.trans ⟨_, _, _, _, _, _, _, _, rfl⟩
theorem Tells.of_fring {s t : State} (r : Nat) (x : FaultRing) (h : Tells s t) : Tells s (t.setFring r x) :=
  h.trans ⟨_, _, _, _, _, _, _, _, rfl⟩
theorem Tells.of_port {s t : State} (x : Port) (h : Tells s t) : Tells s { t with port := x } :=
  h.trans ⟨_, _, _, _, _, _, _, _, rfl⟩
theorem Tells.of_cmd {s t : State} (x : CmdRing) (h : Tells s t) : Tells s { t with cmd := x } :=
  h.trans ⟨_, _, _, _, _, _, _, _, rfl⟩
theorem Tells.of_mbx {s t : State} (x : Mailbox) (h : Tells s t) : Tells s { t with mbx := x } :=
  h.trans ⟨_, _, _, _, _, _, _, _, rfl⟩
theorem Tells.of_accepted {s t : State} (x : List Accepted) (h : Tells s t) : Tells s { t with accepted := x } :=
  h.trans ⟨_, _, _, _, _, _, _, _, rfl⟩

theorem portSend_tells (h : Held) (s : State) : Tells s (portSend h s) := by
  unfold portSend
  split
  · exact .of_port _ (.refl s)
  · split
    · exact .of_emit _ (.refl s)
    · exact .of_port _ (.refl s)
    · exact .refl s

theorem intxEval_tells (s : State) : Tells s (intxEval s) := by
  unfold intxEval
  dsimp only
  split
  · exact .refl s
  · split <;> exact .of_emit _ (.of_port _ (.refl s))

theorem evWrite_tells (r : Nat) (x : EvRec) (s : State) : Tells s (evWrite r x s) :=
  (Tells.of_ring r _ (portSend_tells _ s)).trans (intxEval_tells _)

theorem evPut_tells (r : Nat) (x : EvRec) (s : State) : Tells s (evPut r x s) := by
  unfold evPut
  dsimp only
  split
  · exact .of_ring r _ (.refl s)
  · split
    · split <;> exact .of_ring r _ (.refl s)
    · exact evWrite_tells r x s

theorem faultWrite_tells (p : Nat) (x : FaultRec) (b : Bool) (s : State) : Tells s (faultWrite p x b s) :=
  .of_fring p _ (portSend_tells _ s)

theorem performReport_tells (h : Held) (s : State) : Tells s (performReport h s) := by
  unfold performReport
  split
  · exact evPut_tells _ _ s
  · split
    · exact faultWrite_tells _ _ _ s
    · split
      · exact .refl s
      · split
        · exact .of_fring _ _ (.refl s)
        · exact (Tells.of_fring _ _ (.refl s)).trans (evPut_tells _ _ _)
  · exact portSend_tells _ s

theorem report_tells (h : Held) (s : State) : Tells s (report h s) := by
  unfold report
  split
  · exact performReport_tells h s
  · split
    · exact .of_port _ (.refl s)
    · exact ⟨_, _, _, _, _, _, _, _, rfl⟩

theorem raiseIn_tells (r : Nat) (x : EvRec) (s : State) : Tells s (raiseIn r x s) := by
  unfold raiseIn
  split
  · exact report_tells _ s
  · exact .of_ring r _ (.refl s)

/-- A partition event changes nothing that the hub computes with. -/
theorem partEvent_tells (kind p payload : Nat) (s : State) : Tells s (partEvent kind p payload s) := raiseIn_tells _ _ s

/-- A hub event changes nothing that the hub computes with. -/
theorem hubEvent_tells (kind d payload : Nat) (s : State) : Tells s (hubEvent kind d payload s) := raiseIn_tells _ _ s

theorem lostEvent_tells (x : FaultRec) (a b : Bool) (i : Nat) (s : State) : Tells s (lostEvent x a b i s) := raiseIn_tells _ _ s

theorem placeFault_tells (x : FaultRec) (s : State) : Tells s (placeFault x s) := by
  unfold placeFault
  dsimp only
  split
  · split
    · exact (report_tells _ s).trans (lostEvent_tells _ _ _ _ _)
    · exact report_tells _ s
  · split
    · exact .refl s
    · split
      · exact (Tells.of_fring _ _ (.refl s)).trans (lostEvent_tells _ _ _ _ _)
      · exact ((Tells.of_fring _ _ (.refl s)).trans (partEvent_tells _ _ _ _)).trans (lostEvent_tells _ _ _ _ _)

/-- A reply changes only its command path, what is sent and the rings. -/
theorem reply_tells (p : Pkt) (op : Nat) (r : OpRes) (s : State) : Tells s (reply p op r s) := by
  have note (n : Nat) (u : State) (h : Tells s u) : Tells s (if p.notify then
      if p.partition.toNat < 8 then partEvent 0x01 p.partition.toNat n u else hubEvent 0x01 1 n u else u) := by
    split
    · split
      · exact h.trans (partEvent_tells _ _ _ _)
      · exact h.trans (hubEvent_tells _ _ _ _)
    · exact h
  have h1 : Tells s { s with accepted := s.accepted.filter fun a => !samePkt a.pkt p } :=
    .of_accepted _ (.refl s)
  unfold reply replyTo'
  generalize { s with accepted := s.accepted.filter fun a => !samePkt a.pkt p } = s1 at h1 ⊢
  refine note _ _ ?_
  split
  · extract_lets c slot s3 c1 c2 s4
    have h3 : Tells s s3 := by
      dsimp only [s3]
      split
      · exact h1.trans (report_tells _ _)
      · exact (h1.trans (report_tells _ _)).trans (report_tells _ _)
    clear_value s3 c2
    have h4 : Tells s s4 := .of_cmd _ h3
    clear_value s4
    split
    · exact h4.trans (report_tells _ _)
    · exact h4
  · exact .of_mbx _ h1

end Sys2Proof.Machine
end

