-- ==== Sys2Proof/WellFormed.lean ====
section
/-!
DEFINITION. The commands that a sender outside the block can form: operands that a list or a number leaves wider than the
spec's field is (R30, R203, R236, R266, R352, R354, R385).
-/
namespace Sys2Proof

/-- Distinct lines of the 48-bit address space, each listed once, and a read that is listed has at least one wrong symbol or a
MAC that differs. -/
def mediaOk (m : MediaList) : Bool :=
  decide (m.map (·.1)).Nodup && m.all fun e =>
    decide (e.1 < 2 ^ 42) && match e.2 with
      | .symbols l u mac => mac || decide (0 < l + u)
      | _ => true

/-- A packet: HMF fetches ring packets by their slot; PARAM_LEN is at most 4,064 (R341). -/
def Pkt.ok (p : Pkt) : Bool := decide (p.paramLen.toNat ≤ 4064)

/-- The bodies of packets: what fits in PARAM_LEN (R30, R266, R352, R354, R388). -/
def WellFormed : Instr → Bool
  | .timeSample p domains => p.ok && decide (domains.length ≤ 4056)
  | .map p _ _ _ frames => p.ok && decide (frames.length ≤ 507)
  | .autotierPoolGrant p _ frames => p.ok && decide (frames.length ≤ 506)
  | .autotierPoolWithdraw p _ frames => p.ok && decide (frames.length ≤ 506)
  | .regStage p entries => p.ok && decide (entries.length ≤ 253)
  | .instanceCreate p _ ctxs => p.ok && decide (ctxs.length ≤ 1012)
  | .bar4Read _ len media => decide (len.toNat ≤ 4096) && mediaOk media
  | .bar4Write _ _ _ media => mediaOk media
  | .registerWrite _ offset bytes _ =>
    (bytes.toNat == 1 || bytes.toNat == 2 || bytes.toNat == 4 || bytes.toNat == 8) && decide (offset.toNat % bytes.toNat = 0)
  | _ => true

end Sys2Proof
end

