-- ==== Sys2Proof/Tests/Slice0.lean ====
section
/-!
SUPPORT. Small tests of single steps, one witness theorem for the hypotheses of each statement, and the well-formedness smoke
test.
-/
set_option Elab.async false

namespace Sys2Proof.Tests
open Sys2Proof.Machine

/-! ### Well-formedness: an ill-formed command for each check -/

/-- A packet by the board mailbox for partition 0. -/
def pk (n : BitVec 16) : Pkt :=
  { path := .board, seq := 0, partition := 0, notify := false, serial := false, txn := 0, tag := 7, paramLen := n, rsv := none }
/-- A packet for the whole hub. -/
def hk (n : BitVec 16) : Pkt := { pk n with partition := 15 }

theorem test_wf_paramLen : WellFormed (.timeSample (hk 4065) []) = false ∧ WellFormed (.timeSample (hk 4064) []) = true := by decide
theorem test_wf_timeSample : WellFormed (.timeSample (hk 8) (List.replicate 4057 0)) = false := by decide +kernel
theorem test_wf_map : WellFormed (.map (pk 16) 0 0 0 (List.replicate 508 0)) = false := by decide +kernel
theorem test_wf_grant : WellFormed (.autotierPoolGrant (pk 16) 0 (List.replicate 507 0)) = false := by decide +kernel
theorem test_wf_withdraw : WellFormed (.autotierPoolWithdraw (pk 16) 0 (List.replicate 507 0)) = false := by decide +kernel
theorem test_wf_regStage : WellFormed (.regStage (pk 16) (List.replicate 254 (0, false, 0))) = false := by decide +kernel
theorem test_wf_instance : WellFormed (.instanceCreate (pk 16) 0 (List.replicate 1013 0)) = false := by decide +kernel
theorem test_wf_bar4_len : WellFormed (.bar4Read 0 4097 []) = false := by decide
theorem test_wf_media_twice : mediaOk [(1, .symbols 0 0 true), (1, .symbols 9 0 false)] = false := by decide
theorem test_wf_media_range : mediaOk [(2 ^ 42, .symbols 0 0 true)] = false := by decide
theorem test_wf_media_symbols : mediaOk [(1, .symbols 0 0 false)] = false := by decide
theorem test_wf_reg_size : WellFormed (.registerWrite false 0 3 0) = false := by decide
theorem test_wf_reg_place : WellFormed (.registerWrite false 2 4 0) = false := by decide

/-! ### States the witnesses use -/

/-- A core that runs a kernel of 16 instructions. -/
def k0 : Core := { run := true, codeSize := 64 }
/-- Reset with such a core as core 0. -/
def coreState (x : Core) : State := { State.reset with cores := [(0, x)] }
def f0 : Fetch := { core := 0, parity := false }

/-- A hub that is ready. -/
def up : State := { State.reset with co := { stage := 10, ready := true } }

theorem canIssue_k0 : CanIssue f0 (coreState k0) := ⟨rfl, rfl, by decide, by decide, rfl⟩

/-- No drain work of a packet, as one closed check. -/
def noDrain (p : Pkt) (s : State) : Bool :=
  (s.shoots.all fun u => !samePkt u.pkt p) && (s.drops.all fun d => !samePkt d.1 p) &&
  (s.queues.all fun q => q.2.stopping.all fun k => !samePkt k p) && (s.sites.all fun x => x.2.withdraws.all fun k => !samePkt k p) &&
  (s.winIn.all fun w => w.2.closing.all fun k => !samePkt k p)
theorem noDrain_of {p : Pkt} {s : State} (h : noDrain p s = true) : NoDrain p s := by
  simp only [noDrain, Bool.and_eq_true, List.all_eq_true, Option.all_eq_true, Bool.not_eq_true'] at h
  obtain ⟨⟨⟨⟨a, b⟩, c⟩, d⟩, e⟩ := h
  exact ⟨a, b, c, d, e⟩
/-- What makes a packet served, its partition apart. -/
def served (p : Pkt) (s : State) : Bool :=
  noDrain p s && s.co.ready && !s.rst.inProgress && s.sec.lc != 4 && s.sec.lc != 7 && decide (s.power.shed < 4) && p.txn == 0 &&
    p.rsv.isNone && s.changes.isEmpty && (s.accepted.takeWhile fun a => !samePkt a.pkt p).isEmpty
theorem served_of {p : Pkt} {s : State} (h : served p s = true) : Served p s := by
  simp only [served, Bool.and_eq_true, Bool.not_eq_true', bne_iff_ne, decide_eq_true_eq, beq_iff_eq, Option.isNone_iff_eq_none,
    List.isEmpty_iff] at h
  obtain ⟨⟨⟨⟨⟨⟨⟨⟨⟨n, a⟩, b⟩, c⟩, d⟩, e⟩, f⟩, g⟩, i⟩, j⟩ := h
  exact ⟨noDrain_of n, a, b, ⟨c, d⟩, e, f, g, i, j⟩
/-- What makes a packet served for its partition. -/
def servedFor (p : Pkt) (s : State) : Bool :=
  served p s && decide (p.partition.toNat < 8) && (s.part p.partition.toNat).resetting.isNone
theorem servedFor_of {p : Pkt} {s : State} (h : servedFor p s = true) : ServedFor p s := by
  simp only [servedFor, Bool.and_eq_true, decide_eq_true_eq, Option.isNone_iff_eq_none] at h
  exact ⟨served_of h.1.1, h.1.2, h.2⟩
/-- The same for a packet of the whole hub. -/
def servedHub (p : Pkt) (s : State) : Bool := served p s && p.partition == 15
theorem servedHub_of {p : Pkt} {s : State} (h : servedHub p s = true) : ServedHub p s := by
  simp only [servedHub, Bool.and_eq_true, beq_iff_eq] at h
  exact ⟨served_of h.1, h.2⟩
/-- A packet of partition 0, at a hub that is ready and in which no packet drains. -/
theorem servedFor_pk {s : State} (n : BitVec 16) (a : s.co.ready = true) (b : s.rst.inProgress = false) (c : s.sec.lc ≠ 4 ∧ s.sec.lc ≠ 7)
    (d : s.power.shed < 4) (e : (s.part 0).resetting = none) (f : s.changes = [] ∧ s.accepted = [] ∧ s.shoots = [] ∧ s.drops = [])
    (g : ∀ q ∈ s.queues, q.2.stopping = none) (i : s.sites = [] ∧ s.winIn = []) : ServedFor (pk n) s := by
  refine ⟨⟨⟨?_, ?_, fun q hq k hk => by simp [g q hq] at hk, ?_, ?_⟩, a, b, c, d, rfl, rfl, f.1, ?_⟩,
    (by decide : (0 : BitVec 4).toNat < 8), e⟩ <;> simp [f, i]

/-- The state that a command answers. -/
def nextOf (o : Host.Outcome State Fault Refusal) : State :=
  match o with
  | .next t => t
  | _ => default

/-- g1 and g2 hold a and b. -/
def ab (a b : W64) : State := coreState { k0 with g := [(1, a), (2, b)] }
/-- What a register holds after a command on core 0. -/
def gets (i : Instr) (r : Nat) (s : State) : W64 := ((nextOf (exec i s)).core 0).get r

/-! ### Scalar instructions: results worked out by hand from R49 to R54, R58 -/

theorem test_add_wraps : gets (.add f0 3 1 2 0) 3 (ab (BitVec.allOnes 64) 2) = 1 := by decide +kernel
theorem test_sub_borrows : gets (.sub f0 3 1 2 0) 3 (ab 0 1) = BitVec.allOnes 64 := by decide +kernel
theorem test_sll_six_bits : gets (.sll f0 3 1 2 0) 3 (ab 1 65) = 2 := by decide +kernel
theorem test_sra_sign : gets (.sra f0 3 1 2 0) 3 (ab (BitVec.ofInt 64 (-8)) 1) = BitVec.ofInt 64 (-4) := by decide +kernel
theorem test_srl_zero_fill : gets (.srl f0 3 1 2 0) 3 (ab (BitVec.ofInt 64 (-8)) 63) = 1 := by decide +kernel
theorem test_slt_signed : gets (.slt f0 3 1 2 0) 3 (ab (BitVec.allOnes 64) 0) = 1 := by decide +kernel
theorem test_sltu_unsigned : gets (.sltu f0 3 1 2 0) 3 (ab (BitVec.allOnes 64) 0) = 0 := by decide +kernel
theorem test_mulhs : gets (.mulhs f0 3 1 2 0) 3 (ab (BitVec.allOnes 64) 2) = BitVec.allOnes 64 := by decide +kernel
theorem test_mulhu : gets (.mulhu f0 3 1 2 0) 3 (ab (BitVec.allOnes 64) 2) = 1 := by decide +kernel
theorem test_divs_by_zero : gets (.divs f0 3 1 2 0) 3 (ab 5 0) = BitVec.allOnes 64 := by decide +kernel
theorem test_divs_overflow : gets (.divs f0 3 1 2 0) 3 (ab (BitVec.intMin 64) (BitVec.allOnes 64)) = BitVec.intMin 64 := by decide +kernel
theorem test_rems_sign : gets (.rems f0 3 1 2 0) 3 (ab (BitVec.ofInt 64 (-7)) 2) = BitVec.ofInt 64 (-1) := by decide +kernel
theorem test_rems_by_zero : gets (.remu f0 3 1 2 0) 3 (ab 7 0) = 7 := by decide +kernel
theorem test_rd_is_ra : gets (.add f0 1 1 2 0) 1 (ab 3 4) = 7 := by decide +kernel
theorem test_g0_discards : gets (.add f0 0 1 2 0) 0 (ab 3 4) = 0 := by decide +kernel
theorem test_addi_sext : gets (.addi f0 3 1 0x3FFF) 3 (ab 5 0) = 4 := by decide +kernel
theorem test_sltui_unsigned : gets (.sltui f0 3 1 0x3FFF) 3 (ab 5 0) = 1 := by decide +kernel
theorem test_seti : gets (.seti f0 3 3 0 0xABCD) 3 (ab 5 0) = 0xABCD000000000000 := by decide +kernel
theorem test_insi_keeps : gets (.insi f0 1 1 0 0xABCD) 1 (ab 0x1111222233334444 0) = 0x11112222ABCD4444 := by decide +kernel
theorem test_branch_back : ((nextOf (exec (.branchLt f0 false 1 2 0x1FFF) (coreState { k0 with pc := 8, g := [(1, -1)] }))).core 0).pc = 4 := by decide +kernel
theorem test_branch_not_taken : ((nextOf (exec (.branchLtu f0 false 1 2 4) (ab (-1) 0))).core 0).pc = 4 := by decide +kernel
theorem test_jump_links : gets (.jump f0 3 0 2) 3 (coreState { k0 with pc := 8 }) = 12 := by decide +kernel
theorem test_load_sext : gets (.load f0 3 1 false true 0 1 .clean false []) 3 (coreState { k0 with g := [(1, 4)], stall := [(5, 0x80)] }) =
    BitVec.ofInt 64 (-128) := by decide +kernel
theorem test_store_little_endian :
    ((nextOf (exec (.store f0 2 1 false false 1 0 []) (ab 4 0x1234))).core 0).stall = [(4, 0x34), (5, 0x12)] := by decide +kernel
theorem test_cas_equal : (atomicOn 5 0 4 9 7 5).2.toNat = 7 := by decide +kernel
theorem test_mins_signed : (atomicOn 0xFFFFFFFF 0 4 5 1 0).2.toNat = 0xFFFFFFFF := by decide +kernel
theorem test_minu_unsigned : (atomicOn 0xFFFFFFFF 0 4 7 1 0).2.toNat = 1 := by decide +kernel
theorem test_fetch_bounds : ((nextOf (exec (.nop f0 0 0 0) (coreState { k0 with pc := 64 }))).core 0).run = false := by decide +kernel
theorem test_ssig_overflow : ((nextOf (exec (.ssig f0 2 0 false 1) (coreState { k0 with sems := [(2, 65535)] }))).core 0).run = false := by decide +kernel

/-! ### Witnesses: scalar instructions -/

theorem witness_RegisterArithmetic : CanIssue f0 (ab (BitVec.intMin 64) (BitVec.allOnes 64)) := ⟨rfl, rfl, by decide, by decide, rfl⟩
theorem witness_ImmediateArithmetic : CanIssue f0 (coreState { k0 with pc := 60 }) := ⟨rfl, rfl, by decide, by decide, rfl⟩
/-- The last aligned address of stall memory, the first beyond it, and a misaligned one. -/
theorem witness_StallLoadsAndStores :
    let addr (a : W64) (sz : Nat) := (((ab a 0).core 0).get 1 + BitVec.ofInt 64 0 * BitVec.ofNat 64 (2 ^ sz)).toNat
    CanIssue f0 (ab 0xFFFF8 0) ∧ (ab 0xFFFF8 0).media = [] ∧ addr 0xFFFF8 3 % 8 = 0 ∧ addr 0xFFFF8 3 < 0x100000 ∧
    addr 0x100000 3 % 8 = 0 ∧ 0x100000 ≤ addr 0x100000 3 ∧ addr 0xFFFFF 1 % 2 ≠ 0 ∧ ¬(false = true ∧ (3 : BitVec 2) = 3) :=
  ⟨⟨rfl, rfl, by decide, by decide, rfl⟩, rfl, by decide +kernel⟩

/-- Context 5 of partition 0, with one readable and writable page at address 0 that leads to granule 1, held in M by cluster 0. -/
def pageSeg : Segment :=
  { r := true, w := true, x := false, stream := false, fine := false, auto := false, frame1g := false, target := 0, floor := 0,
    gen := 0, refc := 0, base := 0, len := 1, tgt := 0, list := 0, frames := [(0, 0x200000)] }
def pageState : State :=
  { coreState { k0 with ctx := 5, g := [(1, 8), (2, 9)], l1 := [(0x8000, 0)] } with
    ctxs := [(5, { part := 0, segs := [(0, pageSeg)] })], granA := 8, pot := [(1, { owned := true, needsScrub := false })],
    clusters := [(0, { lines := [(0x8000, { st := 4, stream := false, data := 0 })] })] }
def onPage : Xlat := { pa := 0x200008, target := 0, stream := false, seg := 0, page := 0, room := 0x1FFFF8 }

theorem test_translate : translate pageState 5 8 .rw = .ok onPage := by decide +kernel

theorem witness_ContextLoadsAndStores :
    CanIssue f0 pageState ∧ Calm pageState ∧ effAddr (pageState.core 0) 1 0 3 % 8 = 0 ∧ translate pageState 5 8 .read = .ok onPage ∧ onPage.target = 0 ∧
    kget (onPage.pa / 64) (pageState.core 0).l1 = some 0 ∧ translate pageState 5 8 .write = .ok onPage ∧
    (writePiece (whoCore pageState 0 .scalar) onPage 8 9 (tlbTouch 0 5 0 0 pageState)).1 = .ok 0 ∧
    translate pageState 5 0x200000 .read = .err fcNotMapped 0 :=
  ⟨⟨rfl, rfl, by decide, by decide, rfl⟩, ⟨rfl, rfl, rfl, rfl⟩, by decide +kernel⟩

theorem witness_BranchesAndJumps :
    CanIssue f0 (ab 4 2) ∧ (((ab 4 2).core 0).get 1 + BitVec.ofInt 64 0).toNat % 4 = 0 ∧ (((ab 4 2).core 0).get 2).toNat % 4 ≠ 0 ∧
    (let u := coreState { k0 with pc := 64 }; (u.core 0).run = true ∧ (u.core 0).blk = none ∧ u.power.shed < 4 ∧
      (u.core 0).codeSize ≤ (u.core 0).pc) := ⟨⟨rfl, rfl, by decide, by decide, rfl⟩, by decide +kernel⟩

theorem witness_AtomicResults : 60 % 4 = 0 ∧ 60 < 64 ∧ 56 % 8 = 0 ∧ 2 ^ 32 - 1 < 2 ^ 32 ∧ 2 ^ 64 - 1 < 2 ^ 64 := by decide +kernel

theorem witness_AtomicsInTheClusterCache :
    CanIssue f0 pageState ∧ Calm pageState ∧ (5 : BitVec 3).toNat ≤ 5 ∧ 3 ≤ (3 : BitVec 3).toNat ∧ (2 : BitVec 3).toNat ≤ 2 ∧ 8 % 8 = 0 ∧ (((pageState.core 0).get 1).toNat = 8) ∧ translate pageState 5 8 .rw = .ok onPage ∧
    onPage.stream = false ∧ kget (onPage.pa / 64) (pageState.cluster 0).lines = some { st := 4, stream := false, data := 0 } ∧
    kget (onPage.pa / 64) (pageState.cluster 0).reqs = none ∧
    kget (ansKey (whoCore pageState 0 .scalar).code onPage.pa)
      { pageState with ans := [(ansKey 1 0x200008, { status := 0, data := 7, poison := false })] }.ans =
      some { status := stOk, data := 7, poison := false } ∧ 9 % 4 ≠ 0 :=
  ⟨⟨rfl, rfl, by decide, by decide, rfl⟩, ⟨rfl, rfl, rfl, rfl⟩, by decide +kernel⟩

/-- A core with a granted vector command. -/
def busyVec : Core := { k0 with vec := { granted := some 0 } }

theorem witness_SystemInstructions :
    CanIssue f0 (coreState k0) ∧ k0.vec.idle = true ∧ k0.mtx.idle = true ∧ k0.dma.idle = true ∧ (sysRelease 1 (coreState k0)).1 = true ∧
    (0x003 : BitVec 12) ∉ [0x000, 0x001, 0x002, 0x010, 0x011, 0x020, 0x030] ∧ (busyVec.eng (engOf 0)).granted = some 0 :=
  ⟨⟨rfl, rfl, by decide, by decide, rfl⟩, by decide +kernel⟩

/-- A write to a window that no FENCE covers and whose port has none left to send: the release waits. -/
def writtenPort : State :=
  { coreState k0 with slPorts := [(0, { state := 4, peer := 9, reqs := [(0, { op := 1, who := 1, part := 0, peer := 9, ctx := 0, pa := 0, len := 64 })] })] }

theorem witness_SystemInstructions_waits : (sysRelease 1 writtenPort).1 = false ∧ CanIssue f0 writtenPort :=
  ⟨by decide, ⟨rfl, rfl, by decide, by decide, rfl⟩⟩

theorem witness_SemaphoresAndFifos :
    let x : Core := { busyVec with sems := [(2, 65535)], vec := { granted := some 0, fifo := List.replicate 31 0 } }
    let u := coreState { k0 with blk := some (.swait 2 5), sems := [(2, 5)] }
    CanIssue f0 (coreState x) ∧ (28 : BitVec 5).toNat = 4 * (6 + 1) ∧ (x.eng (engOf 0)).granted = some 0 ∧
    (x.eng (engOf 0)).fifo.length < 32 ∧ (65535 : BitVec 16).toNat ≤ x.sem 2 ∧ x.sem 3 < (1 : BitVec 16).toNat ∧ x.vec.checked = false ∧
    x.sem 3 + (65535 : BitVec 16).toNat ≤ 65535 ∧ 65535 < x.sem 2 + (1 : BitVec 16).toNat ∧ (1 : BitVec 16) ≠ 0 ∧
    u.power.shed < 4 ∧ (u.core 0).run = true ∧ (u.core 0).blk = some (.swait 2 5) ∧ 5 ≤ (u.core 0).sem 2 ∧ (u.core 0).vec.fifo = [] ∧
    ({ k0 with mtx := { done := [0] } }.eng (engOf 1)).done = 0 :: [] ∧ (k0.sem (cSigSem 0) + cSigCnt 0 ≤ 65535) ∧ engOf 2 = .dma ∧
    (coreState k0).posted = [] ∧ dAck 0 ≠ 5 :=
  ⟨⟨rfl, rfl, by decide, by decide, rfl⟩, by decide +kernel⟩

theorem witness_FaultsOfACore :
    ((coreState k0).core 0).run = true ∧ CanIssue f0 (coreState k0) ∧ (coreState k0).media = [] ∧ (1 : BitVec 6) ≠ 0 ∧
    ({ core := 0, parity := true } : Fetch).parity = true ∧ k0.pc < k0.codeSize := ⟨rfl, canIssue_k0, rfl, by decide +kernel⟩


/-! ### Witnesses: the queue and the machine -/

theorem witness_EmptyQueueTicks : State.reset.pending = [] ∧ up.pending = [] := by decide
theorem witness_CommandsLeaveTheQueue :
    exec (.add f0 0 0 0 1) State.reset = .next (nextOf (exec (.add f0 0 0 0 1) State.reset)) ∧
    step State.reset = .next (nextOf (step State.reset)) ∧
    step (up.withFront (.barrier 0 0)) = .next (nextOf (step (up.withFront (.barrier 0 0)))) := ⟨rfl, rfl, rfl⟩
theorem witness_TierMemoryStaysCanonical :
    MemoryCanonical State.reset ∧ Memory.wf [(7, 1), (2 ^ 55, 255)] = true ∧
    step State.reset = .next (nextOf (step State.reset)) := ⟨(by decide : Memory.wf [] = true), by decide, rfl⟩
theorem witness_FusesGoOneWay : step State.reset = .next (nextOf (step State.reset)) := rfl
/-! ### Vectors, matrices, DMA: results by hand from R67 to R71, R95 to R108, R78 -/

/-- A command of the words w3, w2, w1, w0. -/
def cmd (w3 w2 w1 w0 : BitVec 64) : BitVec 256 := w3 ++ w2 ++ w1 ++ w0
/-- A vector command of one group on VR1 and VR2, with result in VR3, and its immediate. -/
def vreg (op : Nat) (imm : BitVec 64 := 0) : BitVec 256 :=
  cmd imm 0x1_0550_0000 0 (BitVec.ofNat 64 (op + 3 * 2 ^ 32 + 1 * 2 ^ 37 + 2 * 2 ^ 42 + 1 * 2 ^ 47))
/-- The same with A from the stall stream at `a`. -/
def vstall (op a : Nat) (imm : BitVec 64 := 0) : BitVec 256 :=
  cmd imm 0x1_0540_0000 (BitVec.ofNat 64 a) (BitVec.ofNat 64 (op + 3 * 2 ^ 32 + 2 * 2 ^ 42 + 1 * 2 ^ 47))
/-- Core 0 with a granted vector command. -/
def vecState (w : BitVec 256) : State := coreState { k0 with vec := { granted := some w }, vregs := [(1, 5), (2, 7)] }
def vr3 (i : Instr) (s : State) : Nat := (((nextOf (exec i s)).core 0).vget 3).toNat

def vecOps : List Nat :=
  [0x01, 0x02, 0x03, 0x04, 0x05, 0x06, 0x08, 0x10, 0x11, 0x12, 0x13, 0x14, 0x15, 0x16, 0x17, 0x18, 0x19, 0x1A, 0x20, 0x30, 0x40,
   0x50, 0x51, 0x52]

theorem test_viadd : vr3 (.viadd 0 .clean) (vecState (vreg 0x10)) = 12 := by decide +kernel
theorem test_visub_wraps : vr3 (.visub 0 .clean) (vecState (vreg 0x11)) = 2 ^ 32 - 2 := by decide +kernel
theorem test_vadd_one : (add32 0 (decodeFlt fp32 0x3F800000) (decodeFlt fp32 0x3F800000)).code = 0x40000000 := by decide +kernel
theorem test_vmul_rounds : (mul32 0 (decodeFlt fp32 0x3F800001) (decodeFlt fp32 0x3F800001)).code = 0x3F800002 := by decide +kernel
theorem test_vadd_overflow : (add32 0 (decodeFlt fp32 0x7F7FFFFF) (decodeFlt fp32 0x7F7FFFFF)).code = 0x7F800000 := by decide +kernel
theorem test_sqrt_two : (vsf 2 0 true 0x40000000).code = 0x3FB504F3 := by decide +kernel
theorem test_recip_three : (vsf 0 0 true 0x40400000).code = 0x3EAAAAAB := by decide +kernel

theorem witness_VectorSources :
    (0 : Nat) < 64 ∧ vSel (vstall 0x01 0) 0 ≤ 1 ∧ (vSizes (vreg 0x01)).1 = 4 ∧
    (vecOps.all fun op => let w := vstall op 0xFFFE0
      cOp w == op && vCount w == 1 && match vUses (cOp w) with
        | some u => vInBounds w u == false
        | none => false) = true ∧
    ((List.range 12).all fun k => vImm (vstall 0x40 0xFFFE0 (BitVec.ofNat 64 k)) == k) = true ∧
    ((vecState (vstall 0x01 0xFFFE0)).core 0).run = true ∧
    ((vecState (vstall 0x01 0xFFFE0)).core 0).vec.granted = some (vstall 0x01 0xFFFE0) := by decide +kernel

/-- Every opcode, within bounds: the last group of stall memory for A. -/
theorem witness_VectorOperations :
    (vecOps.all fun op => let w := vstall op 0xFFF00
      cOp w == op && ((vecState w).core 0).vec.granted == some w && match vUses (cOp w) with
        | some u => vInBounds w u == true && vOverlap w u == false
        | none => false) = true := by decide +kernel
theorem witness_VectorIntegersAndMoves : ((vecState (vreg 0x10)).core 0).run = true ∧
    ((vecState (vreg 0x10)).core 0).vec.granted = some (vreg 0x10) ∧ vUses (cOp (vreg 0x10)) = some [0, 1] ∧
    vInBounds (vreg 0x10) [0, 1] = true ∧ vOverlap (vreg 0x10) [0, 1] = false := by decide +kernel
theorem witness_VectorFloatsAndConversions : ((vecState (vreg 0x40 11)).core 0).run = true ∧
    ((vecState (vreg 0x40 11)).core 0).vec.granted = some (vreg 0x40 11) ∧ vUses (cOp (vreg 0x40 11)) = some [0] ∧
    vInBounds (vreg 0x40 11) [0] = true ∧ vOverlap (vreg 0x40 11) [0] = false ∧ cOp (vreg 0x40 11) = 0x40 ∧ vImm (vreg 0x40 11) = 11 := by
  decide +kernel
theorem witness_FloatSpecialValues : (decodeFlt fp32 0x3F800000).isNan = false := by decide +kernel

/-- VQUANT of one row at 0 to 0x200, policy register 4. -/
def vq (count : Nat) : BitVec 256 :=
  cmd (3 + 3 * 2 ^ 56) (BitVec.ofNat 64 (0x200 + 1 * 2 ^ 22 + 3 * 2 ^ 24 + count * 2 ^ 32)) 0 (BitVec.ofNat 64 (0x60 + 4 * 2 ^ 42))
/-- VDEQ of a tile at 0 to 0x200. -/
def vd : BitVec 256 := cmd 0 (BitVec.ofNat 64 (0x200 + 3 * 2 ^ 22 + 3 * 2 ^ 24 + 1 * 2 ^ 32)) 0 0x61

theorem witness_QuantizingStoreAndLoad :
    cOp (vq 1) = 0x60 ∧ vectorOk (vq 1) = true ∧ quantReq (vq 1) (8 * 2 ^ 96) 0 = none ∧ (quantReq (vq 0) 0 0).isSome = true ∧
    vCount (vq 0) = 0 ∧ ((quantReq (vq 1) 0 0).any fun q => q.rows == 1 && vCount (vq 1) == 1 && widest q ≤ 32 * vStrD (vq 1) &&
        vAddr (vq 1) 0 + 128 * q.rows ≤ 0x100000 && vAddrD (vq 1) + widest q ≤ 0x100000 &&
        !overlaps (vAddr (vq 1) 0) (128 * q.rows) (vAddrD (vq 1)) (widest q)) = true ∧
    cOp vd = 0x61 ∧ vectorOk vd = true ∧ vCount vd = 1 ∧ vAddr vd 0 + 32 ≤ 0x100000 ∧ headerOf 0 = none ∧
    (headerOf (3 + 2 ^ 8 + 0x3F800000 * 2 ^ 32)).map (fun h => (h.1, h.2.2.1)) = some (3, 1) ∧
    overlaps 0 (tileSize 3 1) (vAddrD vd) 128 = false := by decide +kernel

/-- A matrix command of format 1: K, M and N, operands at 0, accumulators at 0x1000. -/
def mx (op k m n : Nat) : BitVec 256 :=
  cmd 0 (BitVec.ofNat 64 (n + k * 2 ^ 16 + m * 2 ^ 22 + (if op = 2 then 32 * 2 ^ 32 + 128 * 2 ^ 48 else 0))) (BitVec.ofNat 64 (if op = 2 then 0x1000 * 2 ^ 40 else 0))
    (BitVec.ofNat 64 (op + 1 * 2 ^ 32 + 1 * 2 ^ 36))

theorem witness_MatrixArray :
    ((coreState { k0 with mtx := { granted := some (mx 1 32 32 0) } }).core 0).mtx.granted = some (mx 1 32 32 0) ∧
    ([mx 1 32 32 0, mx 1 0 32 0, mx 2 32 32 2, mx 2 1 1 0].all fun w => mK w ≤ 32 && mM w ≤ 32 && matrixOk none w &&
      matrixInBounds w) = true ∧
    mK (mx 1 32 32 0) = 32 ∧ mM (mx 1 32 32 0) = 32 ∧ mK (mx 1 0 32 0) = 0 ∧ mN (mx 2 1 1 0) = 0 ∧ mN (mx 2 32 32 2) = 2 := by
  decide +kernel
theorem witness_MatrixArray_noSwatch :
    swatchRate 0 { coreState k0 with regs := [(0x100200, 0)] } = 0 ∧ mmacOverlap (mx 2 32 32 2) = false := by decide +kernel

/-- A COPY (or FILL) of rows of 16 bytes, stride 16, within stall memory. -/
def dm (fill : Bool) (rows src dst : Nat) : BitVec 256 :=
  cmd (BitVec.ofNat 64 (16 + rows * 2 ^ 24 + 16 * 2 ^ 40)) (BitVec.ofNat 64 dst) (BitVec.ofNat 64 src)
    (BitVec.ofNat 64 (1 + 1 * 2 ^ 35 + (if fill then 2 ^ 34 else 16 * 2 ^ 40)))
def dmState (w : BitVec 256) : State := coreState { k0 with dma := { granted := some w }, stall := [(0, 9)] }

theorem test_copy_moves : ((nextOf (exec (.copy 0 .clean []) (dmState (dm false 2 0 0x100)))).core 0).stall = [(0, 9), (0x100, 9)] := by
  decide +kernel

/-- A request of core 0's partition for a granule that is owned and clean, and one for a granule nobody owns. -/
def home1 : State :=
  { coreState k0 with granA := 8, pot := [(1, { owned := true, needsScrub := false })], keys := [(0, { state := 1 })] }

theorem witness_DmaCopies :
    ((dmState (dm false 0 0 0x100)).core 0).run = true ∧ (dmState (dm false 0 0 0x100)).power.shed < 4 ∧
    dRows (dm false 0 0 0x100) = 0 ∧ dmaOk (dm true 2 5 0x100) = true ∧ dFill (dm true 2 5 0x100) = true ∧
    dFill (dm false 1 0xFFFF8 0) = false ∧ dmaInBounds (dm false 1 0xFFFF8 0) = false ∧ dmaInBounds (dm false 1 0xFFFF0 0) = true ∧
    (dmaRun 0 (dm false 2 0 0x100) 2 35 0 0 (dmState (dm false 2 0 0x100))).1 = .done ∧
    dRows (dm false 2 0 0x100) = 2 ∧ dRowBytes (dm false 2 0 0x100) = 16 ∧ dSrcCtx (dm false 2 0 0x100) = false ∧
    dDstCtx (dm false 2 0 0x100) = false ∧ overlaps 0x100 16 0x110 16 = false ∧ overlaps 0x100 16 16 16 = false ∧
    homeRefusal { homeMsg .wrPartial 0x200000 false with part := 0, ctx := 0 } home1 = none ∧
    homeRefusal { homeMsg .wrPartial 0x400000 false with part := 0, ctx := 0 } home1 = some stNotPermitted ∧
    ((dmState (dm false 2 0 0x100)).core 0).dma.pos = 0 ∧ ((dmState (dm false 2 0 0x100)).core 0).dma.carry = (0, 0) ∧
    home1.posted = [] ∧
    (let p : Posted := { cluster := some 0, ctx := 0, part := 0, va := 0, pa := 0x400010, seg := 0, stream := false, target := 0, len := 4, val := 0, eng := 3 }
     { home1 with posted := [(3, p)] }.posted = [(3, p)] ∧ p.cluster.isSome = true ∧ p.core = 0 ∧ p.pa / 64 = 0x400000 / 64) := by decide +kernel

/-- A captured pair of one finite product, and one that is not finite. -/
def pair1 : Swatch := { n := 0, m := 0, a := [1], w := [1], d := 1, finite := true }

theorem witness_SwatchChecks :
    let far (v : Nat) : Option Rat := finite32 ((fma32 0 (decodeFlt fp32 v) (.fin false 1)
      (decodeFlt fp32 ((recompute pair1.a pair1.w 0 0).1 ^^^ 2 ^ 31))).code % 2 ^ 31)
    (coreState { k0 with swatch := [pair1] }).core 0 = { k0 with swatch := [pair1] } ∧ k0.swatch = [] ∧
    swatchFinite pair1 = true ∧ swatchFinite { pair1 with finite := false } = false ∧ finite32 0x3F800000 = some 1 ∧
    finite32 0x40000000 = some 2 ∧ finite32 (recompute pair1.a pair1.w 0 0).1 = some 1 ∧
    finite32 (recompute pair1.a pair1.w 0 0).2 = some 1 ∧ far 0x3F800000 = some 0 ∧ far 0x40000000 = some 1 ∧
    finite32 (fma32 0 (.fin false (p2 (-18))) (decodeFlt fp32 (recompute pair1.a pair1.w 0 0).2) (.fin false (p2 (-126)))).code =
      some (1 / 262144) ∧ (0 : Rat) ≤ 1 / 262144 ∧ (1 : Rat) / 262144 < 1 ∧ strikesOf (coreState k0) 0 (slotOf (coreState k0) 0) = [] ∧
    strikesOf { coreState k0 with rep := { records := [{ kind := 8, source := 2, unit := 0, slot := 0, seconds := 3 }] } } 0 0 = [3] := by
  decide +kernel

/-! ### Witnesses: homes and cluster caches -/

/-- A request of cluster 0 for the first line of granule 1, and of granule 2, which nobody owns. -/
def rq : Msg := { op := .rdShared, src := 0, dst := 0xD0, addr := 0x200000 }
def rq2 : Msg := { rq with addr := 0x400000 }
def allOps : List MOp := [.rdShared, .rdUnique, .upgrade, .rdOnce, .wrFull, .wrPartial, .atomic, .wbDirty, .evictClean]

theorem homesOpen_home1 : HomesOpen home1 := ⟨rfl, rfl, by simp [home1, coreState, State.reset]⟩
/-- A new request, and one in flight. -/
theorem brings_new : Brings .rdShared rq home1 { rq with dst := homeAgent 0x8000 }
    ({ home1 with reqTxn := [(0, 0x8000)] }.setCluster 0 { reqs := [(0x8000, 1)] }) := by
  refine .inr ⟨by decide +kernel, ?_⟩
  decide +kernel
theorem brings_flight (op : MOp) : Brings op rq { home1 with net := [{ rq with op }] } { rq with op } home1 := by
  refine .inl ?_
  cases op <;> simp [mayArrive, takeMsg, home1, coreState, State.reset]

theorem witness_HomeServesFreeLines :
    HomesOpen home1 ∧ LineIdle 0x8000 home1 ∧ LineSound 0x8000 [] home1 ∧
    Brings .rdShared rq home1 { rq with dst := homeAgent 0x8000 }
      ({ home1 with reqTxn := [(0, 0x8000)] }.setCluster 0 { reqs := [(0x8000, 1)] }) ∧
    (∀ op, Brings op rq { home1 with net := [{ rq with op }] } { rq with op } home1) ∧
    rq.src.toNat < 200 ∧ (home1.line 0x8000).dir = none ∧ dirCount (homeOf 0x200000) home1 < 16 ∧
    ((allOps.filter (· != .atomic)).all fun op => homeRefusal { rq with op } home1 == none &&
      homeRefusal { rq with op, noE := true } home1 == none) = true ∧
    homeRefusal { rq with op := .atomic, aux := 0x31, addr := 0x200038 } home1 = none :=
  ⟨homesOpen_home1, ⟨by decide, by decide, by decide⟩, ⟨by decide, by decide +kernel, by simp⟩, brings_new, brings_flight,
    by decide +kernel⟩

theorem witness_HomeRefusals :
    home1.media = [] ∧ (allOps.all fun op => homeRefusal { rq2 with op } home1 == some stNotPermitted) = true ∧
    (takeMsg { rq2 with op := .wbDirty } { home1 with net := [{ rq2 with op := .wbDirty }] }.net).1 = true ∧
    (takeMsg { rq2 with op := .evictClean } { home1 with net := [{ rq2 with op := .evictClean }] }.net).1 = true ∧
    (takeMsg rq2 [{ rq2 with txn := 1 }, rq2]).1 = true ∧ mayArrive rq2 { home1 with net := [{ rq2 with txn := 1 }, rq2] } = false ∧
    (takeMsg rq2 home1.net).1 = false ∧ newRequest rq2 { home1 with reqTxn := [(0, 7)] } = none ∧
    home1.populated 0x1000000 = false ∧ home1.populated 0xFFFFFF = true ∧ (home1.gran 2).owned = false ∧
    (home1.gran 1).hub = false ∧ (home1.gran 1).owned = true ∧ (home1.gran 1).owner = rq.part ∧ (home1.gran 1).struct = false ∧
    (home1.gran 1).needsScrub = false ∧ ((kget (home1.gran 1).keySlot.val home1.keys).getD {}).state = 1 ∧
    ({ rq with stream := true }).stream = true ∧ rq.hubAgent = false := by decide +kernel

/-- Cluster 1 owns the line; the line waits for its answer to a request; the line waits for the requester's ACK. -/
def heldLine : State := home1.setLine 0x8000 { dir := some { owner := some 1 } }
def waitLine (op : MOp) : State :=
  home1.setLine 0x8000 { dir := some { owner := some 1 }, tx := some { req := { rq with op }, waiting := [1] } }
def ackLine : State := home1.setLine 0x8000 { tx := some { req := rq, ackOf := some .S } }

theorem witness_HomeSnoopsHolders :
    1 ≠ rq.src.toNat ∧ rq.stream = false ∧ (heldLine.line 0x8000).dir = some { owner := some 1 } ∧ (heldLine.line 0x8000).tx = none ∧
    HomesOpen heldLine ∧ LineIdle 0x8000 heldLine ∧ heldLine.media = [] ∧
    ([MOp.rdShared, .rdUnique, .upgrade, .rdOnce, .wrFull].all fun op => homeRefusal { rq with op } heldLine == none) = true ∧
    mayArrive { rq with op := .snpData, src := 1, state := .O } { waitLine .rdShared with net := [{ rq with op := .snpData, src := 1, state := .O }] } = true ∧
    LineSound 0x8000 [] (waitLine .rdShared) ∧ mayArrive { rq with op := .ack } { ackLine with net := [{ rq with op := .ack }] } = true ∧
    ((home1.setLine 0x8000 { dir := some { owner := some 0 } }).line 0x8000).dir = some { owner := some rq.src.toNat } ∧
    ((waitLine .rdShared).line 0x8000).tx = some { req := { rq with op := .rdShared }, waiting := [1] } ∧
    ((waitLine .rdUnique).line 0x8000).tx = some { req := { rq with op := .rdUnique }, waiting := [1] } ∧
    (({ rq with src := 1, state := .O } : Msg)).src.toNat = 1 ∧ ((waitLine .rdShared).line 0x8000).poison = false ∧
    (ackLine.line 0x8000).tx = some { req := rq, ackOf := some .S } ∧ (ackLine.line 0x8000).queue = [] := by
  have h : HomesOpen heldLine := ⟨by decide, by decide, by decide +kernel⟩
  have i : LineIdle 0x8000 heldLine := ⟨by decide, by decide, by decide⟩
  have l : LineSound 0x8000 [] (waitLine .rdShared) := ⟨by decide, by decide +kernel, by simp⟩
  exact ⟨by decide, by decide, by decide +kernel, by decide +kernel, h, i, by decide, by decide +kernel, by decide +kernel, l, by decide +kernel⟩

/-- Cluster 0 holds the line in a state; the hold time runs or not. -/
def cl (st : Nat) (hold : Bool) : CLine := { st, stream := false, data := 5, hold }
def clState (l : CLine) (r : KV Nat) : State := State.reset.setCluster 0 { lines := [(0x8000, l)], reqs := r }
def snp : Msg := { op := .snpShared, src := 0xD0, dst := 0, addr := 0x200000 }

theorem witness_ClusterAnswersSnoops :
    (clState (cl 4 false) []).moves = [] ∧ (clState (cl 4 false) []).posted = [] ∧ (clState (cl 4 false) []).media = [] ∧
    mayArrive snp { clState (cl 4 false) [] with net := [snp] } = true ∧
    (cl 4 true).due = 0 ∧ engineWaits 0 0x8000 (clState { cl 4 true with due := 2 } []) = false ∧
    engineWaits 0 0x8000 { clState { cl 4 true with due := 2 } [] with asked := [(1 * 2 ^ 48 + 0x8000, 0)] } = true ∧ snp.dst.toNat = 0 ∧ snp.addr.toNat / 64 = 0x8000 ∧
    ¬(200 ≤ snp.src.toNat ∧ snp.src.toNat ≤ 203) ∧
    ([1, 2, 3, 4].all fun st => kget 0x8000 ((clState (cl st false) []).cluster 0).lines == some (cl st false)) = true ∧
    kget 0x8000 ((clState (cl 4 false) []).cluster 0).reqs = none ∧
    kget 0x8000 ((clState (cl 4 false) [(0x8000, 7)]).cluster 0).reqs = some 7 ∧
    kget 0x8000 ((clState (cl 1 true) []).cluster 0).lines = some (cl 1 true) ∧
    kget 0x8000 (State.reset.cluster 0).lines = none ∧
    kget (0 * 2 ^ 48 + 0x8000) { clState (cl 1 true) [] with heldSnp := [(0x8000, { snp with op := .snpInv })] }.heldSnp =
      some { snp with op := .snpInv } := by decide +kernel

/-- Cluster 0 owns the line, in its home's directory and in its cache. -/
def ownLine (st : Nat) : State :=
  (home1.setLine 0x8000 { dir := some { owner := some 0 } }).setCluster 0 { lines := [(0x8000, cl st false)] }
def dieRead : ApReq := { who := 1, pa := 0, data := true }

theorem witness_ClusterTakesRepliesAndEvicts :
    (∀ st ∈ [2, 4], kget 0x8000 ((ownLine st).cluster 0).lines = some (cl st false)) ∧ (ownLine 4).net = [] ∧
    HomesOpen (ownLine 4) ∧ LineIdle 0x8000 (ownLine 4) ∧ (ownLine 4).reqTxn = [] ∧ (ownLine 4).changes = [] ∧ snp.fwd = none ∧ snp.who = 0 ∧
    mayArrive { snp with op := .data, state := .S } { ownLine 4 with net := [{ snp with op := .data, state := .S }] } = true ∧
    mayArrive { snp with op := .cmp } { ownLine 4 with net := [{ snp with op := .cmp }] } = true ∧
    mayArrive { snp with op := .grant } { ownLine 4 with net := [{ snp with op := .grant }] } = true ∧
    (newRequest { rq with op := .wbDirty } (ownLine 4)).isSome = true ∧ (newRequest { rq with op := .evictClean } (ownLine 2)).isSome = true ∧
    (kget 0x8000 ((ownLine 4).cluster 0).reqs = none) ∧ ((ownLine 4).line 0x8000).dir = some { owner := some 0 } ∧
    homeRefusal { rq with op := .wbDirty, data := 5 } (ownLine 4) = none ∧
    homeRefusal { rq with op := .evictClean, data := 0 } (ownLine 2) = none ∧
    ({ snp with state := .S, src := 0xD0 } : Msg).state ≠ .I ∧ ({ snp with dst := 0xFF, who := 3 } : Msg).dst.toNat = 0xFF ∧
    kget 5 ((State.reset.setSite 3 { apq := [(5, dieRead)] }).site 3).apq = some dieRead ∧
    ({ snp with src := 203, txn := 5 } : Msg).src.toNat = 200 + (3 : Fin 4).val ∧ ({ snp with dst := 0xFF } : Msg).dst = dieRead.src ∧ snp.state = .I ∧
    snp.aux.toNat ≤ 0x13 ∧ ({ snp with addr := 0 } : Msg).addr.toNat = dieRead.pa / 64 * 64 := by
  have h : HomesOpen (ownLine 4) := ⟨by decide, by decide, by decide +kernel⟩
  have i : LineIdle 0x8000 (ownLine 4) := ⟨by decide, by decide, by decide⟩
  exact ⟨by decide +kernel, by decide, h, i, by decide +kernel⟩

/-! ### Witnesses: controllers, contexts, segments, mappings -/

theorem test_stack_step : ((nextOf (exec (.stackTemperatureReport 3 95 false) State.reset)).ctl 3).step = 1 := by decide +kernel
theorem test_stack_step5 : ((nextOf (exec (.stackTemperatureReport 3 107 false) State.reset)).ctl 3).step = 5 := by decide +kernel

theorem witness_StackThermalSteps :
    ((State.reset.setCtl 15 { step := 5 }).ctl 15).step = 5 ∧ (State.reset.ctl 15).step ≠ 5 := by decide

/-- A controller in slot 63 whose table is all partition 2's. -/
def tdm (step : Nat) : State := State.reset.setCtl 0 { slot := 63, table := List.replicate 64 2, step }
def req (asks : BitVec 2) (budget : BitVec 16) (part : Fin 8) (port : Fin 18 := 8) : CtlReq :=
  { part, port, asks, write := false, budget, path := [], eligible := true, whole := true }

theorem witness_ControllerSlots :
    ((tdm 0).ctl 0).slot + 1 = 64 ∧ (0 : Nat) < slotCap 0 ∧ (∀ w, 2 ≤ sharedEntries 0 w (tdm 0)) ∧ (req 2 0 2).eligible = true ∧
    (req 2 0 2).part.val = 2 ∧ reqClass (req 2 0 2) (tdm 0) ≠ 1 ∧ reqClass (req 1 4 2) (tdm 0) = 1 ∧ reqClass (req 1 4 2 7) (tdm 0) = 2 ∧
    budgetLeft (req 1 4 2) < budgetLeft (req 1 5 2) ∧ (req 3 0 1).part.val ≠ 2 ∧ reqClass (req 3 0 1) (tdm 0) = 3 ∧
    budgetLeft { req 1 2 2 with path := [.hop, .spine] } = 0 ∧ (req 1 2 2).path = [] ∧
    budgetLeft { req 1 2 2 with path := [.wait 1 2000] } = 1 ∧ budgetLeft { req 1 2 2 with path := [.wait 1 4000] } = 1 ∧
    (let c := (State.reset.setCtl 0 { slot := 62, table := List.replicate 64 2, step := 1 }).ctl 0
     slotCap c.step ≤ (c.slot + 1) % 64 ∧ c.table[63]? = some 2 ∧ (req 1 2 2).whole = true) := by decide +kernel
theorem witness_ControllerSlots_full :
    let s : State := { State.reset with regs := (List.range 4).map fun p => (ptBase p + 0x110, if p = 2 then 0 else 0x40) }
    reservedEntries 0 false 2 s = 0 ∧ sharedEntries 0 false s = 0 := by decide +kernel

theorem witness_PatrolHeatAndMissWindows :
    home1.populated (64 * 0x3FFFF) = true ∧ home1.populated (64 * 0x40000) = false ∧ tierOf (64 * 0x3FFFF) = 0 ∧
    isFine (granOf (64 * 0x3FFFF)) home1 = false ∧ isFine 3 { home1 with regs := [(qdBase 0 + 0x300, 8)] } = true ∧
    home1.offline.length < 4096 ∧ kget 1 home1.corr = none ∧ home1.ctxs = [] ∧ home1.autos = [] ∧
    (kget (8 * 1 + 7) { home1 with heat := [(15, 3)] }.heat).isSome = true ∧
    State.reset.miss = [] ∧ State.reset.ctls = [] ∧
    (let c : Ctl := { table := [2], short := [(2, (1, 3))] }
     c.table.contains 2 = true ∧ bits ({ State.reset with regs := [(0x102120, 0)] }.reg 0x102120 1) 23 8 < 1 ∧
     { State.reset with regs := [(0x102120, 0)] }.reg 0x102120 1 % 2 = 0) := by decide +kernel

theorem witness_PacketHeaderChecks :
    ({ pk 8 with partition := 8 } : Pkt).partition.toNat > 7 ∧ (pk 8).partition.toNat < 8 ∧ State.reset.co.ready = false ∧
    State.reset.rst.inProgress = false ∧ { State.reset with rst := { inProgress := true } }.rst.inProgress = true ∧ up.co.ready = true ∧
    { up with sec := { lc := 4 } }.sec.lc = 4 ∧ up.sec.lc ≠ 4 ∧ up.sec.lc ≠ 7 ∧ 4 ≤ { up with power := { shed := 4 } }.power.shed ∧
    up.power.shed < 4 ∧ (({ up with parts := [(0, { resetting := some none })] }.part 0).resetting.isSome = true) ∧
    (up.part 0).resetting = none ∧ (pk 12).paramLen ≠ 8 ∧ ({ pk 8 with rsv := some 34 } : Pkt).rsv = some 34 ∧
    kget ({ pk 8 with txn := 1 } : Pkt).txn.toNat up.txns = none := by decide
theorem witness_PacketHeaderChecks_staged : ServedFor { { pk 8 with txn := 1 } with txn := 0 } { up with
      txns := [(1, { scope := 0, path := .board, idleMs := 1000, beginGen := 0 })] } ∧
    lowestId 1 1048576 (fun i => (up.ctx i).isSome) up = some 0 :=
  ⟨servedFor_of (by decide), by decide +kernel⟩
theorem witness_PacketHeaderChecks_order :
    State.reset.changes = [] ∧ State.reset.accepted.takeWhile (fun a => !samePkt a.pkt (pk 8)) = [] ∧
    (let a : Accepted := { pkt := { pk 8 with path := .ring, seq := 3, serial := true }, opcode := 1 }
     let p := { pk 8 with path := .ring, seq := 4 }
     a ∈ [a].takeWhile (fun a => !samePkt a.pkt p) ∧ a.pkt.path = p.path ∧ a.pkt.serial = true ∧
     p.serial = false) := by decide

theorem witness_RepliesReachTheirSender :
    (pk 8).notify = false ∧ ({ pk 8 with path := .ring } : Pkt).path = .ring ∧ up.cmd.doneAddr = 0 ∧ (pk 8).path ≠ .ring := by decide

/-- A ready hub with a structure granule of partition 0 and an ACTIVE key slot of it. -/
def upS : State :=
  { up with granA := 8, pot := [(2, { owned := true, needsScrub := false, struct := true })], keys := [(0, { state := 1 })],
            parts := [(0, { laidOut := true, quota := [(0, 8)] })] }
theorem servedFor_upS (n : BitVec 16) : ServedFor (pk n) upS :=
  servedFor_pk n rfl rfl (by decide) (by decide) rfl ⟨rfl, rfl, rfl, rfl⟩ (by decide) ⟨rfl, rfl⟩
def withCtx (k : Ctx) : State := { upS with ctxs := [(5, k)] }
theorem servedFor_ctx (k : Ctx) (n : BitVec 16) : ServedFor (pk n) (withCtx k) :=
  servedFor_pk n rfl rfl (by decide : (0 : Nat) ≠ 4 ∧ (0 : Nat) ≠ 7) (by decide : (0 : Nat) < 4) rfl ⟨rfl, rfl, rfl, rfl⟩
    (by decide : ∀ q ∈ ([] : KV Queue), q.2.stopping = none) ⟨rfl, rfl⟩

theorem witness_ContextCommands :
    (∀ n, ServedFor (pk n) upS) ∧ (∀ k n, ServedFor (pk n) (withCtx k)) ∧ (pk 8).paramLen = 8 ∧ alloc 0 64 64 up = none ∧
    (alloc 0 64 64 upS).map (·.1) = some 0x400000 ∧
    ((alloc 0 64 64 upS).bind fun x => (alloc 0 2048 64 x.2).map (·.1)) = some 0x400040 ∧ upS.ctx 0 = none ∧
    (2 ^ 32 + 0 ∉ upS.reservedIds) ∧ upS.ctx 5 = none ∧ (withCtx { part := 1 }).ctx 5 = some { part := 1 } ∧
    (withCtx { part := 0, state := 2 }).ctx 5 = some { part := 0, state := 2 } ∧ ({ part := 0, refc := 2 } : Ctx).inst = none ∧
    (1 < ({ part := 0, refc := 2 } : Ctx).refc) ∧ ({ part := 0 } : Ctx).refc = 1 ∧ ({ part := 0 } : Ctx).segs = [] ∧
    (∀ e ∈ upS.cores, e.2.prevCtx ≠ some 5) ∧ ({ part := 0 } : Ctx).abandon = 0 ∧ ({ part := 0 } : Ctx).abandonFor = none ∧
    ({ part := 0, abandon := 9 } : Ctx).abandon = 9 ∧
    (({ part := 0, abandon := 2, abandonFor := some (hk 8) } : Ctx).abandonFor = some (hk 8) ∧ samePkt (hk 8) { pk 8 with path := .ring } = false) ∧
    (let k : Ctx := { part := 0, state := 1, cause := 1 }
     k.created = true ∧ k.refc = 1 ∧ k.segs = [] ∧ k.inst = none ∧ k.abandon = 0 ∧ k.abandonFor = none) ∧
    upS.cores = [] ∧ upS.launches = [] ∧ upS.queues = [] ∧ upS.fences = [] ∧ upS.posted = [] ∧ upS.halted = false :=
  ⟨servedFor_upS, servedFor_ctx, by decide +kernel⟩

/-- A descriptor of one page of tier frames at the last page below 2^56, and one of host space. -/
def segD : BitVec 256 := BitVec.ofNat 256 (1 + 2 + (2 ^ 56 - 0x200000) * 2 ^ 64 + 1 * 2 ^ 128)
def segH : BitVec 256 := BitVec.ofNat 256 (1 + 2 + 2 ^ 8 + 1 * 2 ^ 128)

/-- A posted write of cluster 3 under segment 0 of context 5. -/
def posted3 : Posted :=
  { cluster := some 3, ctx := 5, part := 0, va := 0, pa := 0, seg := 0, stream := false, target := 1, len := 64, val := 0, eng := 3 }

theorem witness_StructureSpaceAndSegments :
    ((alloc 0 8 64 upS).map (·.1)).isSome = true ∧ (∀ k n, ServedFor (pk n) (withCtx k)) ∧ segForm segD.toNat = none ∧
    segForm segH.toNat = none ∧ (segOfWord segD.toNat).target = 0 ∧ (segOfWord segH.toNat).target = 1 ∧
    (0 : BitVec 256).getLsbD 0 = false ∧ kget 63 ({ part := 0 } : Ctx).segs = none ∧
    (kget 0 ({ part := 0, segs := [(0, pageSeg)] } : Ctx).segs).isSome = true ∧ pageSeg.target = 0 ∧ pageSeg.frames ≠ [] ∧
    0 < ({ pageSeg with refc := 1 }).refc ∧ ({ pageSeg with frames := [] }).frames = [] ∧ ({ pageSeg with frames := [] }).refc = 0 ∧
    overlaps (segOfWord segD.toNat).base 0x200000 pageSeg.base 0x200000 = false ∧
    (alloc 0 (alignUp (8 * 1) 64) 64 (withCtx { part := 0 })).isSome = true ∧
    busyClusters 5 0 0 (withCtx { part := 0 }) = [] ∧
    busyClusters 5 0 0 { State.reset with posted := [(9, posted3)] } = [3] :=
  ⟨by decide +kernel, servedFor_ctx, by decide +kernel⟩

/-- A context with a free page, and granule 1 owned. -/
def mapState (g : Segment) : State :=
  { withCtx { part := 0, segs := [(0, g)] } with pot := [(1, { owned := true, needsScrub := false })] }
theorem servedFor_map (g : Segment) (n : BitVec 16) : ServedFor (pk n) (mapState g) :=
  servedFor_pk n rfl rfl (by decide : (0 : Nat) ≠ 4 ∧ (0 : Nat) ≠ 7) (by decide : (0 : Nat) < 4) rfl ⟨rfl, rfl, rfl, rfl⟩
    (by decide : ∀ q ∈ ([] : KV Queue), q.2.stopping = none) ⟨rfl, rfl⟩
def shoot1 (w : List Nat) : Shoot := { pkt := pk 16, ctx := 5, seg := 0, started := true, pages := [(0, 0x200000)], waiting := w }
/-- The state in which a coherent request of cluster 1 is in flight under generation 0. -/
def flight1 : State := { mapState pageSeg with asked := [(1 * 2 ^ 48 + 3, flightTag 5 0 0)] }

theorem witness_MappingAndGranules :
    (∀ g n, ServedFor (pk n) (mapState g)) ∧ (mapState pageSeg).ctx 5 = some { part := 0, segs := [(0, pageSeg)] } ∧
    (0 < pageSeg.len) ∧ 0x200000 % 0x200000 = 0 ∧ (mapState pageSeg).shoots = [] ∧ kget 0 ({ pageSeg with frames := [] }).frames = none ∧
    granRefusal 0 false 1 (mapState pageSeg) = none ∧ (kget 0 pageSeg.frames).isSome = true ∧
    (mapState pageSeg).populated 0x400000 = true ∧ isFine 2 (mapState pageSeg) = false ∧ ((mapState pageSeg).gran 2).owned = false ∧
    0 + 1 ≤ segPages pageSeg ∧ busyClusters 5 0 0 (mapState pageSeg) = [] ∧ busyClusters 5 0 0 flight1 ≠ [] ∧
    pageMoves 5 0 0 1 (mapState pageSeg) = false ∧
    pageMoves 5 0 0 1 { mapState pageSeg with moves := [{ part := 0, src := 1, dst := 2, g1 := false, maps := [(5, 0, 0)], from_ := none }] } = true ∧
    (shoot1 []).saved = none ∧ (shoot1 []).started = true ∧ (kget 0 (shoot1 []).pages).isSome = true ∧
    (mapState pageSeg).moves = [] ∧ (mapState pageSeg).halted = false ∧ (mapState pageSeg).lines.any (dieHolds 1 1) = false ∧
    ((mapState pageSeg).gran 1).inMotion = false ∧ ((mapState pageSeg).gran 1).struct = false ∧
    (199 ∈ (shoot1 [0, 199]).waiting ∧ (shoot1 [0, 199]).waiting.filter (· ≠ 199) ≠ [] ∧ (shoot1 [199]).waiting.filter (· ≠ 199) = []) ∧
    activeSlot 0 (mapState pageSeg) = some 0 ∧ ((mapState pageSeg).gran 7).hub = false ∧ (mapState pageSeg).isOffline 7 = false ∧
    ownedIn 0 (tierOf 0xE00000) (mapState pageSeg) < (kget (tierOf 0xE00000) ((mapState pageSeg).part 0).quota).getD 0 ∧
    ((mapState pageSeg).gran 1).mapcount = 0 ∧ ((mapState pageSeg).gran 1).owned = true ∧
    0 < (((mapState pageSeg).setGran 1 { owned := true, needsScrub := false, mapcount := 1 }).gran 1).mapcount :=
  ⟨servedFor_map, by decide +kernel⟩

/-! ### Witnesses: the host port -/

/-- BAR4 enabled on the first GiB of a hub with granule 1 owned. -/
def bar : State := { home1 with co := { stage := 10, ready := true }, regs := [(0x3008, 1)] }
/-- The last bytes of granule 1, of its first line, and the first byte of a granule nobody owns. -/
theorem witness_BarFourAperture :
    bar.media = [] ∧ hostOpen bar = true ∧ bar.power.shed < 5 ∧ bit (bar.reg 0x3008 0) 0 = true ∧
    homeRefusal (bar4Msg .rdOnce 0x20003F bar) bar = none ∧ (bar.line 0x8000).dir = none ∧
    bar.net = [] ∧ bar.changes = [] ∧ (freeTxn 0xFF 0x8000 bar).isSome = true ∧ bar.port.writes = [] ∧
    (∀ w ∈ [whoHost, whoBar4], kget (ansKey w 0x200000) bar.ans = none ∧ kget (ansKey w 0x200000) bar.asked = none) ∧
    (0x20003F : BitVec 36).toNat % 64 + (1 : BitVec 13).toNat ≤ 64 ∧ (0x200000 : BitVec 36).toNat % 64 + (64 : BitVec 13).toNat ≤ 64 ∧
    (1 : BitVec 512) ≠ 0 ∧ (2 ^ 64 - 1 : BitVec 512).toNat < 2 ^ 64 ∧ (0x200038 : BitVec 36).toNat % 8 = 0 ∧
    hostOpen State.reset = false ∧ 5 ≤ { bar with power := { shed := 5 } }.power.shed ∧ hostOpen up = true ∧
    bit (up.reg 0x3008 0) 0 = false ∧ bar.populated 0x1000000 = false ∧ (0x1000000 : BitVec 36).toNat % 64 = 0 := by decide +kernel
theorem witness_BarFourAperture_idle : HomesOpen bar ∧ LineIdle 0x8000 bar ∧ LineSound 0x8000 [] bar :=
  ⟨⟨rfl, rfl, by simp [bar, home1, coreState, State.reset]⟩, ⟨by decide, by decide, by decide +kernel⟩,
    ⟨by decide, by decide +kernel, by simp⟩⟩
/-- A BAR4 write that is at its home and waits there. -/
def barWaits : State :=
  { bar with port := { writes := [(0x200000, 1, 7)] }, asked := [(ansKey whoBar4 0x200000, 0)] }
theorem witness_BarFourAperture_behind :
    bar4Shut barWaits = false ∧ barWaits.port.writes ≠ [] ∧ settleWrites barWaits = barWaits := by decide +kernel

/-- An enabled queue with a ring of 64 entries at its end. -/
def q64 : Queue := { part := 0, state := 1, log2 := 6, head := 0xFFFFFFFF, tail := 0xFFFFFFFF, done := 0xFFFFFFFF, refc := 2 }
def qState (k : Queue) : State := { withCtx { part := 0, refc := 2, segs := [(0, pageSeg)] } with queues := [(7, k)] }
def hostKey : Nat := ansKey 0x40000 (0x800000000000 + 64)

theorem witness_DoorbellsAndCompletions :
    (qState q64).queue 7 = some q64 ∧ q64.state = 1 ∧ q64.ownerClass ≠ 2 ∧ hostOpen (qState q64) = true ∧
    (63 - q64.tail).toNat < 2 ^ 31 ∧ (63 - q64.head).toNat ≤ 2 ^ q64.log2 ∧ 2 ^ 31 ≤ (0x7FFFFFFF - q64.tail).toNat ∧
    isHeld (objQueue 7) (qState q64) = false ∧
    isHeld (objQueue 7) { qState q64 with changes := [{ pkt := pk 8, opcode := 0x202, objs := [objQueue 7] }] } = true ∧
    (qState q64).queue 8 = none ∧ hostOpen State.reset = false ∧ (qState { q64 with state := 0 }).queue 7 = some { q64 with state := 0 } ∧
    kget hostKey up.asked = none ∧ (kget hostKey { up with asked := [(hostKey, 0)] }.asked).isSome = true ∧
    up.port.inval = [] ∧ 16000 < (0x40000 : BitVec 24).toNat ∧ up.port.frozen = false ∧ up.port.parked = [] ∧
    hostOutstanding { tag := 3, pasid := 5, page := 1, pages := 1 } up = false ∧
    hostOutstanding { tag := 3, pasid := ctxPasid 5 up, page := 0, pages := 1 } { up with asked := [(hostKey, flightTag 5 0 0)] } = true ∧
    kget (3 * 2 ^ 52 + 5) up.port.atsAsked = none ∧
    kget (3 * 2 ^ 52 + 5) { up with port := { atsAsked := [(3 * 2 ^ 52 + 5, 7)] } }.port.atsAsked = some 7 ∧
    kget 7 { up with port := { atsBad := [(7, ctxPasid 5 up * 2 ^ 52 + 5)] } }.port.atsBad = some (ctxPasid 5 up * 2 ^ 52 + 5) ∧
    kget 7 up.port.atsBad = none ∧ kget 5 { up with port := { atc := [(5, 9 * 4 + 1)] } }.port.atc = some 37 ∧ bit 37 0 = true ∧
    bit 37 1 = false := by decide +kernel

/-- A frozen port whose link is up. -/
def froz (p : Port) : State := { up with port := { p with frozen := true } }

theorem witness_FreezeAndRelease :
    up.port.frozen = false ∧ heldBytes (up.port.parked ++ up.port.held) ≤ 524288 ∧ (11 : BitVec 5) ≠ 12 ∧ up.port.releasing = false ∧
    (froz { releasing := true }).port.releasing = true ∧ (froz { releasing := true }).co.ready = true ∧
    (froz { releasing := true }).port.inval = [] ∧ (froz { releasing := true }).port.parked = [] ∧
    (6 : BitVec 3).toNat ≤ 6 ∧ (16 : BitVec 5).toNat ∈ [1, 2, 4, 8, 16] ∧ ¬ (7 : BitVec 3).toNat ≤ 6 ∧ { up with port := { dlActive := true } }.port.dlActive = true ∧
    (froz {}).port.frozen = true ∧ (froz { dlActive := true }).port.dlActive = true ∧ heldBytes (froz {}).port.held + 32 ≤ 524288 ∧
    up.port.dlActive = false ∧ (0x3A7F : BitVec 16) ≠ 0x3A7E ∧ (froz { dlActive := true, aer := 1 }).port.aer ≠ 0 ∧
    (froz { dlActive := true }).pciCommand.testBit 1 = false ∧
    (froz { dlActive := true, cfg := [(4, 6)] }).pciCommand.testBit 1 = true ∧
    (froz { dlActive := true, cfg := [(4, 6)] }).pciCommand.testBit 2 = true ∧
    (froz { dlActive := true, cfg := [(4, 6)], d3hot := true }).port.d3hot = true ∧ (froz {}).port.held = [] ∧ (froz {}).evt = [] ∧
    (froz {}).frings = [] ∧ (froz {}).port.asserted = false ∧
    { up with rst := { porN := true, perstN := true } }.rst.porN = true ∧
    { up with rst := { porN := true, perstN := true } }.rst.perstN = true := by decide +kernel

theorem witness_InterruptsFollowTheRings :
    hostOpen up = true ∧ hostOpen State.reset = false ∧ up.port.parked = [] ∧ up.port.releasing = false ∧
    { up with port := { parked := [.write 0 1 0] } }.port.parked ≠ [] ∧
    { up with evt := [(0, { enable := true, prod := 1 })] }.evt.any (fun r => r.2.enable && r.2.prod != r.2.ack) = true ∧
    up.evt.any (fun r => r.2.enable && r.2.prod != r.2.ack) = false ∧ up.pciCommand.testBit 10 = false ∧
    { up with port := { asserted := true } }.port.asserted = true := by decide +kernel


/-! ### Witnesses: queues and descriptors -/

/-- A descriptor of a type with the values at byte offsets. -/
def desc (t : Nat) (fs : List (Nat × Nat)) : BitVec 512 :=
  BitVec.ofNat 512 (t + fs.foldl (fun a f => a + f.2 * 2 ^ (8 * f.1)) 0)
/-- A queue whose ring is the page of its context, granule 1 owned. -/
def workState (k : Queue) : State := { qState k with pot := [(1, { owned := true, needsScrub := false })] }
/-- A flight of one dispatched descriptor, at a position. -/
def flying (w : BitVec 512) (pos : Nat) : Queue := { q64 with ctx := 5, flight := [{ index := 4, word := w, pos }] }
/-- A queue whose next descriptor is the one given. -/
def headed (w : BitVec 512) : Queue := { q64 with ctx := 5, fetched := [{ index := 4, word := w }] }
/-- A page of a context of partition 0 for granule 1. -/
def ringPage : Segment := { pageSeg with r := true, w := true }

theorem servedFor_work (k : Queue) (h : k.stopping = none) (n : BitVec 16) : ServedFor (pk n) (workState k) :=
  servedFor_pk n rfl rfl (by decide : (0 : Nat) ≠ 4 ∧ (0 : Nat) ≠ 7) (by decide : (0 : Nat) < 4) rfl ⟨rfl, rfl, rfl, rfl⟩
    (by simp [workState, qState, h]) ⟨rfl, rfl⟩

theorem witness_QueueCommands :
    (∀ n, ServedFor (pk n) (workState q64)) ∧ (∀ k, k.stopping = none → ∀ n, ServedFor (pk n) (workState k)) ∧ (pk 24).paramLen = 24 ∧ (5 : BitVec 8).toNat < 6 ∧ 16 < (17 : BitVec 8).toNat ∧
    (0x200000 - 4096 : Nat) % (64 * 2 ^ 6) = 0 ∧ pageSeg.r = true ∧ pageSeg.base ≤ 0x200000 - 4096 ∧
    0x200000 - 4096 + 64 * 2 ^ 6 ≤ pageSeg.base + pageSeg.len * 0x200000 ∧
    (withCtx { part := 0, refc := 2, segs := [(0, pageSeg)] }).ctx 5 = some { part := 0, refc := 2, segs := [(0, pageSeg)] } ∧
    (withCtx { part := 0, refc := 2, segs := [(0, pageSeg)] }).queue 0 = none ∧
    2 * 2 ^ 32 + 0 ∉ (withCtx { part := 0, refc := 2, segs := [(0, pageSeg)] }).reservedIds ∧
    (alloc 0 64 64 (withCtx { part := 0, refc := 2, segs := [(0, pageSeg)] })).isSome = true :=
  ⟨servedFor_work q64 rfl, servedFor_work, by decide +kernel⟩
/-- A queue that another packet stops: the packet served is not the one that waits. -/
theorem witness_QueueCommands_stopping : ServedFor (pk 8) (workState { q64 with stopping := some { pk 8 with path := .ring } }) :=
  servedFor_of (by decide)

theorem witness_QueueCommands_disabled :
    let o := pk 8
    let k : Queue := { q64 with ctx := 5, stopping := some o }
    let c : Change := { pkt := o, opcode := 0x202, objs := [objQueue 7], rest := [{ op := .queueDisable o 7 }] }
    let s := { workState k with changes := [c] }
    s.queue 7 = some k ∧ k.part.val = o.partition.toNat % 8 ∧ k.state ≠ 3 ∧ packetOpen o s = false ∧ s.halted = false ∧ s.shoots = [] ∧
    packetOpen o { workState { flying 0 0 with stopping := some o } with changes := [c] } = true := by decide +kernel

theorem witness_QueueCommands_states :
    (pk 8).paramLen = 8 ∧ (workState { q64 with ctx := 5 }).queue 7 = some { q64 with ctx := 5 } ∧
    ((workState { q64 with ctx := 5 }).ctx 5).map (·.cause) = some 0 ∧
    (({ workState q64 with ctxs := [(5, { part := 0, cause := 1 })] } : State).ctx 5).map (·.cause) = some 1 ∧
    q64.state ≠ 3 ∧ q64.stopping = none ∧ q64.flight = [] ∧ (flying 0 0).flight ≠ [] ∧
    ({ q64 with stopping := some (pk 8) } : Queue).stopping.isSome = true ∧ (pk 8).txn = 0 ∧
    ({ q64 with state := 3 } : Queue).state = 3 ∧ 1 < q64.refc := by decide +kernel

/-- An answer that waits for an agent: the line at an address. -/
def lineAns (who pa v : Nat) : Nat × Ans := (ansKey who pa, { status := 0, data := BitVec.ofNat 512 v, poison := false })
def agent (code : Nat) : Who := { code, cluster := none, ctx := 5, part := 0 }
/-- The header of a kernel image of one word of code, then its code line. -/
def imgHead : Nat := 0x4E524B49 + 1 * 2 ^ 32 + 4 * 2 ^ 64 + 64 * 2 ^ 128 + 128 * 2 ^ 192
def launchWord (n : Nat) : BitVec 512 := desc 1 [(24, 20), (26, n)]
/-- Partition 0 holds cluster 1. -/
def launchState (k : Queue) : State :=
  { workState k with parts := [(0, { laidOut := true, quota := [(0, 8)], clusters := 2 })],
                     ctxs := [(5, { part := 0, refc := 2, segs := [(0, { pageSeg with x := true })] })],
                     ans := [lineAns (whoLoader 7 4) 0x200000 imgHead, lineAns (whoLoader 7 4) 0x200040 0xC0] }
def copyWord : BitVec 512 := desc 2 [(8, 64), (16, 0x1FFFC0), (24, 64), (28, 1)]
def fillWord : BitVec 512 := desc 3 [(8, 7), (16, 0x1FFFC0), (24, 64), (28, 1)]
def censusWord (n : Nat) : BitVec 512 := desc 8 [(8, 64), (16, n), (20, 1), (24, 128)]

theorem witness_QueueFetch :
    let k : Queue := { q64 with ctx := 5, tail := 0 }
    (workState k).queue 7 = some k ∧ mayFetch k (workState k) = true ∧ k.head + 1 = k.tail ∧
    (readRange (agent (whoFetch 7)) .read (k.ring + 64 * (k.head.toNat % 2 ^ k.log2)) 64
      (agentReads { workState k with ans := [lineAns (whoFetch 7) 0x200FC0 99] })).1 = .ok 99 ∧
    ((readRange (agent (whoFetch 7)) .read (k.ring + 64 * (k.head.toNat % 2 ^ k.log2)) 64
      (agentReads { workState k with ans := [lineAns (whoFetch 7) 0x200FC0 99] })).2.queue 7 = some k) := by decide +kernel

/-- A WRITE to a window that the queue 7 made for its descriptor 4 and that no FENCE covers yet. -/
def windowWrite : SlPort := { reqs := [(0, { op := 1, who := whoDesc 7 4, part := 0, peer := 1, ctx := 5, pa := 0, len := 64 })] }

theorem witness_WorkDescriptors_rows :
    (workState (flying copyWord (2 ^ 32))).queue 7 = some (flying copyWord (2 ^ 32)) ∧ (flying copyWord 0).fetched = [] ∧
    openFlight (flying copyWord (2 ^ 32)) 4 = some { index := 4, word := copyWord, pos := 2 ^ 32 } ∧ dType copyWord = 2 ∧
    (2 : Nat) ^ 32 ≠ allOut ∧
    (copyFrom (agent (whoDesc 7 4)) (copyRows copyWord) (2 ^ 32) (agentReads (workState (flying copyWord (2 ^ 32))))).1 = .done ∧
    (sysRelease (whoDesc 7 4) (workState (flying copyWord (2 ^ 32)))).1 = true ∧
    (sysRelease (whoDesc 7 4) { workState (flying copyWord (2 ^ 32)) with slPorts := [(1, windowWrite)] }).1 = false ∧
    dType fillWord = 3 ∧
    (copyFrom (agent (whoDesc 7 4)) (fillRows fillWord) (2 ^ 32) (agentReads (workState (flying fillWord 0)))).1 = .done ∧
    dType (censusWord 0) = 8 ∧ cSrcRecords (censusWord 0) = 0 ∧ cSrcRecords (censusWord 1) ≠ 0 ∧ cDstRecords (censusWord 1) ≠ 0 ∧
    (censusRun (agent (whoDesc 7 4)) (censusWord 1) 2 0 0 0 (agentReads { workState (flying (censusWord 1) 0) with
      ans := [lineAns (whoDesc 7 4) 0x200040 5, lineAns (whoDesc 7 4) 0x200080 0] })).1 = .done := by decide +kernel

theorem witness_WorkDescriptors_migrate :
    let w := desc 7 [(9, 1), (16, 0x200000), (24, 0x400000)]
    let s := { workState (flying w 0) with granA := 8, parts := [(0, { laidOut := true, quota := [(0, 8)] })],
                                           pot := [(1, { owned := true, needsScrub := false, mapcount := 1 })],
                                           ans := [lineAns (whoDesc 7 4) 0x200000 5] }
    dType w = 7 ∧ mCount w = 1 ∧ mCount (desc 7 []) = 0 ∧ s.moves = [] ∧
    (readRange (agent (whoDesc 7 4)) .read (mList w) 8 (agentReads s)).1 = .ok 5 ∧
    (readRange (agent (whoDesc 7 4)) .read (mList w) 8 (agentReads s)).2.moves = [] ∧ listEntry 5 0 = ((5, 0, 0), true) ∧
    (s.ctx 5).map (·.part) = some 0 ∧ moveRefusal 0 (mSrc w) (mDst w) (mOne w) [(5, 0, 0)] s = none := by decide +kernel

theorem witness_WorkDescriptors_fences :
    let two (w : BitVec 512) : Queue := { q64 with ctx := 5, flight := [{ index := 0xFFFFFFFF, word := w }, { index := 0, word := w }] }
    let sig := desc 4 [(8, 1), (16, 3 + 2 ^ 32)]
    dType (desc 6 []) = 6 ∧ noEarlier (flying (desc 6 []) 0) 4 = true ∧ noEarlier (two (desc 6 [])) 0 = false ∧
    noEarlier (two (desc 6 [])) 0xFFFFFFFF = true ∧ dType sig = 4 ∧ dCount sig = 1 ∧ bits (dEntry sig 0) 21 0 = 3 ∧
    fencesHeld 7 4 (workState (flying sig 0)) = false ∧
    fencesHeld 7 4 { workState (flying sig 0) with changes := [{ pkt := pk 8, opcode := 1, objs := [objFence 3] }] } = true ∧
    (two sig).fetched = [] ∧ openFlight (two sig) 0 = some { index := 0, word := sig } := by decide +kernel

theorem witness_WorkDescriptors_launch :
    let w := launchWord 20
    let s := launchState (flying w 0)
    dType w = 1 ∧ kget (7 * 2 ^ 32 + 4) s.launches = none ∧ launchFieldsOk w = true ∧ lCount w ≠ 0 ∧ coresOwned 0 w s = true ∧
    lDet w = false ∧ (s.ctx 5).map ctxGone = some false ∧
    (loadImage (agent (whoLoader 7 4)) (lImage w) false (imageSegs 7 (flying w 0) { index := 4, word := w }) (agentReads s)).1 =
      .ok { detRequired := false, codeSize := 4, entry := 0, codeOffset := 64, initOffset := 128, initSize := 0, initDest := 0 } 0xC0 0 ∧
    coresFree 0 (7 * 2 ^ 32 + 4) w s = true := by decide +kernel

theorem witness_WorkDescriptors_heads :
    let bad (t : Nat) := desc t [(63, 1)]
    let run := { launchState (headed (launchWord 20)) with cores := [(20, { k0 with ctx := 5 })] }
    (headed (bad 2)).fetched = { index := 4, word := bad 2 } :: [] ∧ isHeld (objQueue 7) (workState (headed (bad 2))) = false ∧ mayDispatch (headed (bad 2)) (workState (headed (bad 2))) = true ∧
    dType (bad 2) = 2 ∧ copyOk (bad 2) = false ∧ fillOk (bad 3) = false ∧ censusOk (bad 8) = false ∧ migrateOk (bad 7) = false ∧
    (let w := desc 5 [(8, 1), (16, 3 + 2 ^ 32)]
     dType w = 5 ∧ mayDispatch (headed w) (workState (headed w)) = true ∧ openFlight (headed w) 4 = none ∧ fencesHeld 7 4 (workState (headed w)) = false ∧
      fenceFieldsOk false w = true ∧
      dCount w = 1 ∧ bits (dEntry w 0) 63 32 = 1 ∧ waitResult { part := 0, epoch := 1, signalled := true } 1 = some stOk) ∧
    (waitsForCores 0 (headed (launchWord 20)) run).isSome = true ∧ coresFree 0 (7 * 2 ^ 32 + 4) (launchWord 20) run = false ∧
    kget 0 run.resv = none ∧ longestWaiting 0 7 run = true := by decide +kernel

theorem witness_WorkDescriptors_move :
    MemoryCanonical State.reset ∧ frameSize false - 1 < frameSize false ∧ (0 : Nat) + frameSize false ≤ frameSize false :=
  ⟨(by decide : Memory.wf [] = true), by decide⟩

theorem witness_DescriptorsComplete :
    let d : Flight := { index := 4, word := 0, done := some stOk }
    ({ part := 0, abandoned := true } : Fence).abandoned = true ∧ ({ part := 0 } : Fence).abandoned = false ∧
    ({ q64 with flight := [d] } : Queue).flight = [d] ∧ d.done = some stOk ∧ ({ d with done := none } : Flight).done = none ∧
    dType (0 : BitVec 512) ≠ 6 ∧ q64.flight = [] ∧ q64.fetched = [] ∧ (qState q64).queue 7 = some q64 ∧
    (headed 2).fetched = { index := 4, word := 2 } :: [] ∧ ctxGone { part := 0 } = false ∧ ctxGone { part := 0, cause := 1 } = true ∧
    ({ part := 0, state := 2 } : Ctx).state = 2 ∧ ctxGone { part := 0, state := 2 } = false ∧ dispatchOpen (headed 2) (workState (headed 2)) = true ∧
    ({ part := 0 } : Ctx).abandon = 0 ∧ dType (2 : BitVec 512) = 2 ∧ dType (1 : BitVec 512) = 1 ∧
    kget q64.done.toNat q64.finished = none ∧ (0 : BitVec 32) ≠ q64.done ∧ (0 : BitVec 512).getLsbD 8 = false ∧
    ((0 : BitVec 32) - 0).toNat = 0 ∧ ((0 : BitVec 32) - 0xFFFFFFFF).toNat = 1 ∧ ((2 ^ 31 : BitVec 32) - 0).toNat ≤ 2 ^ 31 ∧
    2 ^ 31 < ((2 ^ 31 + 1 : BitVec 32) - 0).toNat ∧ ((3 * 2 ^ 30 - 1 : BitVec 32) - 0).toNat < 3 * 2 ^ 30 ∧
    3 * 2 ^ 30 ≤ ((0 : BitVec 32) - (2 ^ 30 : BitVec 32)).toNat := by decide +kernel

/-! ### Witnesses: fences, references, rings and the mailbox -/

/-- Context 5 and fence 3 of partition 0 in a hub that serves it; the block of fence 0 to 2047 is there. -/
def fenceState (x : Fence) : State := { withCtx { part := 0, refc := 2, held := 1, segs := [(0, pageSeg)] } with
  fences := [(3, x)], fenceBlocks := [(0, (0, 0x400000))] }

theorem witness_FencesAndReferences_create :
    ServedFor (pk 16) (fenceState { part := 0 }) ∧ (4 : BitVec 64).toNat % 8 ≠ 0 ∧ (0x200000 : BitVec 64).toNat % 8 = 0 ∧
    (0x200000 : BitVec 64) ≠ 0 ∧ (fenceState { part := 0 }).ctx 5 = some { part := 0, refc := 2, held := 1, segs := [(0, pageSeg)] } ∧
    ¬(pageSeg.base ≤ (0x200000 : BitVec 64).toNat ∧ (0x200000 : BitVec 64).toNat + 8 ≤ pageSeg.base + pageSeg.len * 0x200000) ∧
    (withCtx { part := 0, state := 1 }).ctx 5 = some { part := 0, state := 1 } ∧
    newFence 0 (fenceState { part := 0 }) = some 0 ∧ (blockOf (0 / 2048) (fenceState { part := 0 })).isSome = true :=
  ⟨servedFor_of (by decide +kernel), by decide +kernel⟩

theorem witness_FencesAndReferences_signal :
    ServedFor (pk 8) (fenceState { part := 0 }) ∧ (fenceState { part := 0 }).fence 4 = none ∧
    (fenceState { part := 1 }).fence 3 = some { part := 1 } ∧
    (fenceState { part := 0, bindOff := true }).fence 3 = some { part := 0, bindOff := true } ∧
    (fenceState { part := 0, refc := 2 }).fence 3 = some { part := 0, refc := 2 } ∧
    1 < ({ part := 0, refc := 2, waiters := 1 } : Fence).refc ∧ 0 < ({ part := 0, refc := 2, waiters := 1 } : Fence).waiters ∧
    ({ part := 0, refc := 2 } : Fence).mirror = 0 ∧ (fenceState { part := 0 }).queues = [] ∧ ({ part := 0 } : Fence).refc = 1 ∧
    ((2 ^ 30 : BitVec 32) - 0).toNat ≤ 2 ^ 30 ∧ 2 ^ 30 < ((2 ^ 30 + 1 : BitVec 32) - 0).toNat ∧
    ({ part := 0, abandoned := true } : Fence).abandoned = true := ⟨servedFor_of (by decide +kernel), by decide +kernel⟩

theorem witness_FencesAndReferences_refs :
    ServedFor (pk 16) (fenceState { part := 0 }) ∧ (3 : BitVec 8).toNat > 2 ∧ (0xFFFFFFFF : BitVec 32) ≠ 0 ∧
    2 + (0xFFFFFFFD : BitVec 32).toNat < 2 ^ 32 ∧ 2 ^ 32 ≤ 2 + (0xFFFFFFFE : BitVec 32).toNat ∧ 1 < (2 : BitVec 32).toNat ∧
    (1 : BitVec 32).toNat ≤ 1 ∧ (1 : BitVec 32).toNat < 2 ∧ (qState q64).queue 7 = some q64 ∧ q64.state ≠ 3 ∧
    ({ part := 0, bindOff := true, refc := 1, held := 1 } : Fence).refc ≤ (1 : BitVec 32).toNat ∧
    (1 : BitVec 32).toNat ≤ ({ part := 0, bindOff := true, refc := 1, held := 1 } : Fence).held :=
  ⟨servedFor_of (by decide +kernel), by decide +kernel⟩

/-- A ready hub with event ring 15, fault ring 7 and the command ring as given. -/
def ringState (g : EvRing) (f : FaultRing) (c : CmdRing) : State := { up with evt := [(15, g)], frings := [(7, f)], cmd := c }
def aRec : EvRec := { kind := 9, part := 0, hub := true, domain := 0, count := 1, payload := 0 }
def aFault : FaultRec := { cause := 1, engine := 0, first := true, ctx := 5, part := 7 }

theorem witness_RingsAndMailbox_rings :
    hostOpen State.reset = false ∧ hostOpen up = true ∧ (6 : BitVec 5).toNat = 6 ∧ (16 : BitVec 5).toNat ≤ 16 ∧ (5 : BitVec 5).toNat < 6 ∧
    16 < (17 : BitVec 5).toNat ∧ (ringState { enable := true, log2 := 6, prod := 64 } {} {}).ring 15 = { enable := true, log2 := 6, prod := 64 } ∧
    2 ^ 6 < ((64 : BitVec 32) - 0xFFFFFFFF).toNat ∧ ((64 : BitVec 32) - 0).toNat ≤ 2 ^ 6 ∧
    (let g : EvRing := { enable := true, log2 := 6, prod := 64, held := [aRec] }
     (ringState g {} {}).ring 15 = g ∧ ((64 : BitVec 32) - 1).toNat < 2 ^ 6 ∧ g.held = [aRec] ∧ g.gone = 0) ∧
    (let f : FaultRing := { enable := true, prod := 4096, siding := [aFault] }
     (ringState {} f {}).fring 7 = f ∧ 4096 < ((4096 : BitVec 32) - 0xFFFFFFFF).toNat ∧ ((4096 : BitVec 32) - 0).toNat ≤ 4096 ∧
      ((4096 : BitVec 32) - 1).toNat < 4096 ∧ f.siding = [aFault]) ∧ (up.fring 7).enable = false ∧ (up.fring 7).siding = [] := by
  decide +kernel

theorem witness_RingsAndMailbox_commands :
    (ringState {} {} { enable := true, log2 := 10 }).cmd.enable = true ∧ ((1024 : BitVec 32) - 0).toNat ≤ 2 ^ 10 ∧
    2 ^ 10 < ((1025 : BitVec 32) - 0).toNat ∧ ((2 ^ 31 - 1 : BitVec 32) - 0).toNat < 2 ^ 31 ∧ 2 ^ 31 ≤ ((2 ^ 31 : BitVec 32) - 0).toNat ∧
    ringOpen (ringState {} {} { enable := true }) = 0 ∧ 0 < ringOpen { up with accepted := [{ pkt := { pk 0 with path := .ring }, opcode := 0x100 }] } ∧
    (10 : BitVec 4).toNat ≤ 10 ∧ 10 < (11 : BitVec 4).toNat ∧ (0 : BitVec 4).toNat < 1 ∧
    (let s := ringState {} {} { enable := true, log2 := 10, tail := 1 }
     s.cmd.closing = false ∧ hostOpen s = true ∧ s.rst.inProgress = false ∧ s.power.shed < 5 ∧ s.cmd.head ≠ s.cmd.tail ∧ ringOpen s < 64 ∧
      servedHub { hk 0 with path := .ring, seq := s.cmd.head } s = true) ∧
    64 ≤ ringOpen { up with accepted := List.replicate 64 { pkt := { pk 0 with path := .ring }, opcode := 0x100 } } ∧ knownOpcode 0x100 = true ∧ knownOpcode 0 = false ∧
    mbxServed .board State.reset = false ∧ mbxServed .board up = true ∧ up.mbx.owner = 0 ∧ ownerCode .board ≠ 0 ∧
    { up with mbx := { owner := ownerCode .board } }.mbx.owner = ownerCode .board ∧ { up with mbx := { busy := true } }.mbx.busy = true := by
  decide +kernel

theorem witness_RingsAndMailbox_submits :
    (let s := ringState {} {} { enable := true, log2 := 10, tail := 1 }
     s.port.parked = [] ∧ s.accepted = [] ∧ s.changes = [] ∧
      (let u := { s with accepted := [{ pkt := { hk 0 with path := .ring, serial := true }, opcode := 0x100 },
                                      { pkt := { hk 0 with path := .ring, seq := 1 }, opcode := 0 }] }
       packetWaits { hk 0 with path := .ring, seq := 1 } [] u = true)) ∧
    (let w (b : Nat) : State := { up with mbx := { owner := ownerCode .board, buf := mwrite [] 0 2 b } }
     mread (w 0x100).mbx.buf 0 32 % 2 ^ 16 = 0x100 ∧ knownOpcode (mread (w 0).mbx.buf 0 32 % 2 ^ 16) = false ∧
      (w 0).mbx.owner = ownerCode .board ∧ (w 0).mbx.busy = false ∧ mbxServed .board (w 0) = true ∧ (w 0).accepted = [] ∧ (w 0).changes = [] ∧
      (w 0).co.ready = true ∧ (w 0).power.shed < 5) := by decide +kernel

/-! ### Witnesses: transactions, pools, the offline list -/

/-- A ready hub with transaction 7 of the board mailbox, for the whole hub. -/
def txnState (ops : List Staged) : State :=
  { up with txns := [(7, { scope := 15, path := .board, idleMs := 1000, beginGen := 0, ops })], nextTxn := 0xFFFFFFFF }
def tk (n : BitVec 16) : Pkt := { hk n with txn := 7 }
/-- One entry of a REG_STAGE: a 4-byte register. -/
def entry (a : BitVec 32) (v : BitVec 64) : BitVec 32 × Bool × BitVec 64 := (a, false, v)
def stage1 (v : BitVec 64) : Staged := { op := .regStage (tk 24) [entry 0x1100 v], bytes := 24 }

theorem witness_TransactionsAreAtomic_begin :
    ServedFor (pk 4) up ∧ ServedHub (hk 4) (txnState []) ∧ (hk 4).paramLen = 4 ∧ (0 : BitVec 32).toNat < 1 ∧ 600000 < (600001 : BitVec 32).toNat ∧
    (600000 : BitVec 32).toNat ≤ 600000 ∧ (txnState []).txns.length < 16 ∧
    (({ up with txns := List.replicate 16 (7, { scope := 15, path := .board, idleMs := 1, beginGen := 0 }) } : State).txns.length = 16) ∧
    (txnState []).nextTxn + 1 = 2 ^ 32 := ⟨servedFor_of (by decide +kernel), servedHub_of (by decide +kernel), by decide +kernel⟩

theorem witness_TransactionsAreAtomic_end :
    ServedHub { tk 0 with txn := 0 } (txnState []) ∧ kget 6 (txnState []).txns = none ∧
    kget (tk 0).txn.toNat (txnState []).txns = some { scope := 15, path := .board, idleMs := 1000, beginGen := 0 } ∧
    ({ tk 0 with path := .mailbox }).path ≠ .board ∧ (pk 0).partition.toNat ≠ 15 ∧ (tk 0).partition.toNat = 15 :=
  ⟨servedHub_of (by decide +kernel), by decide +kernel⟩

theorem witness_TransactionsAreAtomic_commit :
    let t : Txn := { scope := 15, path := .board, idleMs := 1000, beginGen := 0, ops := [stage1 0xABCD] }
    let s := txnState [stage1 0xABCD]
    t.ops ≠ [] ∧ stage1 0xABCD = { op := .regStage (tk 24) [(0x1100, false, (0xABCD : BitVec 32).setWidth 64)], bytes := 24 } ∧
    (stage1 0xABCD).reserved = none ∧ (0xABCD : BitVec 32) ≠ 0 ∧ s.slPorts = [] ∧ s.winIn = [] ∧ s.sites = [] ∧ s.parts = [] ∧ s.halted = false ∧
    pcgEqual s = true ∧ waysOk s = true ∧ ctlqOk s = true ∧ (kget (objReg 0x1100) s.gens).getD 0 ≤ t.beginGen ∧
    t.committing = false ∧ ({ t with committing := true } : Txn).committing = true ∧ kget 7 s.txns = some t ∧ t.scope = (tk 0).partition.toNat ∧
    (kget (objReg 0x1100) { s with gens := [(objReg 0x1100, 1)] }.gens).getD 0 > t.beginGen := by decide +kernel
theorem witness_TransactionsAreAtomic_refused :
    let t : Txn := { scope := 15, path := .board, idleMs := 1000, beginGen := 0, ops := [stage1 5] }
    (match runOps t [(objReg 0x1100, 1)] 0 t.ops (txnState [stage1 5]) with
      | .error e => e == (0, stTxnConflict)
      | .ok _ => false) = true := by decide +kernel
/-- A transaction that stops queue 7, which has work dispatched. -/
def stopOp : Staged := { op := .queueDisable (tk 8) 7, bytes := 8 }
def stopState : State := { txnState [stopOp] with ctxs := [(5, { part := 0, refc := 2 })], queues := [(7, { flying 0 0 with part := 7 })] }
theorem witness_TransactionsAreAtomic_drains :
    stopState.queue 7 = some { flying 0 0 with part := 7 } ∧ (flying 0 0).flight ≠ [] ∧ (flying 0 0).state ≠ 3 ∧ (flying 0 0).stopping = none ∧
    (7 : Fin 8).val = ({ tk 8 with partition := 7 } : Pkt).partition.toNat ∧ (stopState.part 7).resetting = none ∧
    (kget (objQueue 7) stopState.gens).getD 0 ≤ 0 ∧ layoutClash stopState = false := by decide +kernel
/-- Another commit has started and waits. -/
theorem witness_TransactionsAreAtomic_behind :
    let c : Change := { pkt := { tk 0 with path := .mailbox }, opcode := 0x11, txn := 9, objs := [] }
    ServedHub { tk 0 with txn := 0 } { ({ txnState [] with changes := [c] } : State) with changes := [] } ∧
    c.txn ≠ 0 ∧ samePkt c.pkt (tk 0) = false ∧ c.txn ≠ (tk 0).txn.toNat ∧ ({ c with txn := 7 } : Change).txn = (tk 0).txn.toNat ∧
    kget (tk 0).txn.toNat (txnState []).txns = some { scope := 15, path := .board, idleMs := 1000, beginGen := 0 } :=
  ⟨servedHub_of (by decide), by decide +kernel⟩
theorem witness_TransactionsAreAtomic_warm :
    let s : State := { txnState [] with rst := { inProgress := true } }
    s.rst.inProgress = true ∧ (tk 0).txn ≠ 0 ∧ (tk 0).txn.toNat < s.nextTxn ∧ s.changes = [] ∧
    s.accepted.takeWhile (fun a => !samePkt a.pkt (tk 0)) = [] := by decide +kernel
theorem test_commit_writes : (nextOf (exec (.txnCommit (tk 0)) (txnState [stage1 0xABCD]))).reg 0x1100 0 = 0xABCD := by decide +kernel

theorem witness_TransactionsAreAtomic_stage :
    ServedHub { tk 24 with txn := 0 } (txnState []) ∧ (tk 24).paramLen = 24 ∧ (tk 24).txn ≠ 0 ∧ rwtOf 0x1000 (txnState []) = none ∧
    (rwtOf 0x1100 (txnState [])).isSome = true ∧ (rwtOf 0x1100 (txnState [])).map (·.wide) = some false ∧
    entryCheck 15 0 (entry 0x1100 5) (txnState []) = none ∧ ServedHub (hk 24) up :=
  ⟨servedHub_of (by decide +kernel), by decide +kernel, by decide +kernel, by decide +kernel, by decide +kernel, by decide +kernel,
    by decide +kernel, servedHub_of (by decide +kernel)⟩

/-- A hub of tier A with granules 1 to 7: granule 1 partition 0's, in its pool or not. -/
def poolState (g : Gran) (pool : KV Nat) : State := { upS with pot := [(1, g), (2, { owned := true, needsScrub := false, struct := true })], pool }
def ownGran : Gran := { owned := true, needsScrub := false }

theorem witness_PoolsAndOfflineList :
    ServedFor (pk 24) (poolState ownGran []) ∧ (3 : BitVec 8).toNat > 2 ∧ (0x200001 : BitVec 64).toNat % 0x200000 ≠ 0 ∧
    tierOf (2 ^ 41) ≠ 0 ∧ tierOf 0x200000 = 0 ∧ (poolState ownGran []).populated 0x200000 = true ∧ (poolState ownGran []).gran 1 = ownGran ∧
    ({ ownGran with mapcount := 1 }).mapcount ≠ 0 ∧ kget 1 ({ poolState ownGran [] with moved := [(1, 0)] }).moved = some 0 ∧
    kget 1 (poolState ownGran []).moved ≠ some 0 ∧ kget 1 (poolState ownGran [(1, 0)]).pool = some 0 ∧
    kget 1 (poolState ownGran [(1, 2)]).pool ≠ some 0 := ⟨servedFor_of (by decide +kernel), by decide +kernel⟩
theorem witness_PoolsAndOfflineList_clear :
    ServedHub (hk 16) upS ∧ upS.offline.length ≤ (0 : BitVec 16).toNat ∧
    (let s := { upS with offline := [default, { (default : Offline) with granule := 2 }] }
     s.offline[1]?.map (·.granule) = some 2 ∧ 2 * 0x200000 ≠ (0x200000 : BitVec 64).toNat ∧ 2 * 0x200000 = (0x400000 : BitVec 64).toNat ∧
      (s.gran 2).owned = true ∧ (s.gran 3).owned = false) := ⟨servedHub_of (by decide +kernel), by decide +kernel⟩

/-! ### Witnesses: partitions and instances -/

/-- A hub with partition 0's cluster 3 and its quotas, one granule owned in tier A, and a context of an instance. -/
def layState : State :=
  { upS with parts := [(0, { laidOut := true, clusters := 8, quota := [(0, 8)] }), (1, { laidOut := true, clusters := 1 })] }

/-- A posted write of partition 0 to tier frames. -/
def posted0 : Posted := { posted3 with target := 0 }

theorem witness_PartitionReset :
    ServedFor (pk 0) upS ∧ (pk 0).paramLen = 0 ∧ upS.moves = [] ∧ upS.slPorts = [] ∧ upS.posted = [] ∧
    (∃ e ∈ ({ upS with posted := [(9, posted0)] } : State).posted, e.2.part.val = 0 ∧ e.2.target ≠ 1) ∧
    ServedFor (pk 0) { upS with posted := [(9, posted0)] } :=
  ⟨servedFor_of (by decide +kernel), rfl, rfl, rfl, rfl, ⟨_, List.mem_singleton.2 rfl, rfl, by decide⟩, servedFor_of (by decide +kernel)⟩

theorem witness_PartitionLayout :
    ServedFor (pk 64) layState ∧ 2 ^ 21 ≤ (2097152 : BitVec 32).toNat ∧ (2097151 : BitVec 32).toNat < 2 ^ 21 ∧
    ownedIn 0 0 layState = 1 ∧ (0 : BitVec 32).toNat < ownedIn 0 0 layState ∧ ownedIn 0 1 layState ≤ (0 : BitVec 32).toNat ∧
    ((partClusters 0 layState).all fun g => (0 : BitVec 200).getLsbD g || !clusterWorks 0 g layState) = true ∧
    layoutClash (layState.setPart 0 { layState.part 0 with clusters := 2 ^ 199, quota := [(0, 2), (1, 0), (2, 0)] }) = false ∧
    layoutClash (layState.setPart 0 { layState.part 0 with clusters := 1 }) = true ∧ (199 : Nat) < 200 ∧
    ((layState.part 0).laidOut = true ∧ (layState.part 1).clusters.testBit 0 = true) :=
  ⟨servedFor_of (by decide +kernel), by decide +kernel⟩

theorem witness_InstanceCreate :
    ServedFor (pk 20) (withCtx { part := 0 }) ∧ (withCtx { part := 0 }).ctx 5 = some { part := 0 } ∧ freeInst upS = some 0 ∧
    (withCtx { part := 0 }).queues = [] ∧ ({ part := 0 } : Ctx).inst = none ∧ ({ part := 0, inst := some 3 } : Ctx).inst ≠ none ∧
    ({ part := 0, cause := 2 } : Ctx).cause ≠ 0 ∧ ({ part := 0, state := 2 } : Ctx).state = 2 ∧
    (7, { q64 with ctx := 5 }) ∈ (qState { q64 with ctx := 5 }).queues := ⟨servedFor_of (by decide +kernel), by decide +kernel⟩

/-- Instance 1023 of partition 0 as given. -/
def instState (x : Inst) : State := { withCtx { part := 0, inst := some 1023 } with insts := [(1023, x)] }
def waitingInst : Inst := { part := 0, state := 1, ctxs := [5], freezing := [pk 8] }

theorem witness_InstanceLifecycle :
    ServedFor (pk 8) (instState waitingInst) ∧
    (∀ k ∈ ({ waitingInst with freezing := [{ pk 8 with path := .ring }] }).freezing, samePkt (pk 8) k = false) ∧ kget (1023 : BitVec 16).toNat (instState waitingInst).insts = some waitingInst ∧
    ({ waitingInst with part := 7 }).part.val ≠ 0 ∧ waitingInst.state < 2 ∧ 2 ≤ ({ waitingInst with state := 2, ctxs := [] }).state ∧
    ({ waitingInst with state := 3 }).state = 3 ∧ ({ waitingInst with state := 0 }).state = 0 ∧ (1 : BitVec 32) ≠ 0 ∧
    waitingInst.freezing = [pk 8] ∧ instQueues waitingInst (instState waitingInst) = [] ∧ waitingInst.freezing.length ≤ (1 : BitVec 8).toNat ∧
    (let s := { instState waitingInst with queues := [(7, flying 0 0)] }
     7 ∈ instQueues waitingInst s ∧ s.queue 7 = some (flying 0 0) ∧ (flying 0 0).flight ≠ []) :=
  ⟨servedFor_of (by decide +kernel), by decide +kernel⟩

theorem witness_InstanceSave :
    let x : Inst := { waitingInst with state := 2, freezing := [] }
    let s := instState x
    let len := (blobBody (blobRecs x s)).2
    ServedFor (pk 24) s ∧ kget 1023 s.insts = some x ∧ 2 ≤ x.state ∧ (0x40 : BitVec 64).toNat % 64 = 0 ∧
    (0 : BitVec 32).toNat < 80 + len ∧ 80 + len ≤ (0xFFFFFFFF : BitVec 32).toNat ∧ s.port.frozen = false ∧ s.sec.migKey = false ∧
    { s with sec := { migKey := true } }.sec.migKey = true := ⟨servedFor_of (by decide +kernel), by decide +kernel⟩

def aBlob : BlobIn := { tagOk := true, profile := 0, recs := [{ kind := 1, id := 5, data := 0 }], frames := [], rsv := 0 }
theorem witness_InstanceRestore :
    ServedFor (pk 40) { upS with sec := { migKey := true } } ∧ (froz {}).port.frozen = true ∧ upS.port.frozen = false ∧
    aBlob.tagOk = true ∧ aBlob.rsv = 0 ∧ ({ aBlob with rsv := 1 }).rsv ≠ 0 ∧ recBad { kind := 1, id := 5, data := 0 } = false ∧
    recBad { kind := 1, id := 5, data := 2 ^ 511 } = true ∧ ({ aBlob with tagOk := false }).tagOk = false ∧ ({ aBlob with profile := 3 }).profile.toNat ≠ upS.fuse.profile ∧
    aBlob.profile.toNat = upS.fuse.profile ∧ freeInst upS = some 0 ∧
    (let r := actCtxCreate (pk 40) 0 false false none { upS with sec := { migKey := true } }
     r.1 = { len := 4, data := 0 } ∧ (r.2.ctx 0).isSome = true) := ⟨servedFor_of (by decide +kernel), by decide +kernel⟩

/-! ### Witnesses: partner sites -/

/-- A ready hub with site 3 as given and a record for it. -/
def aRecd : SiteRec :=
  { enable := true, vendor := 0xFFFF, device := 7, vddA := 650, budgetCap := 1, protocols := 3, maxRate := 32, shedClass := 3 }
def siteState (x : Site) : State := { up with sites := [(3, x)], siteRecs := [(3, aRecd)] }
/-- A declaration of 32 bytes whose values stand at byte offsets. -/
def declOf (fs : List (Nat × Nat)) : BitVec 256 := BitVec.ofNat 256 (fs.foldl (fun a f => a + f.2 * 2 ^ (8 * f.1)) 0)
def goodDecl : BitVec 256 := declOf [(0, 9), (2, 7), (4, 1), (5, 3), (6, 1), (8, 64), (10, 64), (12, 64), (14, 160), (16, 4096)]

theorem witness_SitesAreAdmittedAndReset_admission :
    kget 3 (siteState {}).siteRecs = some aRecd ∧ ((siteState { step := 2 }).site 3).step = 2 ∧ (3 : BitVec 3).toNat ≤ rateCode aRecd.maxRate.toNat ∧
    rateCode aRecd.maxRate.toNat < (4 : BitVec 3).toNat ∧ ((siteState { step := 5 }).site 3).step = 5 ∧ ((siteState {}).site 3).step = 0 ∧
    declFails aRecd goodDecl = none ∧ declFails aRecd (declOf [(2, 8)]) = some 4 ∧ declFails aRecd (declOf [(2, 7), (6, 2)]) = some 5 ∧
    declFails aRecd (declOf [(2, 7), (6, 1)]) = some 6 ∧ declFails aRecd (declOf [(2, 7), (5, 1), (6, 1), (8, 63)]) = some 7 ∧
    bit (aRecd.protocols.toNat &&& bits (declAt goodDecl 5 1) 1 0) 1 = true ∧
    bit (aRecd.protocols.toNat &&& bits (declAt (declOf [(5, 1)]) 5 1) 1 0) 1 = false ∧ up.co.running = false := by decide +kernel

theorem witness_SitesAreAdmittedAndReset_resets :
    ServedHub (hk 8) (siteState { state := 4 }) ∧ (∀ w ∈ ({ waiters := [pk 8] } : Site).waiters, samePkt { hk 8 with path := .ring } w = false) ∧ (4 : BitVec 8).toNat > 3 ∧ ((siteState { state := 0 }).site 3).state = 0 ∧
    ((siteState { state := 4, waits := true }).site 3).waits = true ∧
    (kget 3 (siteState {}).siteRecs = some aRecd ∧ aRecd.enable = true ∧ recordOk aRecd (siteState {}) = true) ∧
    (siteState {}).lines = [] ∧ ((siteState { state := 4 }).site 3).apq = [] ∧ ((siteState { state := 4 }).site 3).resets = [] ∧
    (siteState {}).power.shed < 4 ∧ ((siteState {}).site 3).state < 2 ∧
    (let x := (siteState { state := 4, limited := true, overRun := 1 }).site 3
     x.limited = true ∧ 0 < x.overRun ∧ x.resetting = none ∧ x.withdraws = []) ∧
    (let r : ApReq := { who := 17000, pa := 0x40000000000, data := true }
     kget (4095 : BitVec 12).toNat ((siteState { state := 4, apq := [(4095, r)] }).site 3).apq = some r ∧ r.orig = none ∧ r.who ≠ 0x5FFFF) ∧
    ((siteState {}).line 7).tx = none ∧
    (let h : HomeTx := { req := { (default : Msg) with op := .rdShared }, waiting := [siteAgent 3] }
     let s := { siteState { state := 4 } with lines := [(7, { tx := some h })] }
     (s.line 7).tx = some h ∧ h.waiting.contains (siteAgent 3) = true) := ⟨servedHub_of (by decide +kernel), by decide +kernel⟩

theorem witness_SitesAreAdmittedAndReset_power :
    ((siteState { state := 4, modules := 4 }).site 3).modules = 4 ∧ (2 : BitVec 3).toNat < 4 ∧
    siteBudget { decl := 10 * 2 ^ 48 } = 10 ∧ (10 : Nat) < (11 : BitVec 10).toNat ∧ ({ overRun := 8 } : Site).overRun < 9 ∧
    9 ≤ ({ overRun := 9 } : Site).overRun ∧ (10 : BitVec 10).toNat ≤ 10 ∧ 9 ≤ ({ limited := true, underRun := 9 } : Site).underRun ∧
    ({ quiesce := some 3 } : Site).quiesce = some (3 : BitVec 8).toNat ∧ ({} : Site).quiesce = none ∧ hostOpen (siteState {}) = true ∧
    hostOpen State.reset = false ∧ ((siteState {}).site 3).state = 1 ∧ ((siteState { state := 7 }).site 3).state = 7 ∧ (1 : BitVec 4) ≠ 0 := by
  decide +kernel

/-- Site 3 holds an admitted Amirvaken die, granted partition 0's requests, and queue 7 is its own. -/
def dieSite : Site := { state := 4, caches := true, reqMask := 1, cxlCtx := 5, rx := [(0, 2), (1, 0), (2, 512), (3, 2048)] }
def dieState (x : Site) (k : Queue) : State := { withCtx { part := 0 } with sites := [(3, x)], queues := [(7, k)] }
def dieQueue : Queue := { part := 0, state := 1, ownerClass := 2, site := 3, log2 := 6, ctx := 5 }
def dieReq : Msg := { (default : Msg) with op := .rdShared, src := BitVec.ofNat 8 (siteAgent 3), dst := 0xFE, addr := 0x200000, ctx := 5 }
def dieFrame : DieFrame := { msg := dieReq, cls := 2, budget := 0, crReq := 0, crSnp := 0, crRsp := 0, crDat := 0, malformed := false }

theorem witness_DieMessagesAndGrants_frames :
    ((dieState { state := 4, resetting := some 1 } dieQueue).site 3).resetting.isSome = true ∧ dieSite.resetting = none ∧ dieSite.cxl = false ∧
    ({ state := 3 } : Site).state = 3 ∧ dieSite.state = 4 ∧ dieSite.txq = [] ∧ (kget 0 ({ rx := [(0, 1)] } : Site).rx).getD 0 < 2 ∧
    2 ≤ (kget 0 dieSite.rx).getD 0 ∧ (dieState dieSite dieQueue).queue 8 = none ∧ (dieState dieSite dieQueue).queue 7 = some dieQueue ∧
    (dieState dieSite dieQueue).ctx dieQueue.ctx = some { part := 0 } ∧ dieQueue.ownerClass = 2 ∧ dieQueue.site = 3 ∧
    ((64 : BitVec 32) - dieQueue.tail).toNat < 2 ^ 31 ∧ ((64 : BitVec 32) - dieQueue.head).toNat ≤ 2 ^ dieQueue.log2 ∧
    frameFormOk dieFrame = true ∧ frameFormOk { dieFrame with malformed := true } = false ∧
    (match frameIn 3 (chanOf dieReq.op) (1 + unitsOf dieReq.op) (creditsOf 0 0 0 0) false false (dieState dieSite dieQueue) with
      | .ok _ => true
      | .error _ => false) = true := by decide +kernel

theorem witness_DieMessagesAndGrants_requests :
    bit ((dieState dieSite dieQueue).site 3).reqMask dieReq.part.val = true ∧ bit ({} : Site).reqMask 0 = false ∧
    ((dieState dieSite dieQueue).ctx dieReq.ctx.toNat = some { part := 0 }) ∧ up.ctx 5 = none ∧
    (withCtx { part := 1 }).ctx 5 = some { part := 1 } ∧ ({ part := 0, cause := 3 } : Ctx).cause ≠ 0 ∧
    ({ dieSite with state := 5 }).state = 5 ∧ dieReq.op ≠ .wbDirty ∧ dieReq.addr.toNat < 0x40000000000 ∧
    (let x : Site := { dieSite with cxl := true }
     let s := dieState x dieQueue
     let m : Msg := { (default : Msg) with op := .rdOnce, txn := 4095, src := BitVec.ofNat 8 (siteAgent 3), dst := 0xFE, addr := 0x200000, ctx := 5 }
     x.cxl = true ∧ x.reqMask = 2 ^ 0 ∧ x.withdraws = [] ∧ onlyPart 3 = none ∧ onlyPart 0 = none ∧
      (∃ w ∈ ({ withdraws := [pk 16] } : Site).withdraws, w.partition.toNat % 8 = dieReq.part.val) ∧ reqBreaks 3 m s = false ∧ s.ctx (x.cxlCtx % 2 ^ 20) = some { part := 0 } ∧
      tierOf (64 * (0x8000 : BitVec 42).toNat) ≠ 3) := by decide +kernel

theorem witness_DieMessagesAndGrants_grants :
    ServedFor (pk 16) (dieState dieSite dieQueue) ∧ (4 : BitVec 8).toNat > 3 ∧ (3 : BitVec 8).toNat ≤ 3 ∧ dieSite.cxl = false ∧
    dieSite.apValid = false ∧ ({ dieSite with apValid := true, apOwner := 1 }).apOwner ≠ 0 ∧
    (7, dieQueue) ∈ (dieState dieSite dieQueue).queues ∧ dieQueue.part.val = 0 ∧ ServedFor (pk 16) (siteState { apValid := true }) ∧
    (siteState {}).queues = [] ∧ (siteState {}).ctxs = [] ∧ (siteState {}).lines = [] :=
  ⟨servedFor_of (by decide +kernel), by decide, by decide, by decide, by decide, by decide, by simp [dieState], by decide,
    servedFor_of (by decide +kernel), by decide, by decide, by decide⟩
/-- A line whose snoop of site 3's die is out. -/
theorem witness_DieMessagesAndGrants_withdraw :
    let h : HomeTx := { req := { (default : Msg) with op := .rdShared }, waiting := [siteAgent 3] }
    let s := { siteState { state := 4, apValid := true } with lines := [(7, { tx := some h })] }
    ServedFor (pk 16) s ∧ s.queues = [] ∧ s.ctxs = [] ∧ s.lines = [(7, { tx := some h })] ∧ h.waiting.contains (siteAgent 3) = true ∧
    (s.site 3).toRecall = [] ∧ (s.site 3).resetting = none := ⟨servedFor_of (by decide +kernel), by decide +kernel⟩

/-! ### Witnesses: Sloyth -/

/-- A ready hub with port 3 as given, allowed one peer, and another with a fence word. -/
def slState (x : SlPort) : State := { up with slPorts := [(3, x)], slConf := [(3, { enable := true, peers := [9] })] }
def inService : SlPort := { state := 4, peer := 9, txSeq := 2 ^ 48 - 3, rxSeq := 5, reqCredits := 1, rspCredits := 1 }

theorem witness_SloythPorts_training :
    ((slState { state := 1, step := 1 }).slPort 3).step = 1 ∧ ((slState {}).slPort 3).state ≠ 1 ∧ ((slState { fails := 1 }).slPort 3).fails < 2 ∧
    2 ≤ ((slState { fails := 2 }).slPort 3).fails ∧ ((slState { state := 2, step := 3 }).slPort 3).step = 3 ∧
    1000000 < (1000001 : BitVec 64).toNat ∧ (1000000 : BitVec 64).toNat ≤ 1000000 ∧ ((slState { state := 3, step := 4 }).slPort 3).hs = 0 ∧
    9 ∈ ((kget 3 (slState {}).slConf).getD {}).peers ∧ (8 : BitVec 64).toNat ∉ ((kget 3 (slState {}).slConf).getD {}).peers ∧
    (slState {}).fuse.serial < (9 : BitVec 64).toNat ∧ (0 : BitVec 64).toNat ≤ (slState {}).fuse.serial ∧
    (let x := (slState { state := 3, step := 4, hs := 1, initiator := true, cand := 9 }).slPort 3
     x.hs = 1 ∧ x.initiator = true ∧ x.peerReady = false) ∧
    ((slState { state := 3, step := 4, hs := 2, cand := 9, peerReady := true }).slPort 3).peerReady = true ∧
    ((slState { state := 3, step := 5 }).slPort 3).step = 5 ∧ (slState {}).winIn = [] := by decide +kernel

theorem witness_SloythPorts_service :
    let x := (slState inService).slPort 3
    x.state = 4 ∧ ({ inService with state := 5 }).state = 5 ∧ x.rxq = [] ∧ x.reqs = [] ∧ x.resetting = none ∧
    ServedHub (hk 8) (slState inService) ∧ (3 : BitVec 8).toNat = 3 ∧ (4 : BitVec 8).toNat > 3 ∧ x.rekeying = 0 ∧
    ({ inService with resetting := some { reason := 1, peer := 9 } }).resetting.isSome = true ∧
    (({ inService with resetting := some { reason := 0, peer := 9, pkt := some { hk 8 with path := .ring } } }).resetting.bind (·.pkt)).map
      (samePkt (hk 8)) ≠ some true ∧ 2 ^ 47 ≤ x.txSeq ∧
    (let r : SlReq := { op := 2, who := 16001, part := 0, peer := 9, ctx := 5, pa := 0, len := 64 }
     let s := { slState { inService with reqs := [(0, r)] } with asked := [(ansKey 16001 0, 0)] }
     s.parts = [] ∧ s.launches = [] ∧ (s.slPort 3).reqs = [(0, r)] ∧ 16000 < r.who ∧ (kget (ansKey r.who r.pa) s.asked).isSome = true) ∧
    x.txSeq + 2 < 2 ^ 48 ∧ ((slState {}).slPort 0).txSeq + 2 < 2 ^ 48 ∧ x.txq = [] ∧ x.nakSent = false ∧
    ({ inService with lastTag := some 0 }).lastTag = some 0 ∧ (slState {}).aon < 0 + 100000000 ∧
    ({ inService with replay := [{ seq := 7, op := 1, replays := 6 }] }).replay.all (fun e => decide (e.replays < 7)) = true ∧
    ({ inService with replay := [{ seq := 7, op := 1, replays := 7 }] }).replay.any (fun e => decide (7 ≤ e.replays)) = true ∧
    10000000 < (0 : BitVec 40).toNat + 16 * (625001 : BitVec 40).toNat ∧ (slState {}).power.shed < 5 ∧
    3 ≤ { slState inService with power := { shed := 3 } }.power.shed ∧ x.unacked = false ∧ ({ inService with unacked := true }).unacked = true :=
  ⟨by decide +kernel, by decide, by decide +kernel, by decide +kernel, by decide +kernel, servedHub_of (by decide +kernel), by decide +kernel⟩
theorem witness_SloythPorts_packets :
    (∀ q, q < 4 → ((slState { inService with txSeq := 9 }).slPort q).txSeq + 2 < 2 ^ 48 ∧
      ((slState { inService with txSeq := 9 }).slPort q).rxSeq + 2 < 2 ^ 48) ∧ inService.rekeying ≠ 2 ∧
    (let k : SlPacket := { epoch := false, seq := 5, tagOk := true, txn := { op := 1, src := 0, win := 0, atom := 0, tag := 0, len := 64, off := 0,
                                                                             status := 0, payload := 0, rsv := false } }
     k.epoch = inService.rxEpoch ∧ k.seq.toNat = inService.rxSeq ∧ k.tagOk = true ∧ k.txn.op = 1) := by decide +kernel

/-- A transaction of operation `op` for window 63 and one line, and the same as received from peer 9. -/
def txn (op : BitVec 8) (len : BitVec 16) : SlTxn :=
  { op, src := 2, win := 63, atom := 0, tag := 4087, len, off := 0, status := 0, payload := 0, rsv := false }
def got (op : BitVec 8) (len : BitVec 16) : SlIn := { txn := txn op len, peer := 9 }
def inWin : WinIn := { part := 0, srcPart := 2, r := true, w := true, a := true, base := 0x200000, len := 1, peer := 9 }
def winState (l : List SlIn) (v : WinIn) : State :=
  { upS with slPorts := [(3, { inService with txSeq := 0, rxq := l })], winIn := [(63, v)], granA := 8,
             pot := [(1, { owned := true, needsScrub := false }), (2, { owned := true, needsScrub := false, struct := true })] }
/-- SL_WINDOW_SET of window 63: an outbound one to peer 9, an inbound one of one granule. -/
def outDesc : BitVec 256 := declOf [(1, 63), (4, 63), (8, 9)]
def inDesc (g : Nat) : BitVec 256 := declOf [(0, 1), (1, 63), (2, 7), (3, 2), (8, 9), (16, 0x200000 * g), (24, 1)]

theorem witness_RemoteRequests_windows :
    ServedFor (pk 32) upS ∧ winForm outDesc = none ∧ winForm (inDesc 1) = none ∧ wByte outDesc 0 1 = 0 ∧ kget 63 upS.winOut = none ∧
    (kget 63 { upS with winOut := [(63, { part := 0, remote := 1, peer := 9 })] }.winOut).isSome = true ∧ wByte (inDesc 1) 0 1 = 1 ∧
    (kget 63 (winState [] inWin).winIn).isSome = true ∧ kget 63 upS.winIn = none ∧ wByte (inDesc 3) 24 4 = 1 ∧ (upS.gran 3).owned = false ∧
    (let s := { winState [] inWin with winIn := [], slPorts := [] }
     servedFor (pk 32) s = true ∧ s.populated 0x200000 = true ∧ (s.gran 1).owned = true ∧ (s.gran 1).owner.val = 0 ∧ s.slPorts = []) :=
  ⟨servedFor_of (by decide +kernel), by decide +kernel⟩

theorem witness_RemoteRequests_clear :
    ServedFor (pk 8) (winState [] inWin) ∧ (63 : BitVec 8).toNat < 64 ∧ kget 63 upS.winOut = none ∧
    (let s := { upS with winOut := [(63, { part := 0, remote := 1, peer := 9 })] }
     kget 63 s.winOut = some { part := 0, remote := 1, peer := 9 } ∧ winUsed 63 s = false ∧
      winUsed 63 { s with ctxs := [(5, { part := 0, segs := [(0, { pageSeg with target := 2, tgt := 63 })] })] } = true) ∧
    (winState [] inWin).winIn = [(63, inWin)] ∧ inWin.closing = none ∧ ({ inWin with part := 1 }).part ≠ 0 ∧
    servedFor (pk 8) { winState [] inWin with slPorts := [] } = true :=
  ⟨servedFor_of (by decide +kernel), by decide +kernel⟩
theorem witness_RemoteRequests_clearWaits :
    ServedFor (pk 8) (winState [got 1 64] inWin) ∧ (winState [got 1 64] inWin).winIn = [(63, inWin)] ∧
    (∃ e ∈ (winState [got 1 64] inWin).slPorts, ∃ i ∈ e.2.rxq, i.late = false ∧ 1 ≤ i.txn.op.toNat ∧ i.txn.op.toNat ≤ 3 ∧
      i.txn.win.toNat = (63 : BitVec 8).toNat) :=
  ⟨servedFor_of (by decide +kernel), rfl, _, List.mem_singleton.2 rfl, _, List.mem_singleton.2 rfl, by decide⟩
/-- The port of a performed transaction: nothing queued, no window led by it. -/
theorem witness_RemoteRequests_done :
    let s := { winState [got 1 64] inWin with winIn := [] }
    (s.slPort 3).rxq = [got 1 64] ∧ (got 1 64).mute = false ∧ (s.slPort 3).txq = [] ∧ s.winIn = [] ∧
    ∀ q, q < 4 → (s.slPort q).resetting = none ∧ (s.slPort q).txSeq + 2 < 2 ^ 48 ∧ (s.slPort q).rxSeq + 2 < 2 ^ 48 := by decide +kernel

theorem witness_RemoteRequests_checks :
    kget (txn 1 64).win.toNat upS.winIn = none ∧ kget (txn 1 64).win.toNat (winState [] inWin).winIn = some inWin ∧
    ({ got 1 64 with late := true }).late = true ∧ inWin.peer = (got 1 64).peer ∧ inWin.srcPart = (txn 1 64).src.val ∧
    ({ inWin with r := false }).r = false ∧ inWin.r = true ∧ inWin.w = true ∧ inWin.len * 0x200000 < 0x200000 + 1 ∧ 0x1FFE00 + 512 ≤ inWin.len * 0x200000 ∧
    (txn 1 64).rsv = false ∧ (txn 1 64).op ≠ 3 ∧ (txn 1 64).atom = 0 := by decide +kernel

theorem witness_RemoteRequests_perform :
    let s := winState [got 1 64] inWin
    slHead 3 2 s = some (got 1 64) ∧ slHead 3 0 s = none ∧ slCheck (got 1 64) 64 false true s = 0 ∧
    slCheck (got 1 64) 64 false true (winState [got 1 64] { inWin with w := false }) ≠ 0 ∧
    (slWriteLines (slWho 3 (got 1 64) s) (slBasePa (got 1 64) s) (txn 1 64) 10 0
      { s with ans := [(ansKey (0x30000 + 26) 0x200000, { status := 0, data := 0, poison := false })] }).2.1 = some 0 ∧
    slCheck (got 2 64) 64 true false (winState [got 2 64] inWin) = 0 ∧ slCheck (got 2 513) 513 true false (winState [got 2 513] inWin) ≠ 0 ∧
    (slReadLines (slWho 3 (got 2 64) s) (slBasePa (got 2 64) s) 64 10 0 0
      { s with ans := [(ansKey (0x30000 + 26) 0x200000, { status := 0, data := 7, poison := false })] }).1 = (64, 7) ∧
    slCheck (got 3 0) 4 true true (winState [got 3 0] inWin) = 0 ∧ slCheck (got 3 1) 4 true true (winState [got 3 1] inWin) ≠ 0 ∧
    (once (slWho 3 (got 3 0) s) { homeMsg .atomic 0x200000 false with addr := 0x200000 }
      { s with ans := [(ansKey (0x30000 + 26) 0x200000, { status := 0, data := 7, poison := false })] }).1 =
      some { status := 0, data := 7, poison := false } ∧
    slHead 3 2 (winState [got 4 0] inWin) = some (got 4 0) := by decide +kernel

theorem witness_RemoteRequests_answers :
    let s (op : BitVec 8) (r : SlReq) : State := { winState [] inWin with winIn := [], parts := [], asked := [(ansKey 16001 0, 0)],
                                                                          slPorts := [(3, { inService with txSeq := 0, rxq := [got op 64], reqs := [(4087, r)] })], ctxs := [(5, { part := 0 })] }
    let r (op : Nat) : SlReq := { op, who := 16001, part := 0, peer := 9, ctx := 5, pa := 0, len := 64 }
    ((s 0x82 (r 2)).slPort 3).rxq = [got 0x82 64] ∧ (got 0x82 64).mute = false ∧ (s 0x82 (r 2)).winIn = [] ∧
    slFirst 3 0x10 (s 0x10 (r 2)) = some (got 0x10 64) ∧ slFirst 3 0x10 (s 0x82 (r 2)) = none ∧ slFirst 3 0x11 (s 0x11 (r 2)) = some (got 0x11 64) ∧
    slFirst 3 0x12 (s 0x12 (r 2)) = some (got 0x12 64) ∧ slFirst 3 0x81 (s 0x81 (r 1)) = some (got 0x81 64) ∧
    slFirst 3 0x82 (s 0x82 (r 2)) = some (got 0x82 64) ∧ slFirst 3 0x83 (s 0x83 (r 3)) = some (got 0x83 64) ∧
    slFirst 3 0x84 (s 0x84 (r 4)) = some (got 0x84 64) ∧ kget (txn 0x82 64).tag.toNat ((s 0x82 (r 2)).slPort 3).reqs = some (r 2) ∧
    (s 0x82 (r 2)).launches = [] ∧ (s 0x82 (r 2)).parts = [] ∧ 16000 < (r 2).who ∧ (kget (ansKey (r 2).who (r 2).pa) (s 0x82 (r 2)).asked).isSome = true ∧
    (s 0x81 (r 1)).ctx (r 1).ctx = some { part := 0 } ∧ kget 16001 (s 0x81 (r 1)).posted = none ∧ (r 1).op = 1 ∧ kget (4086 : BitVec 12).toNat ((s 0x82 (r 2)).slPort 3).reqs = none ∧
    ({ inService with rekeying := 1, initiator := true }).rekeying = 1 ∧ ({ inService with rekeying := 2 }).rekeying = 2 := by decide +kernel

/-! ### Witnesses: security -/

/-- A ready hub in a life-cycle state, with no key slot used. -/
def lcState (lc : Nat) : State := { up with sec := { lc } }
def fr (n : BitVec 32) : Frag := { offset := 0, total := n, len := n, rsv := false }
def signed (kind signer : BitVec 8) : SignedObj :=
  { formOk := true, kind, signer, serial := 0, svn := 0, pkHash := 0, sigOk := true, bodyOk := true, head := 1 }

theorem witness_SecurityCommands_slots :
    ServedFor (pk 8) (lcState 2) ∧ ServedFor (pk 8) (lcState 3) ∧ (8 : BitVec 8).toNat > 7 ∧ (7 : BitVec 8).toNat ≤ 7 ∧
    ((kget 7 (lcState 2).keys).getD {}).state = 0 ∧ ((kget 0 upS.keys).getD {}).state ≠ 0 ∧ (lcState 2).keys = [] ∧
    (0, { state := 1 }) ∈ upS.keys ∧ ServedFor (pk 0) upS ∧ upS.keys = [(0, { state := 1 })] ∧ kget 0 upS.sec.drains = none ∧
    (kget 0 { upS with sec := { drains := [(0, { pkt := pk 0, slot := 0 })] } }.sec.drains).isSome = true ∧ upS.lines = [] ∧ upS.slPorts = [] ∧
    upS.moves = [] ∧ slotTransfers 0 { upS with lines := [(0x8000, { tx := some { req := { (default : Msg) with op := .rdOnce, who := 4 } } })],
                                                pot := [(1, { owned := true, needsScrub := false })] } ≠ [] ∧
    ({ pkt := pk 0, slot := 0, step := 4 } : Drain).step ≠ 2 ∧ ({ pkt := pk 0, slot := 0 } : Drain).step = 2 :=
  ⟨servedFor_of (by decide +kernel), servedFor_of (by decide +kernel), by decide, by decide, by decide, by decide, by decide,
    by simp [upS], servedFor_upS 0, by decide, by decide, by decide, by decide, by decide, by decide, by decide +kernel, by decide, by decide⟩

theorem witness_SecurityCommands_drain :
    (let d : Drain := { pkt := { pk 0 with path := .ring }, slot := 0 }
     let s := { upS with sec := { drains := [(0, d)] } }
     ServedFor (pk 0) s ∧ kget 0 s.sec.drains = some d ∧ samePkt d.pkt (pk 0) = false) ∧ upS.net = [] :=
  ⟨⟨servedFor_of (by decide +kernel), by decide, by decide⟩, rfl⟩

theorem witness_SecurityCommands_attest :
    ServedHub (hk 56) (lcState 2) ∧ (fr 41).total ≠ 40 ∧ ({ fr 40 with offset := 40 }).offset ≠ 0 ∧ (fr 40).offset = 0 ∧ (fr 40).total = 40 ∧ (fr 40).len = 40 ∧
    kget 2 { lcState 2 with sec := { built := [(2, (30240, 5))] } }.sec.built = some (30240, 5) ∧ 30240 < (30241 : BitVec 32).toNat ∧
    (30240 : BitVec 32).toNat ≤ 30240 ∧ pathCode .board = 2 := ⟨servedHub_of (by decide +kernel), by decide⟩

theorem witness_SecurityCommands_debug :
    ServedHub (hk 8) (lcState 2) ∧ debugAllowed 2 3 = false ∧ debugAllowed 2 2 = true ∧ debugAllowed 0 3 = true ∧ debugAllowed 0 0 = false ∧
    (let x := { lcState 2 with sec := { lc := 2, fails := 8, lockUntil := 600 } }
     8 ≤ x.sec.fails ∧ x.opSeconds < x.sec.lockUntil) ∧ (lcState 2).sec.fails < 8 ∧
    { lcState 2 with sec := { lc := 2, challenge := some (2, 5) } }.sec.challenge = some (2, 5) ∧ (lcState 2).sec.challenge = none ∧
    (lcState 0).sec.lc = 0 ∧ debugAuthority (lcState 2) = debugAuthority (lcState 3) ∧ (lcState 2).slPorts = [] :=
  ⟨servedHub_of (by decide +kernel), by decide +kernel⟩

theorem witness_SecurityCommands_objects :
    ServedHub (hk 4064) (lcState 1) ∧ (hk 4064).paramLen.toNat = 16 + (fr 4048).len.toNat ∧ (fr 4048).len.toNat ≤ 4048 ∧ (fr 4048).offset = 0 ∧
    (fr 4048).total = (fr 4048).len ∧
    ({ fr 4048 with total := 0x10000 }).total.toNat ≤ 0x10000 ∧ ({ fr 1 with offset := 4048, total := 4049 }).offset ≠ 0 ∧
    kget 2 (lcState 1).sec.asm = none ∧ kget 2 { lcState 1 with sec := { asm := [(2, { opcode := 0x704, total := 9, got := 5 })] } }.sec.asm =
      some { opcode := 0x704, total := 9, got := 5 } ∧
    objForm (signed 4 1) [4] = true ∧ verifies (signed 4 1) 1 { lcState 1 with fuse := { (lcState 1).fuse with serial := 0, ownerRoot := 0 } } = true ∧
    verifies { signed 4 1 with sigOk := false } 1 (lcState 1) = false ∧ (lcState 1).fuse.profile = 0 ∧
    objForm (signed 1 0) [1, 2] = true ∧ verifies (signed 1 0) 0 { lcState 3 with fuse := { (lcState 3).fuse with makerRoot := 0 } } = true ∧
    (signed 1 0).svn.toNat < { lcState 3 with fuse := { (lcState 3).fuse with svn := 1 } }.fuse.svn ∧ (lcState 3).fuse.svn ≤ (signed 1 0).svn.toNat ∧
    objForm (signed 2 1) [1, 2] = true ∧ objForm (signed 3 0) [3] = true ∧ lcSigner 0 1 0 = some 0 ∧ lcSigner 2 1 0 = none ∧
    verifies (signed 3 0) 0 { lcState 0 with fuse := { (lcState 0).fuse with makerRoot := 0, serial := 0 } } = true ∧
    (lcState 0).fuse.lc = 0 ∧ (lcState 0).fuse.ownerRoot = 0 := ⟨servedHub_of (by decide +kernel), by decide +kernel⟩

/-! ### Witnesses: repairs, service, registers, power and heat -/

/-- A hub whose repairs are as given; its cluster 0 has lost both spare slots when `worn` says so. -/
def repState (r : Repair) : State := { up with rep := r }
def coreRec (src : Nat) : Rec := { kind := 1, source := src, unit := 0, slot := 3, logical := 3 }

theorem witness_RepairsServiceAndRegisters_margins :
    (80 : BitVec 10).toNat = 80 ∧ (50 : BitVec 10).toNat = 50 ∧ (49 : BitVec 10).toNat < 50 ∧ (79 : BitVec 10).toNat < 80 ∧
    kget 3999 up.rep.marginLow = none ∧ (kget 3999 (repState { marginLow := [(3999, true)] }).rep.marginLow).isSome = true ∧
    kget 3999 up.rep.worn = none ∧ (kget 3999 (repState { worn := [(3999, true)] }).rep.worn).isSome = true ∧
    spareSlots up 199 = [20, 21] ∧ spareSlots (repState { records := [20, 21].map fun sl => { kind := 1, source := 1, unit := 199, slot := sl } }) 199 = [] := by
  decide +kernel

theorem witness_RepairsServiceAndRegisters_repairs :
    up.power.shed < 4 ∧ up.rep.due = [] ∧ (4 : Nat) ≤ { up with power := { shed := 4 } }.power.shed ∧ (3 : BitVec 3) ≠ 4 ∧
    (repState { due := [{ what := coreRec 3, since := 0 }] }).rep.due = [{ what := coreRec 3, since := 0 }] ∧ (19 : BitVec 8).toNat < 20 ∧
    (up.core 3).run = false ∧ spareSlots up 0 = 20 :: [21] ∧ up.rep.due.length ≤ (0 : BitVec 8).toNat ∧
    (let d : Due := { what := { kind := 4, source := 2, unit := 5 }, since := 7 }
     (repState { due := [d] }).rep.due[0]? = some d ∧ d.told = false ∧ d.what.kind = 4 ∧ ({ d with told := true }).told = true) := by
  decide +kernel

theorem witness_RepairsServiceAndRegisters_commands :
    ServedHub (hk 8) up ∧ up.rep.running = none ∧
    (∃ r, (repState { running := some ({ hk 8 with path := .ring }, 5, 0) }).rep.running = some r ∧ samePkt r.1 (hk 8) = false) ∧ (repState { running := some (hk 8, 5, 0) }).rep.running.isSome = true ∧
    scopeIdle { up with cores := [(3, { k0 with run := true })] } (coreRec 3) = false ∧ (1 : BitVec 32) ≠ 0 ∧ (4 : BitVec 32).toNat % 4 = 0 ∧
    (5 : BitVec 32).toNat % 4 ≠ 0 ∧ smbReach 0x7FFFFFFC = false ∧ (0x5FFC : Nat) < 0x6000 ∧ 0x6000 ≤ (0x6FFC : Nat) ∧ (0x6FFC : Nat) < 0x7000 ∧
    2 ≤ up.co.stage ∧ 4 ≤ triggerLevel { up.power with pwrFail := true } ∧ { up with mbx := { owner := 2 } }.mbx.owner = 2 ∧ up.mbx.busy = false ∧ hostOpen up = true ∧ hostOpen State.reset = false :=
  ⟨servedHub_of (by decide +kernel), rfl, ⟨_, rfl, rfl⟩, by decide +kernel⟩
theorem witness_RepairsServiceAndRegisters_rows :
    countSum (lastDay up ((kget (3 * 32768 + 7) up.rep.rowErrs).getD [])) + 15 < 16 ∧
    16 ≤ countSum (lastDay up [(0, 15)]) + 1 ∧ (3 : BitVec 4).toNat ≤ 3 ∧ up.rep.due = [] ∧ hostOpen up = true := by decide +kernel
theorem test_reg_misaligned : regRead 0x1 1 up = 0xFF ∧ regRead 0x0 4 up ≠ 0xFFFFFFFF := by decide +kernel
theorem test_smb_reads_id : smbValue 0x4 State.reset / 2 ^ 16 = 4000 := by decide +kernel

theorem witness_PowerHeatAndShed_power :
    ServedHub (hk 0) up ∧ (powerPairs { up with power := { samples := [4095] } }).any (fun e => decide (e.2 < e.1)) = true ∧
    (powerPairs { up with power := { samples := [0], flow := 30000 } }).all (fun e => decide (100 * e.1 < 95 * e.2)) = true ∧
    (let l := powerPairs { up with power := { samples := [longW up], flow := 30000 } }
     l.all (fun e => decide (e.1 ≤ e.2)) = true ∧ l.any (fun e => decide (95 * e.2 ≤ 100 * e.1)) = true) ∧
    up.power.cap = [] ∧ up.parts = [] ∧ up.power.under < 9 ∧ 9 ≤ ({ under := 9 } : Power).under ∧ up.power.regAlert = false ∧
    ({ regUntil := 1 } : Power).regUntil > up.aon := ⟨servedHub_of (by decide +kernel), by decide +kernel⟩

theorem witness_PowerHeatAndShed_heat :
    (1150 : BitVec 16).toInt = 1150 ∧ (1149 : BitVec 16).toInt < 1150 ∧ (10 * (throttleC up : Int)) = 950 ∧ (920 : BitVec 16).toInt = 920 ∧
    (919 : BitVec 16).toInt < 950 - 30 ∧ (BitVec.ofInt 16 (-10)).toInt < 0 ∧ 9 ≤ ({ cool := 9 } : DieSensor).cool ∧ ({} : DieSensor).cool < 9 ∧
    (kget 3 ({ badReads := [(3, 1)] } : Power).badReads).getD 0 < 2 ∧ 2 ≤ (kget 3 ({ badReads := [(3, 2)] } : Power).badReads).getD 0 ∧
    kget 3 up.power.sensorFault = none ∧ 20 ≤ ({ duty := 20 } : Power).duty ∧ ({ duty := 19 } : Power).duty < 20 ∧ kget 1 up.power.pumpFault = none ∧
    up.power.sensorFault = [] ∧ ({ pumpFault := [(1, true)] } : Power).pumpFault ≠ [] ∧
    [(15, { (default : Ctl) with step := 1 })].any (fun e => decide (e.1 < 16 ∧ 1 ≤ e.2.step)) = true := by decide +kernel

theorem witness_PowerHeatAndShed_shed :
    up.power.shed < 5 ∧ 5 ≤ ({ shed := 5 } : Power).shed ∧ ({ failsafe := true } : Power).failsafe = true ∧ loopManual up = false ∧
    loopManual { up with regs := [(0xA018, 1)] } = true ∧ ({ shed := 6 } : Power).shed = 6 ∧ railThreshold 5 ≤ (120 : BitVec 8).toNat ∧
    (119 : BitVec 8).toNat < railThreshold 5 ∧ 4 ≤ triggerLevel { pwrFail := true } ∧ triggerLevel up.power < ({ shed := 1 } : Power).shed ∧
    ({ shed := 4, pwrFail := true } : Power).shed ≤ triggerLevel { shed := 4, pwrFail := true } := by decide +kernel

/-! ### Witnesses: resets and cast-on -/

/-- The two reset pins as given. -/
def pins (por perst : Bool) : State := { up with rst := { porN := por, perstN := perst } }

theorem witness_ResetsClearAndKeep_pins :
    (pins true false).rst.perstN = false ∧ (pins false true).rst.perstN = true ∧ (pins false true).rst.porN = false ∧
    (pins true true).rst.porN = true ∧ hostOpen (pins true true) = true ∧ (0x1CA57 : BitVec 32).toNat % 2 ^ 16 = 0xCA57 ∧
    (0x1CA57 : BitVec 32).getLsbD 16 = true ∧ (0xCA57 : BitVec 32).getLsbD 16 = false ∧ (pins true true).rst.deferred = none ∧
    ({ deferred := some 2 } : Rst).deferred = some 2 ∧ up.power.shed < 4 ∧ up.co.ready = true ∧ up.rst.inProgress = false ∧
    ({ deferred := some 2 } : Rst).deferred.isSome = true := by decide +kernel

theorem witness_ResetsClearAndKeep_warm :
    (let s := { withCtx { part := 0 } with rst := { porN := true, perstN := true } }
     s.moves = [] ∧ s.slPorts = [] ∧ s.sites = [] ∧ s.clusters = [] ∧ s.lines = [] ∧ s.net = [] ∧ s.queues = [] ∧ s.accepted = [] ∧
      s.shoots = [] ∧ s.winIn = [] ∧ s.changes = [] ∧ s.drops = [] ∧ s.posted = [] ∧ s.port.writes = [] ∧ s.msc = [] ∧ s.power.shed < 4 ∧ s.ctx 5 = some { part := 0 }) ∧
    ({ halted := true, step := 5 } : Rst).halted = true ∧ ({ step := 3, inProgress := true } : Rst).step = 3 ∧ ({} : Rst).step ≠ 3 ∧
    up.parts = [] ∧ up.launches = [] ∧ (up.part 7).resetting = none ∧
    (let x : Part := { laidOut := true, resetting := some none }
     { up with parts := [(7, x)] }.parts = [(7, x)] ∧ x.resetting.isSome = true) ∧
    (up.site 3).resetting = none ∧ (up.site 3).withdraws = [] ∧ ((siteState { state := 4, resetting := some 2 }).site 3).resetting.isSome = true ∧
    ((siteState {}).site 3).toRecall = [] ∧ (siteState {}).net = [] ∧ (siteState {}).rst.step = 0 := by decide +kernel
/-- A commit has started and waits. -/
theorem witness_ResetsClearAndKeep_commit :
    let s := { up with changes := [{ pkt := hk 0, opcode := 0x11, txn := 9, objs := [] }] }
    (∃ c ∈ s.changes, c.txn ≠ 0) ∧ (∀ c ∈ s.changes, c.txn ≠ 0) ∧ s.insts = [] ∧ s.ctxs = [] ∧ s.rep.running = none ∧ s.sec.drains = [] :=
  ⟨⟨_, List.mem_singleton.2 rfl, by decide⟩, by decide, rfl, rfl, rfl, rfl⟩

/-- What a stage without anything to report observes. -/
def stageObs : StageObs :=
  { failCode := none, failUnit := 0, warm := false, bankA := true, bankB := true, recordOk := true, confOk := true, lanes := 0,
    rates := [], capacity := List.replicate 16 32, found := [], image := 0, phy := [] }
/-- Cast-on at a stage. -/
def atStage (n : Nat) : State := { State.reset with co := { stage := n, running := true } }

theorem witness_CastOnRunsItsStages :
    (atStage 0).co.running = true ∧ (atStage 0).co.halted = false ∧ State.reset.co.running = false ∧
    { stageObs with failCode := some 0x603 }.failCode = some (BitVec.ofNat 16 0x603) ∧ stageObs.failCode = none ∧ (atStage 0).power.shed < 4 ∧
    ({ shed := 4 } : Power).shed = 4 ∧ (∀ n : Fin 10, (atStage n.val).co.stage = n.val) ∧
    ((kget 0 (atStage 1).flash.banks).getD {}).svn = 0 ∧ (atStage 1).fuse.svn ≤ 0 ∧ stageObs.bankA = true ∧
    ({ stageObs with bankA := false }).bankA = false ∧ ({ stageObs with capacity := [] }).capacity.length < 16 ∧
    stageObs.capacity = List.replicate 16 32 ∧ (32 : BitVec 32) ≠ 0 ∧ stageObs.rates = [] ∧ (atStage 6).rep.due = [] ∧
    (atStage 6).rep.records = [] ∧ stageObs.found = [] ∧ admitting (atStage 7) = false ∧ admitting { atStage 7 with sites := [(3, { step := 2 })] } = true ∧
    (atStage 9).granA < 16 ∧ 16 ≤ { atStage 9 with granA := 16 }.granA ∧ ({ halted := true, running := true, stage := 5 } : CastOn).stage ≠ 6 ∧
    ({ halted := true, running := true, stage := 9 } : CastOn).halted = true := by decide +kernel

theorem witness_CastOnRunsItsStages_sample :
    ServedHub (hk 8) up ∧ ServedHub (hk 11) up ∧ (hk 11).paramLen.toNat = 8 + [(0 : BitVec 8), 1, 0x63].length ∧
    (List.replicate 65 (0 : BitVec 8)).length > 64 ∧ domainOk 0x64 = false ∧ domainOk 0x63 = true ∧ domainOk 4 = false ∧
    ¬ [(0 : BitVec 8), 0].Nodup ∧ [(0 : BitVec 8), 1, 0x63].Nodup ∧ ([(0 : BitVec 8), 1, 0x63].all fun d => domainOk d.toNat) = true :=
  ⟨servedHub_of (by decide +kernel), servedHub_of (by decide +kernel), by decide +kernel⟩
end Sys2Proof.Tests
end

section
/-!
PROOFS. A command leaves the queue alone and operating time never falls (O4): what `exec_keeps` and `tick_keeps` say of
the queue and of operating time, carried through a step.
-/
namespace Sys2Proof.Machine

theorem keeps_of_exec_next {c : Instr} {s t : State} (h : exec c s = .next t) : Keeps s t := by
  obtain ⟨u, hu, hk⟩ := (exec_keeps c s).out
  cases hu.symm.trans h
  exact hk

theorem step_of_pending_nil {s : State} (h : s.pending = []) : step s = .next (tick s) := by
  simp only [step, h]

theorem step_of_pending_cons {s : State} {c : Instr} {l : List Instr} (h : s.pending = c :: l) :
    step s = exec c { s with pending := l } := by
  simp only [step, h]

/-- A step takes the front command off the queue, if there is one, and does not set operating time back. -/
theorem pending_opSeconds_of_step {s t : State} (h : step s = .next t) :
    t.pending = s.pending.tail ∧ s.opSeconds ≤ t.opSeconds := by
  cases hp : s.pending with
  | nil =>
    have ht : tick s = t := Host.Outcome.next.inj ((step_of_pending_nil hp).symm.trans h)
    have hk : Keeps s t := ht ▸ tick_keeps (.refl s)
    exact ⟨hk.queue.trans hp, hk.time⟩
  | cons c l =>
    have hk := keeps_of_exec_next ((step_of_pending_cons hp).symm.trans h)
    exact ⟨hk.queue, hk.time⟩

/-- Settles O4: every command keeps the queue and the order of operating time, and a step is a command or a tick. -/
theorem commandsLeaveTheQueue : Obligations.CommandsLeaveTheQueue :=
  ⟨fun _ _ _ h => ⟨(keeps_of_exec_next h).queue, (keeps_of_exec_next h).time⟩, fun _ _ h => pending_opSeconds_of_step h⟩

end Sys2Proof.Machine
end

section
/-!
PROOFS. Swatch checks (O26): what a check does to the core and to the rest of the state, for a pair that is abandoned, one
that agrees and one that differs (R152 to R156).
-/
namespace Sys2Proof.Machine

/-! ### The count of checks -/

theorem swatchCount_abandoned (c : Nat) (s : State) :
    swatchCount c false s = s.setCore c { s.core c with
      swatch := (s.core c).swatch.drop 1, swAband := satAdd 16 (s.core c).swAband 1 } := rfl

/-- A completed check changes its core and the launches only. -/
theorem swatchCount_done (c : Nat) (s : State) :
    ∃ l, swatchCount c true s = { s.setCore c { s.core c with
      swatch := (s.core c).swatch.drop 1, swDone := ((s.core c).swDone + 1) % 2 ^ 48 } with launches := l } := by
  unfold swatchCount
  dsimp only
  split
  · exact ⟨_, rfl⟩
  · exact ⟨s.launches, rfl⟩

/-! ### The test of R152 -/

/-- On finite values the test compares the difference with the bound. -/
theorem swatchDiffers_of_finite {d r t : Nat} {vd vr vt far bound : Rat} (hd : finite32 d = some vd)
    (hr : finite32 r = some vr) (ht : finite32 t = some vt)
    (hfar : finite32 ((fma32 0 (decodeFlt fp32 d) (.fin false 1) (decodeFlt fp32 (r ^^^ 2 ^ 31))).code % 2 ^ 31) = some far)
    (hbound : finite32 (fma32 0 (.fin false (p2 (-18))) (decodeFlt fp32 t) (.fin false (p2 (-126)))).code = some bound) :
    swatchDiffers d r t = some (decide (bound < far)) := by
  simp only [swatchDiffers, hd, hr, ht, hfar, hbound]

/-! ### SWATCH_CHECK by the oldest pair -/

theorem exec_swatchCheck (core : Fin 4000) (o : Option (BitVec 32)) (s : State) :
    exec (.swatchCheck core o) s = execSwatchCheck core o s := rfl

section
variable {core : Fin 4000} {s : State} {k : Swatch} {l : List Swatch}

theorem exec_swatchCheck_of_nil (o : Option (BitVec 32)) (h : (s.core core.val).swatch = []) :
    exec (.swatchCheck core o) s = .next s := by
  simp only [exec_swatchCheck, execSwatchCheck, h]

theorem exec_swatchCheck_of_not_finite (o : Option (BitVec 32)) (h : (s.core core.val).swatch = k :: l)
    (hk : swatchFinite k = false) : exec (.swatchCheck core o) s = .next (swatchCount core.val false s) := by
  simp only [exec_swatchCheck, execSwatchCheck, h, hk, Bool.not_false, if_true]

theorem exec_swatchCheck_of_finite {v : BitVec 32} {b : Bool} (h : (s.core core.val).swatch = k :: l)
    (hk : swatchFinite k = true)
    (hb : swatchDiffers v.toNat (recompute k.a k.w 0 0).1 (recompute k.a k.w 0 0).2 = some b) :
    exec (.swatchCheck core (some v)) s = .next (if b then
      swatchMismatch core.val k v.toNat (recompute k.a k.w 0 0).1 (swatchCount core.val true s)
      else swatchCount core.val true s) := by
  simp only [exec_swatchCheck, execSwatchCheck, h, hk, hb, Bool.not_true, Bool.false_eq_true, if_false]
  cases b with
  | false => rfl
  | true => rfl

end

/-! ### STRIKE_WINDOW_EXPIRY -/

theorem exec_strikeWindowExpiry (core : Fin 4000) (s : State) :
    exec (.strikeWindowExpiry core) s = execStrikeWindowExpiry core s := rfl

section
variable {core : Fin 4000} {s : State}

theorem exec_strikeWindowExpiry_of_nil (h : strikesOf s (coreCluster core.val) (slotOf s core.val) = []) :
    exec (.strikeWindowExpiry core) s = .next s := by
  simp only [exec_strikeWindowExpiry, execStrikeWindowExpiry, h]

theorem exec_strikeWindowExpiry_of_cons {t : Nat} {l : List Nat}
    (h : strikesOf s (coreCluster core.val) (slotOf s core.val) = t :: l) :
    exec (.strikeWindowExpiry core) s = .next { s with opSeconds := max s.opSeconds (t + swatchWindow s) } := by
  simp only [exec_strikeWindowExpiry, execStrikeWindowExpiry, h]

end

/-- Settles O26, by the oldest captured pair of the core and the oldest strike in its window. -/
theorem swatchChecks : Obligations.SwatchChecks := by
  intro s core v c x
  refine ⟨fun h => ⟨exec_swatchCheck_of_nil _ h, exec_swatchCheck_of_nil _ h⟩, ?_, ?_,
    exec_strikeWindowExpiry_of_nil, fun _ _ => exec_strikeWindowExpiry_of_cons⟩
  · intro k l o h hk
    refine ⟨_, exec_swatchCheck_of_not_finite o h hk, ?_⟩
    rw [swatchCount_abandoned, h, List.drop_one, List.tail_cons]
  · intro k l d r q far bound h hk hd hr hq hfar hbound
    have hexec := exec_swatchCheck_of_finite h hk (swatchDiffers_of_finite hd hr hq hfar hbound)
    refine ⟨fun hle => ⟨_, hexec, ?_⟩, fun hlt => ⟨_, hexec, if_pos (decide_eq_true hlt)⟩⟩
    obtain ⟨ls, hls⟩ := swatchCount_done c s
    rw [if_neg fun hlt => Rat.not_lt.2 hle (of_decide_eq_true hlt), hls, h]
    exact ⟨core_setCore_self s c _, rfl, rfl, rfl⟩

end Sys2Proof.Machine
end

section
/-!
PROOFS. The quantizing store and load (O23): the bytes of a tagged tile that VQUANT stores (R129), the lanes that VDEQ
writes (R150), and what each command does by its checks (R134, R135, R149).
-/
namespace Sys2Proof.Machine

/-! ### Parts of a written range of bytes -/

/-- Read after write: byte i of the written value. -/
theorem mget_mwrite_in (m : Mem) {a n v i : Nat} (hi : i < n) :
    mget (mwrite m a n v) (a + i) = BitVec.ofNat 8 (v / 256 ^ i) := by
  induction n generalizing m a v i with
  | zero => omega
  | succ n ih =>
    rw [mwrite]
    cases i with
    | zero => rw [mget_mwrite_out _ (by omega), Nat.add_zero, mget_mset_self, Nat.pow_zero, Nat.div_one]
    | succ i => rw [← Nat.add_assoc, Nat.add_right_comm, ih _ (by omega), Nat.div_div_eq_div_mul, Nat.pow_succ']

/-- Read after write: k bytes of the written value from its byte i. -/
theorem mread_mwrite_in (m : Mem) {a n v i k : Nat} (h : i + k ≤ n) :
    mread (mwrite m a n v) (a + i) k = v / 256 ^ i % 256 ^ k := by
  induction k generalizing i with
  | zero => rw [mread, Nat.pow_zero, Nat.mod_one]
  | succ k ih =>
    rw [mread, mget_mwrite_in m (by omega), Nat.add_assoc, ih (by omega), BitVec.toNat_ofNat, Nat.pow_succ' (n := k),
      Nat.mod_mul, Nat.div_div_eq_div_mul, Nat.pow_succ 256 i]

/-! ### Lanes of a result -/

theorem lanes_succ_fst (sz : Nat) (f : Nat → FRes) (n : Nat) :
    (lanes sz f (n + 1)).1 = (lanes sz f n).1 + (f n).code % 2 ^ (8 * sz) * 2 ^ (8 * sz * n) := by
  rw [← Nat.shiftLeft_eq, lanes]

theorem lanes_lt (sz : Nat) (f : Nat → FRes) (n : Nat) : (lanes sz f n).1 < 2 ^ (8 * sz * n) := by
  induction n with
  | zero => exact Nat.two_pow_pos _
  | succ n ih =>
    have hc : (f n).code % 2 ^ (8 * sz) + 1 ≤ 2 ^ (8 * sz) := Nat.mod_lt _ (Nat.two_pow_pos _)
    have hm := Nat.mul_le_mul_right (2 ^ (8 * sz * n)) hc
    rw [Nat.add_mul, Nat.one_mul] at hm
    rw [lanes_succ_fst, Nat.mul_succ, Nat.pow_add, Nat.mul_comm (2 ^ (8 * sz * n))]
    omega

/-- Lane i of n lanes is what the function gives, cut to the size of a lane. -/
theorem lanes_div_mod (sz : Nat) (f : Nat → FRes) {i n : Nat} (hi : i < n) :
    (lanes sz f n).1 / 2 ^ (8 * sz * i) % 2 ^ (8 * sz) = (f i).code % 2 ^ (8 * sz) := by
  induction n with
  | zero => omega
  | succ n ih =>
    rw [lanes_succ_fst]
    rcases Nat.lt_succ_iff_lt_or_eq.1 hi with h | rfl
    · rw [← ih h]
      obtain ⟨d, rfl⟩ := Nat.exists_eq_add_of_lt h
      have e : 2 ^ (8 * sz * (i + d + 1)) = 2 ^ (8 * sz * i) * (2 ^ (8 * sz) * 2 ^ (8 * sz * d)) := by
        rw [← Nat.pow_add, ← Nat.pow_add, Nat.mul_succ, Nat.mul_add, Nat.add_assoc, Nat.add_comm (8 * sz * d)]
      rw [e, Nat.mul_left_comm, Nat.add_mul_div_left _ _ (Nat.two_pow_pos _), Nat.mul_left_comm, Nat.add_mul_mod_self_left]
    · rw [Nat.add_mul_div_right _ _ (Nat.two_pow_pos _), Nat.div_eq_of_lt (lanes_lt sz f i), Nat.zero_add, Nat.mod_mod]

/-! ### Marks and bits -/

/-- Setting or clearing marks changes nothing but the marks. -/
theorem setMarks_eq (x : Core) (a n : Nat) (b : Bool) : ∃ m, x.setMarks a n b = { x with marks := m } := by
  unfold Core.setMarks
  split
  · exact ⟨x.marks, rfl⟩
  · exact ⟨_, rfl⟩

@[simp] theorem setMarks_stall (x : Core) (a n : Nat) (b : Bool) : (x.setMarks a n b).stall = x.stall := by
  obtain ⟨m, hm⟩ := setMarks_eq x a n b
  rw [hm]

theorem bit_eq_testBit (v i : Nat) : bit v i = v.testBit i := by
  rw [bit, Nat.shiftRight_eq_div_pow, Nat.testBit_eq_decide_div_mod_eq]

/-! ### A granted command runs -/

theorem engineRow_vector_granted {c : Nat} {test : BitVec 256 → Bool} {go : BitVec 256 → State → State} {s : State}
    {w : BitVec 256} (hrun : (s.core c).run = true) (hw : (s.core c).vec.granted = some w) (ht : test w = true) :
    engineRow c .vector test go s = go w s := by
  simp only [engineRow, Core.eng, hrun, hw, ht, Bool.and_self, if_true]

theorem extent_of_ne_zero {n : Nat} (a stride size : Nat) (h : n ≠ 0) :
    extent a stride n size = a + stride * (n - 1) + size := if_neg h

/-! ### The stored tile (R128, R129) -/

theorem header_le_tileSize (f rows : Nat) : 32 ≤ tileSize f rows := by
  rw [tileSize]; omega

/-- The header's format, rows, tile scale and sequence number. -/
theorem tileWord_fields {q : QReq} (hr : q.rows ≤ 32) (l : List Attempt) (t : Attempt) (sat nan : Bool) (seq : Nat) :
    tileWord q l t sat nan seq % 16 = t.fmt % 16 ∧ tileWord q l t sat nan seq / 256 % 256 = q.rows ∧
    tileWord q l t sat nan seq / 256 ^ 4 % 256 ^ 4 = fp32Code t.st % 2 ^ 32 ∧
    tileWord q l t sat nan seq / 256 ^ 12 % 256 ^ 4 = seq % 2 ^ 32 := by
  have hs : 8 * scalePart t.fmt q.rows = 256 + 8 * ((q.rows * tilePitch t.fmt + 31) / 32 * 32) := by
    rw [scalePart]; omega
  simp only [tileWord, put, Nat.shiftLeft_eq, hs, Nat.pow_add]
  rw [Nat.mul_left_comm (pack 8 t.scales)]
  refine ⟨?_, ?_, ?_, ?_⟩ <;> omega

/-- Core x with the tile of the last attempt of `l` stored at d. -/
def Core.storeTile (x : Core) (d : Nat) (q : QReq) (l : List Attempt) (sat nan mark : Bool) : Core :=
  let t := l.getLastD default
  let n := tileSize t.fmt q.rows
  { (x.stallWrite d n (tileWord q l t sat nan x.seq)).setMarks d n mark with seq := x.seq + 1 }

theorem storeTile_stall (x : Core) (d : Nat) (q : QReq) (l : List Attempt) (sat nan mark : Bool) :
    (x.storeTile d q l sat nan mark).stall = mwrite x.stall d (tileSize (l.getLastD default).fmt q.rows)
      (tileWord q l (l.getLastD default) sat nan x.seq) :=
  setMarks_stall ..

/-- What stall memory holds after a tile is stored: the header's fields, and every byte outside the tile as before. -/
theorem storeTile_fields (x : Core) (d : Nat) {q : QReq} (hr : q.rows ≤ 32) (l : List Attempt) (sat nan mark : Bool) :
    let y := x.storeTile d q l sat nan mark
    let t := l.getLastD default
    (mget y.stall d).toNat % 16 = t.fmt % 16 ∧ (mget y.stall (d + 1)).toNat = q.rows ∧
    mread y.stall (d + 4) 4 = fp32Code t.st % 2 ^ 32 ∧ mread y.stall (d + 12) 4 = x.seq % 2 ^ 32 ∧ y.seq = x.seq + 1 ∧
    (∀ a, a < d ∨ d + tileSize t.fmt q.rows ≤ a → mget y.stall a = mget x.stall a) := by
  intro y t
  have hn := header_le_tileSize t.fmt q.rows
  obtain ⟨hfmt, hrows, hscale, hseq⟩ := tileWord_fields hr l t sat nan x.seq
  have hy : y.stall = mwrite x.stall d (tileSize t.fmt q.rows) (tileWord q l t sat nan x.seq) := storeTile_stall ..
  rw [hy]
  refine ⟨?_, ?_, ?_, ?_, rfl, fun a => mget_mwrite_out _⟩
  · have h0 := mget_mwrite_in x.stall (a := d) (v := tileWord q l t sat nan x.seq) (show 0 < tileSize t.fmt q.rows by omega)
    rw [Nat.add_zero] at h0
    rw [h0, BitVec.toNat_ofNat, ← hfmt]
    omega
  · rw [mget_mwrite_in _ (by omega), BitVec.toNat_ofNat, ← hrows, Nat.pow_one]
  · rw [mread_mwrite_in _ (by omega), hscale]
  · rw [mread_mwrite_in _ (by omega), hseq]

/-! ### VQUANT -/

theorem exec_vquant (core : Fin 4000) (e : Ecc) (s : State) : exec (.vquant core e) s = execVquant core e s := rfl

section
variable {core : Fin 4000} {s : State} {w : BitVec 256} {q : QReq} (hrun : (s.core core.val).run = true)
  (hw : (s.core core.val).vec.granted = some w) (hop : cOp w = 0x60)
include hrun hw hop

theorem exec_vquant_of_bad_policy (e : Ecc)
    (hq : quantReq w ((s.core core.val).vget (vReg w 1)).toNat s.fuse.profile = none) :
    exec (.vquant core e) s = .next (engineFault core.val 1 fcCommandInvalid s) := by
  rw [exec_vquant, execVquant, engineRow_vector_granted hrun hw (decide_eq_true hop)]
  simp only [hq]

theorem exec_vquant_of_no_tiles (e : Ecc)
    (hq : quantReq w ((s.core core.val).vget (vReg w 1)).toNat s.fuse.profile = some q) (hn : vCount w = 0) :
    exec (.vquant core e) s = .next (engineDone core.val .vector s) := by
  rw [exec_vquant, execVquant, engineRow_vector_granted hrun hw (decide_eq_true hop)]
  simp only [hq, hn, if_true]

theorem exec_vquant_of_tiles
    (hq : quantReq w ((s.core core.val).vget (vReg w 1)).toNat s.fuse.profile = some q) (hn : vCount w ≠ 0)
    (hsize : widest q ≤ 32 * vStrD w)
    (hsrc : vAddr w 0 + 32 * vStr w 0 * (vCount w - 1) + 128 * q.rows ≤ stallSize)
    (hdst : vAddrD w + 32 * vStrD w * (vCount w - 1) + widest q ≤ stallSize)
    (hapart : ∀ i j, i < vCount w → j < vCount w →
      overlaps (vAddr w 0 + 32 * vStr w 0 * i) (128 * q.rows) (vAddrD w + 32 * vStrD w * j) (widest q) = false) :
    exec (.vquant core .clean) s = .next (engineDone core.val .vector (foldS (List.range (vCount w))
      (quantTile core.val w q ((s.core core.val).vget (vReg w 1)).toNat none) s)) := by
  have hbounds : (decide (extent (vAddr w 0) (32 * vStr w 0) (vCount w) (128 * q.rows) > stallSize) ||
      decide (extent (vAddrD w) (32 * vStrD w) (vCount w) (widest q) > stallSize)) = false := by
    rw [extent_of_ne_zero _ _ _ hn, extent_of_ne_zero _ _ _ hn, decide_eq_false (Nat.not_lt.2 hsrc),
      decide_eq_false (Nat.not_lt.2 hdst), Bool.or_self]
  have hclosed : ((List.range (vCount w)).any fun i => (List.range (vCount w)).any fun j =>
      overlaps (vAddr w 0 + 32 * vStr w 0 * i) (128 * q.rows) (vAddrD w + 32 * vStrD w * j) (widest q)) = false := by
    simp only [List.any_eq_false, List.mem_range, Bool.not_eq_true]
    exact fun i hi j hj => hapart i j hi hj
  rw [exec_vquant, execVquant, engineRow_vector_granted hrun hw (decide_eq_true hop)]
  simp only [hq, if_neg hn, if_neg (Nat.not_lt.2 hsize), hbounds, hclosed, withEcc, Bool.false_eq_true, if_false]

end

/-- The attempts for tile i of a VQUANT, from the FP32 values of its source rows. -/
def quantAttempts (x : Core) (w : BitVec 256) (q : QReq) (pol i : Nat) : List Attempt :=
  attempts q ((List.range (32 * q.rows)).map fun j => decodeFlt fp32 (mread x.stall (vAddr w 0 + 32 * vStr w 0 * i + 4 * j) 4))
    ((lane pol 7 + i) % 2 ^ 32) (lane pol 8) (lane pol 9) q.escMax q.req

/-- On a running core a tile is stored and its census record written. -/
theorem quantTile_of_run {c : Nat} {s : State} (hrun : (s.core c).run = true) (w : BitVec 256) (q : QReq) (pol i : Nat) :
    ∃ word sat nan mark, quantTile c w q pol none i s = censusPut c word (s.setCore c
      ((s.core c).storeTile (vAddrD w + 32 * vStrD w * i) q (quantAttempts (s.core c) w q pol i) sat nan mark)) := by
  simp only [quantTile, hrun, Bool.not_true, Bool.false_eq_true, if_false]
  exact ⟨_, _, _, _, rfl⟩

/-! ### VDEQ -/

/-- Element j that VDEQ makes of the tile at a: its scale byte, its code and the tile scale, which bit 0 of IMM drops. -/
def deqLane (x : Core) (w : BitVec 256) (a f rows : Nat) (col : Bool) (ts : Rat) (j : Nat) : FRes :=
  deqElement f (if blockScaled f then (mget x.stall (a + scalePart f rows + (if col then j % 32 else j / 32))).toNat else 0)
    (packedAt f (mread x.stall (a + 32 + j / 32 * tilePitch f) (tilePitch f)) (j % 32)) (if bit (vImm w) 0 then 1 else ts)

/-- Core x with rows of 32 FP32 lanes written at d. -/
def Core.storeRows (x : Core) (d rows : Nat) (g : Nat → FRes) (mark : Bool) : Core :=
  ((x.stallWrite d (128 * rows) (lanes 4 g (32 * rows)).1).setMarks d (128 * rows) mark).setVflags (lanes 4 g (32 * rows)).2

theorem storeRows_stall (x : Core) (d rows : Nat) (g : Nat → FRes) (mark : Bool) :
    (x.storeRows d rows g mark).stall = mwrite x.stall d (128 * rows) (lanes 4 g (32 * rows)).1 :=
  setMarks_stall ..

theorem mread_storeRows (x : Core) (d : Nat) {rows i : Nat} (g : Nat → FRes) (mark : Bool) (hi : i < 32 * rows) :
    mread (x.storeRows d rows g mark).stall (d + 4 * i) 4 = (g i).code % 2 ^ 32 := by
  have hpow : 2 ^ (8 * 4 * i) = 256 ^ (4 * i) := by
    rw [Nat.mul_assoc]
    exact Nat.pow_mul 2 8 (4 * i)
  rw [storeRows_stall, mread_mwrite_in _ (by omega), ← hpow]
  exact lanes_div_mod 4 g hi

theorem mget_storeRows_out (x : Core) {d rows b : Nat} (g : Nat → FRes) (mark : Bool) (hb : b < d ∨ d + 128 * rows ≤ b) :
    mget (x.storeRows d rows g mark).stall b = mget x.stall b := by
  rw [storeRows_stall, mget_mwrite_out _ hb]

/-- Written rows change stall memory, its marks and the flags only. -/
theorem storeRows_frame (x : Core) (d rows : Nat) (g : Nat → FRes) (mark : Bool) :
    { x.storeRows d rows g mark with stall := x.stall, marks := x.marks, vflags := x.vflags } = x := by
  obtain ⟨m, hm⟩ := setMarks_eq (x.stallWrite d (128 * rows) (lanes 4 g (32 * rows)).1) d (128 * rows) mark
  rw [Core.storeRows, hm]
  rfl

theorem deqRun_zero (c : Nat) (w : BitVec 256) (i : Nat) (outs : List (Nat × Nat)) (s : State) :
    deqRun c w 0 i outs s = engineDone c .vector s := rfl

section
variable {c n i a d : Nat} {w : BitVec 256} {outs : List (Nat × Nat)} {s : State}
  (ea : vAddr w 0 + 32 * vStr w 0 * i = a) (ha : a + 32 ≤ stallSize)
include ea ha

theorem deqRun_of_bad_header (hh : headerOf (mread (s.core c).stall a 32) = none) :
    deqRun c w (n + 1) i outs s = engineFault c 1 fcTileHeader s := by
  simp only [deqRun, ea, if_neg (Nat.not_lt.2 ha), hh]

/-- One tile within stall memory, apart from the outputs so far: its rows are written, and the next tile follows. -/
theorem deqRun_succ (ed : vAddrD w + 32 * vStrD w * i = d) {f rows : Nat} {col : Bool} {ts : Rat}
    (hh : headerOf (mread (s.core c).stall a 32) = some (f, col, rows, ts)) (hsrc : a + tileSize f rows ≤ stallSize)
    (hdst : d + 128 * rows ≤ stallSize)
    (hapart : ∀ o ∈ (d, 128 * rows) :: outs, overlaps a (tileSize f rows) o.1 o.2 = false) :
    ∃ mark, deqRun c w (n + 1) i outs s = deqRun c w n (i + 1) ((d, 128 * rows) :: outs)
      (s.setCore c ((s.core c).storeRows d rows (deqLane (s.core c) w a f rows col ts) mark)) := by
  have hclosed : (((d, 128 * rows) :: outs).any fun o => overlaps a (tileSize f rows) o.1 o.2) = false := by
    simp only [List.any_eq_false, Bool.not_eq_true]
    exact hapart
  have hbounds : (decide (a + tileSize f rows > stallSize) || decide (d + 128 * rows > stallSize)) = false := by
    rw [decide_eq_false (Nat.not_lt.2 hsrc), decide_eq_false (Nat.not_lt.2 hdst), Bool.or_self]
  simp only [deqRun, ea, ed, if_neg (Nat.not_lt.2 ha), hh, hbounds, hclosed, Bool.and_false, Bool.false_eq_true, if_false]
  exact ⟨_, rfl⟩

end

theorem exec_vdeq (core : Fin 4000) (e : Ecc) (s : State) : exec (.vdeq core e) s = execVdeq core e s := rfl

theorem exec_vdeq_granted {core : Fin 4000} {s : State} {w : BitVec 256} (hrun : (s.core core.val).run = true)
    (hw : (s.core core.val).vec.granted = some w) (hop : cOp w = 0x61) (hn : vCount w ≠ 0) :
    exec (.vdeq core .clean) s = .next (deqRun core.val w (vCount w) 0 [] s) := by
  rw [exec_vdeq, execVdeq, engineRow_vector_granted hrun hw (decide_eq_true hop), if_neg hn, withEcc]

/-- Settles O23: VQUANT by the checks of R134 and R135, one tile by the tile it stores, VDEQ of one tile by its header. -/
theorem quantizingStoreAndLoad : Obligations.QuantizingStoreAndLoad := by
  refine ⟨?_, ?_, ?_⟩
  · intro s core w hrun hw hop pol
    exact ⟨exec_vquant_of_bad_policy hrun hw hop, fun e _ => exec_vquant_of_no_tiles hrun hw hop e,
      fun _ => exec_vquant_of_tiles hrun hw hop⟩
  · intro s core w q pol i hrun _ hrows x d src t
    obtain ⟨word, sat, nan, mark, hword⟩ := quantTile_of_run hrun w q pol i
    exact ⟨_, word, hword, storeTile_fields x d hrows (quantAttempts x w q pol i) sat nan mark⟩
  · intro s core w f rows col ts hrun hw hop hcount x a d ha
    have hexec := exec_vdeq_granted hrun hw hop (by omega)
    rw [hcount] at hexec
    have ea : vAddr w 0 + 32 * vStr w 0 * 0 = a := Nat.add_zero _
    have ed : vAddrD w + 32 * vStrD w * 0 = d := Nat.add_zero _
    refine ⟨fun hh => by rw [hexec, deqRun_of_bad_header ea ha hh], fun hh hsrc hdst hapart => ?_⟩
    obtain ⟨mark, hdone⟩ := deqRun_succ (n := 0) ea ha ed hh hsrc hdst (List.forall_mem_singleton.2 hapart)
    rw [hdone, deqRun_zero] at hexec
    refine ⟨_, hexec, _, rfl, ?_, fun b => mget_storeRows_out x _ mark, storeRows_frame x d rows _ mark⟩
    intro i hi
    rw [mread_storeRows x d _ mark hi, deqLane, bit_eq_testBit]

end Sys2Proof.Machine
end
